-- ==== Sys2Proof/Word.lean ====
section
/-! DEFINITION. The word types of the DX192 and their plainest arithmetic. -/

namespace Sys2Proof

/-- A device register or an A register: 64 bits. -/
abbrev Word := BitVec 64

/-- A byte of memory. -/
abbrev Byte := BitVec 8

/-- A net word: 256 bits, one net per bit (spec/00). -/
abbrev NetWord := BitVec 256

/-- An accumulator: 80 bits (R132). -/
abbrev AccWord := BitVec 80

/-- A Caluf flit or a code word: 160 bits (R267, R313). -/
abbrev Flit := BitVec 160

/-- The number as a 64-bit word. -/
abbrev w64 (n : Nat) : Word := BitVec.ofNat 64 n

/-- The bits [lo + w − 1 : lo] of a natural number, as a natural number. -/
def natBits (n lo w : Nat) : Nat := (n >>> lo) % 2 ^ w

/-- The number with bits [lo + w − 1 : lo] replaced by the low `w` bits of `v`. -/
def natSetBits (n lo w v : Nat) : Nat :=
  (n >>> (lo + w)) <<< (lo + w) + (v % 2 ^ w) <<< lo + n % 2 ^ lo

end Sys2Proof
end

