-- ==== Sys2Proof/Syntax.lean ====
section
/-! DEFINITION. The commands of the block: one constructor per row of the table of operations and events, with the row's
operands. What the environment alone decides (a physical outcome, an arrival time, a payload) is an operand. -/

namespace Sys2Proof

/-- What a DIMM reports in its SPD and how its training ends (R442, R446): `cause` 0 trained, 1 no SPD answer, 2 unsupported,
3 training failed; package ranks, stacking, x8 devices, capacity code 1–4, highest rate code 0–7, die density in Gb. -/
structure Dimm where
  cause : Nat
  ranks : Nat
  stack : Nat
  x8    : Bool
  cap   : Nat
  speed : Nat
  die   : Nat
  deriving DecidableEq, Repr

/-- The place of a code word in the DRAMs of a port (R449): the word of the burst, the column C[10:4], bank group, bank, row,
package rank and chip ID. -/
structure DramAddr where
  word : Nat
  col  : Nat
  bg   : Nat
  bank : Nat
  row  : Nat
  rank : Nat
  chip : Nat
  deriving DecidableEq, Repr

/-- Physical outcomes of a start-up (R466): whether every rail has been in range for 1 ms (R572), whether a sensor still reads
above 115 °C (R576), the first failing pattern and decoder of the self-test, whether the fill succeeds, whether the flash
answers, the DIMMs of MP0–MP3, and the speed and width that each host port's link trains to (0 for no link). -/
structure Boot where
  rails : Bool
  hot   : Bool
  selfTest : Option (Nat × Nat)
  fill  : Bool
  flash : Bool
  dimms : List Dimm
  links : List (Nat × Nat)
  deriving DecidableEq, Repr

/-- A decoded Damson instruction (R457–R464). The spec leaves the encodings to another document, so the operation is given
with its operands: registers by number, and the device address that an access computes. `icinv` names a line by an address in it, or
the whole cache; `noFetch` says that the flash did not answer the fetch. -/
inductive DamOp where
  | alu (fn rd ra rb : Nat) (imm : Option (BitVec 32))
  | mul (sgn : Bool) (rlo rhi ra rb : Nat)
  | div (sgn rem : Bool) (rd ra rb : Nat)
  | load (a n : Nat) (sgn : Bool) (rd : Nat)
  | store (a n ra : Nat)
  | lockLoad (a n rd : Nat)
  | lockStore (a n ra rd : Nat)
  | branch (taken annul : Bool) (target : BitVec 32)
  | syscall
  | rfe
  | icinv (line : Option Nat)
  | noFetch
  | getCtl (c rd : Nat)
  | setCtl (c ra : Nat)
  | illegal
  deriving DecidableEq, Repr

/-- Where a request to the resident monitor comes from (R538): the mailbox of a host port, whose request buffer holds it, or
UART0, with the SEQ of its header and its payload. -/
inductive MonSrc where
  | mailbox (n : Nat)
  | uart (seq : BitVec 8) (payload : List (BitVec 8))
  deriving DecidableEq, Repr

/-- A far store that is performed: its number among those in flight, and the ECLK. -/
structure FarDone where
  idx : Nat
  at_ : Nat
  deriving DecidableEq, Repr

/-- A DMA request that times out: its channel, and whether it is one of the write engine. -/
structure DmaLate where
  k  : Nat
  wr : Bool
  deriving DecidableEq, Repr

/-- The first failure that the march over a chunk finds (R292): the word of the chunk, its symbol, and the element of the march. -/
structure MarchBad where
  word : Nat
  sym  : Nat
  elem : Nat
  deriving DecidableEq, Repr

/-- The commands. `c` is a Caluf port, `p` a partition, `e` an engine, `n` a host port or DDR port, `k` a DMA channel or counter,
`b` a block, `g` an ECLK group; `m` and `master` the code of a master (0 the Damson core, 1 the debug port, 2–5 HP0–HP3); `now`,
`t` and `at_` are times in the clock of the unit; `w` is the flit that arrives, with its check bits; `v` a value written. -/
inductive Instr where
  /-- BUNDLE_ISSUE (R45): An engine issues one bundle: its header and present slot words execute together at X1. -/
  | bundleIssue (e : Nat)
  /-- PERF_COUNTER_WRAP (R85): An engine event counter wraps, sets OVF and may raise ENG_PERF. -/
  | perfCounterWrap (e k n : Nat)
  /-- QUINCE_RESULT (R137): A Quince operation writes its result through the long-result port and clears its scoreboard bits. -/
  | quinceResult (e : Nat)
  /-- FAR_LOAD_RESULT (R308): A far load returns through the long-result port and clears its scoreboard bit. -/
  | farLoadResult (e idx at_ : Nat)
  /-- FAR_STORE_PERFORMED (R309): A posted far store is performed at its target. -/
  | farStorePerformed (x : FarDone)
  /-- PUT_VISIBLE (R300): A PUT reaches the target Arcade bank through port B and sets written bits. -/
  | putVisible (idx : Nat)
  /-- TRAP_ENTRY (R218): A trap is taken at a boundary and the 8-ECLK entry into the handler runs. -/
  | trapEntry (e : Nat)
  /-- INTERRUPT_ENTRY (R222): A pending ISC request is recognised at a boundary and entry begins. -/
  | interruptEntry (e b : Nat)
  /-- RTE_RETURN (R226): Eight ECLK after RTE, the return point issues with the saved mode and bank restored. -/
  | rteReturn (e : Nat)
  /-- ENGINE_RELEASE (R588): At the ECLK T of a GO or DECIDE, the active engines of a share issue their first bundle. -/
  | engineRelease (p t : Nat) (restored : Bool)
  /-- DESIGN_CYCLE_BOUNDARY (R114): At ECLK b, or when the barrier closes, the engine copies written NEXT bytes into LIVE and restarts at ENTRY. -/
  | designCycleBoundary (p b : Nat)
  /-- STIMULUS_WRITE (R359): The Square writes a stimulus record's rows into the next stimulus half. -/
  | stimulusWrite (p : Nat)
  /-- REPORT (R341): A REPORT flit arrives and is combined upward or decided by the root. -/
  | report (c now : Nat) (w : Flit)
  /-- DECIDE (R343): A DECIDE flit arrives and the device commits, rolls back, stops or holds. -/
  | decide (c now : Nat) (w : Flit)
  /-- READY (R342): A READY flit arrives at the root, which then sends GO. -/
  | ready (c now : Nat) (w : Flit)
  /-- GO (R337): A GO flit arrives naming the release time T. -/
  | go (c now : Nat) (w : Flit)
  /-- BARRIER (R349): A BARRIER flit reports a completed design cycle in barrier mode. -/
  | barrier (c now : Nat) (w : Flit)
  /-- SQUARE_RELEASE (R349): A RELEASE flit lets the boundary of a design cycle begin. -/
  | squareRelease (c now : Nat) (w : Flit)
  /-- EARLY (R350): An EARLY flit reaches the root, which may send END. -/
  | early (c now : Nat) (w : Flit)
  /-- END (R350): An END flit sets the early end of the interval in progress. -/
  | sqEnd (c now : Nat) (w : Flit)
  /-- HALT (R344): A HALT flit or halt cause halts the share at its last commit. -/
  | halt (c now : Nat) (w : Flit)
  /-- DECISION_TIMEOUT (R347): A decision not received within TIMEOUT of a REPORT halts the partition. -/
  | decisionTimeout (p : Nat)
  /-- STEP_TIMEOUT (R347): A RELEASE not received within TIMEOUT of BARRIER fails the interval. -/
  | stepTimeout (p now : Nat)
  /-- SQ_CTL_GO (R344): A write of GO starts a STOPPED share. -/
  | sqCtlGo (p now : Nat)
  /-- SQ_CTL_STOP (R344): A write of STOP requests a stop at the next commit boundary. -/
  | sqCtlStop (p : Nat)
  /-- SQ_CTL_HOLDREQ (R223): A write of HOLDREQ sets or clears the hold request. -/
  | sqCtlHoldreq (p : Nat) (v : Bool) (now : Nat)
  /-- SQ_CTL_CLEAR (R344): A write of CLEAR takes a HALTED share to STOPPED. -/
  | sqCtlClear (p : Nat)
  /-- SQ_CTL_JRESET (R367): A write of JRESET empties journals, force table and rings. -/
  | sqCtlJreset (p : Nat)
  /-- SQ_CTL_CAPEN (R368): A write of CAPEN enables or disables capture. -/
  | sqCtlCapen (p : Nat) (v : Bool)
  /-- SQ_CTL_RUNMODE (R27): A write of RUNMODE selects timed lock-step or barrier mode. -/
  | sqCtlRunmode (p : Nat) (v : Bool)
  /-- SQ_DCN_WRITE (R367): A write of SQ.DCN while STOPPED sets the DCN of LIVE and COMMITTED. -/
  | sqDcnWrite (p : Nat) (v : Word)
  /-- VIEW_HOLD_REQUEST (R366): A write of SQ.VIEW_CTL.REQ requests or releases a held view. -/
  | viewHoldRequest (p : Nat) (v : Bool)
  /-- COMMITTED_VIEW_READ (R364): A read request through the committed view returns one state and latches its DCN. -/
  | committedViewRead (m p off len : Nat)
  /-- COMMITTED_VIEW_WRITE (R363): A write through the committed view writes LIVE and COMMITTED while stopped. -/
  | committedViewWrite (m p off len data : Nat)
  /-- LINK_CTL_EN (R319): A write of LINK.CTL.EN starts training or disables the port. -/
  | linkCtlEn (c : Nat) (v : Bool)
  /-- LINK_CTL_RETRAIN (R319): A write of RETRAIN retrains a port from DOWN or ACTIVE. -/
  | linkCtlRetrain (c : Nat)
  /-- LINK_LAT_WRITE (R319): A write of LINK.LAT on an ACTIVE port repeats the latency measurement. -/
  | linkLatWrite (c : Nat) (v : Word)
  /-- ELEC_DONE (R319): Both ends report equalisation done and the port enters ALIGN. -/
  | elecDone (c : Nat)
  /-- ELEC_TIMEOUT (R319): 500 ms in ELEC take the port DOWN. -/
  | elecTimeout (c : Nat)
  /-- ALIGN_LOCK (R319): All lanes lock with frame lock and the port enters EXCHANGE. -/
  | alignLock (c : Nat) (lrev : Bool) (lpol : BitVec 4)
  /-- ALIGN_FAIL (R319): Excess skew, a lane crossing or 10 ms in ALIGN take the port DOWN. -/
  | alignFail (c : Nat)
  /-- TRAIN (R319): A TRAIN flit from the peer is checked in EXCHANGE. -/
  | train (c now : Nat) (w : Flit)
  /-- TIMESYNC (R322): A TIMESYNC flit arrives and is echoed. -/
  | timesync (c now : Nat) (w : Flit)
  /-- TIMESYNC_ECHO (R322): A TIMESYNC_ECHO completes the exchange and sets the child timebase. -/
  | timesyncEcho (c now rtt : Nat) (w : Flit)
  /-- LATPROBE (R323): A LATPROBE arrives and its latency is measured. -/
  | latprobe (c now : Nat) (w : Flit)
  /-- PIN_COMPLETE (R323): After 64 probes each way the port checks the latency inequality. -/
  | pinComplete (c : Nat) (peerOk : Bool)
  /-- LATPROBE_SEND (R324): Every 1,024 frames an ACTIVE port sends a LATPROBE. -/
  | latprobeSend (c now : Nat)
  /-- TBLSYNC (R326): A TBLSYNC flit is compared against the local RXCNT. -/
  | tblsync (c now : Nat) (w : Flit)
  /-- FRAME_FLIT (R314): A frame flit arrives, giving the map and keeping frame lock. -/
  | frameFlit (c now : Nat) (w : Flit)
  /-- SCHEDULED_FLIT (R328): A scheduled flit arrives and is assigned to the next receive entry. -/
  | scheduledFlit (c now : Nat) (w : Flit)
  /-- FLIT_RELEASE (R328): At its receive offset a held flit is released into the Boulevard, or LATE is set. -/
  | flitRelease (c now : Nat)
  /-- LINK_READ (R327): At a transmit offset the port reads an Arcade word and sends it. -/
  | linkRead (c now : Nat)
  /-- IDLE (R316): An IDLE control flit arrives. -/
  | idleFlit (c now : Nat) (w : Flit)
  /-- BG_HDR (R318): A background packet arrives and enters the arbitrated class. -/
  | bgHdr (c now : Nat) (w : Flit) (data : List Flit)
  /-- ACK (R318): An ACK or NAK arrives; a NAK triggers resend from that SEQ. -/
  | ackFlit (c now : Nat) (w : Flit)
  /-- CREDIT (R318): A CREDIT flit returns background buffers. -/
  | credit (c now : Nat) (w : Flit)
  /-- WAKE (R553): A WAKE flit sets LINK(p) in PWR.WAKE_STAT. -/
  | wake (c now : Nat) (w : Flit)
  /-- DOWN (R319): A DOWN flit from the peer takes the port DOWN. -/
  | down (c now : Nat) (w : Flit)
  /-- LOSS_OF_SIGNAL (R319): Loss of signal takes an ACTIVE port DOWN. -/
  | lossOfSignal (c : Nat)
  /-- LOSS_OF_FRAME_LOCK (R314): Four missed frame flits lose frame lock and take the port DOWN. -/
  | lossOfFrameLock (c : Nat)
  /-- EB_OVERFLOW (R321): An elastic-buffer overflow takes the port DOWN. -/
  | ebOverflow (c : Nat)
  /-- MEM_OWNER_WRITE (R258): A write of MEM.OWNER or MEM.DOWNER assigns a unit or begins its wipe. -/
  | memOwnerWrite (master : Nat) (isD : Bool) (i : Nat) (v : Word)
  /-- WIPE_COMPLETE (R259): A unit wipe finishes, the unit becomes FREE and MEM_WIPE is raised. -/
  | wipeComplete (isD : Bool) (i : Nat)
  /-- MEM_BSTATE_WRITE (R254): A write of MEM.BSTATE or MEM.CBSTATE requests bank state changes. -/
  | memBstateWrite (cb : Bool) (b r : Nat) (v : Word)
  /-- BANK_TRANSITION_COMPLETE (R254): A bank reaches its requested power state. -/
  | bankTransitionComplete (a : Nat)
  /-- REPAIR_WRITEBACK (R277): A corrected word is written back in the bank's next idle slot. -/
  | repairWriteback (a : Nat)
  /-- POISON_REWRITE (R278): An uncorrectable word is rewritten as poison in an idle slot. -/
  | poisonRewrite (a : Nat)
  /-- SCRUB_WORD (R288): The scrubber reads one code word and corrects or poisons it. -/
  | scrubWord (isD : Bool)
  /-- SCRUB_PASS_OVERRUN (R287): A scrub pass not done by the end of its period sets LAG. -/
  | scrubPassOverrun (isD : Bool)
  /-- TESTER_CHUNK (R290): The background tester borrows a bank and runs the march over one chunk. -/
  | testerChunk (fails : Bool) (bad : MarchBad) (lost : BitVec 64)
  /-- SCRUB_INJECT (R295): A write of SCRUB.INJECT.GO injects symbol errors or poison. -/
  | scrubInject (master : Nat) (v : Word)
  /-- DDR_SWEEP (R283): The sweep writes zero markers and advances its watermark. -/
  | ddrSweep (n : Nat)
  /-- HOST_MEMORY_READ (R376): A PCIe memory read request is checked and completed. -/
  | hostMemoryRead (n bar o len : Nat)
  /-- HOST_MEMORY_WRITE (R372): A PCIe posted write is performed in arrival order. -/
  | hostMemoryWrite (n bar o : Nat) (data : List (BitVec 8)) (bad : Bool) (now : Nat)
  /-- COMPLETER_ABORT (R373): A host request not done within 40 µs completes with Completer Abort. -/
  | completerAbort (n : Nat) (rd : Bool)
  /-- FUNCTION_LEVEL_RESET (R374): An FLR resets the port and disables its partitions' DMA channels. -/
  | functionLevelReset (n : Nat)
  /-- PERST_N (R374): Assertion of a port's PERST_N resets that port only. -/
  | perstN (n : Nat) (asserted : Bool) (speed width : Nat)
  /-- FEAT_ACCEPT_WRITE (R379): A write of DEV.FEAT_ACCEPT stores accepted features or is refused. -/
  | featAcceptWrite (m n : Nat) (v : Word)
  /-- DOORBELL (R385): A mailbox doorbell copies the request and sets BUSY. -/
  | doorbell (n : Nat) (v : Word)
  /-- QUERY (R388): Returns HP.PCFG of each bound partition. -/
  | query (n : Nat)
  /-- CREATE (R391): Checks and creates a partition bound to the port. -/
  | create (n : Nat)
  /-- DESTROY (R393): Unbinds, wipes and frees a partition's resources. -/
  | destroy (n : Nat)
  /-- DDR_ADD (R389): Gives DDR granules to a partition. -/
  | ddrAdd (n : Nat)
  /-- DDR_RELEASE (R389): Wipes and frees a partition's DDR granules. -/
  | ddrRelease (n : Nat)
  /-- DECLARE (R389): Writes the schedule declaration into SQ.JMEM, SQ.JDDR and TEST.ELIG. -/
  | declare (n : Nat)
  /-- MON_STATUS (R538): Returns the halted and active engine masks. -/
  | monStatus (src : MonSrc)
  /-- MON_HALT (R538): Halts the engines of a mask. -/
  | monHalt (src : MonSrc)
  /-- MON_RESUME (R538): Resumes the engines of a mask. -/
  | monResume (src : MonSrc) (now : Nat)
  /-- MON_STEP (R538): Steps the engines of a mask. -/
  | monStep (src : MonSrc) (now : Nat)
  /-- MON_RDREG (R538): Reads engine registers through the ECS area. -/
  | monRdreg (src : MonSrc)
  /-- MON_WRREG (R538): Writes engine registers through the ECS area. -/
  | monWrreg (src : MonSrc)
  /-- MON_RDMEM (R538): Reads device memory through DBG.MDATA. -/
  | monRdmem (src : MonSrc)
  /-- MON_WRMEM (R538): Writes device memory through DBG.MDATA. -/
  | monWrmem (src : MonSrc) (now : Nat)
  /-- DMA_START (R407): A write of DMA.CH_CTL.START starts a channel at its head descriptor. -/
  | dmaStart (master k : Nat)
  /-- DMA_DISABLE (R418): A write of DMA.CH_CTL.DISABLE stops a channel at once. -/
  | dmaDisable (k : Nat)
  /-- DMA_CTL_DISABLE (R418): A write of DMA.CTL.DISABLE disables every channel. -/
  | dmaCtlDisable (v : Bool)
  /-- DESCRIPTOR_FETCH (R406): A fetched descriptor arrives and is checked for validity. -/
  | descriptorFetch (k : Nat) (ok : Bool) (data : BitVec 512)
  /-- DMA_READ_RESPONSE (R408): A source read response arrives and fills buffer chunks. -/
  | dmaReadResponse (k : Nat) (ok : Bool) (data : BitVec 2048)
  /-- DMA_WRITE_RESPONSE (R410): A destination write or flush-read response arrives. -/
  | dmaWriteResponse (k : Nat) (ok : Bool)
  /-- DESCRIPTOR_COMPLETE (R411): All writes answered: WBQ written, DONE counted, IRQ raised, next fetched. -/
  | descriptorComplete (k : Nat) (ok : Bool)
  /-- DMA_TIMEOUT (R413): A channel request unanswered for 64 µs fails. -/
  | dmaTimeout (x : DmaLate)
  /-- DMA_QUIESCE (R418): A disabled channel's last outstanding request ends and QUIESCE is set. -/
  | dmaQuiesce (k : Nat)
  /-- ISC_MESSAGE (R423): The ISC takes one source message and updates the source state. -/
  | iscMessage
  /-- ISC_CLAIM (R433): A claim by an engine, the Damson core or a host returns the lowest presented source. -/
  | iscClaim (t src : Nat)
  /-- ISC_COMPLETE (R435): A completion ends a target's service of a source. -/
  | iscComplete (t src : Nat)
  /-- ISC_EOI (R437): In maintenance mode an EOI pops and completes the top of the stack. -/
  | iscEoi (t : Nat)
  /-- COALESCING_TIMER (R428): The coalescing timer expires and a GATHER source becomes PENDING. -/
  | coalescingTimer (src : Nat)
  /-- ISC_SCFG_WRITE (R428): A write of ISC.SCFG changes EN, KIND or CCOUNT with state effects. -/
  | iscScfgWrite (m src : Nat) (v : Word)
  /-- ISC_SMASK_WRITE (R432): A write of ISC.SMASK changes targets and may withdraw presentations. -/
  | iscSmaskWrite (m src i : Nat) (v : Word)
  /-- ISC_CTL_WRITE (R438): A write of ISC.CTL.MAINT changes the service mode or is refused. -/
  | iscCtlWrite (m : Nat) (v : Word)
  /-- ISC_SRAISE (R423): A write of ISC.SRAISE or ISC.DOORBELL sends a software source message. -/
  | iscSraise (m : Nat) (db : Bool) (src : Nat) (lvl : Bool)
  /-- DDR_RETRAIN (R447): A write of DDR.CTL.RETRAIN retrains all ports when no granule is owned. -/
  | ddrRetrain (m : Nat) (ds : List Dimm)
  /-- REFRESH (R452): A port issues a same-bank refresh. -/
  | refresh (n : Nat)
  /-- DIMM_TEMPERATURE_READ (R452): Every 32 ms a port reads refresh rate and DIMM temperature. -/
  | dimmTemperatureRead (n : Nat) (t : BitVec 8) (hot : Bool)
  /-- CA_PARITY_ALERT (R454): A CA parity or write CRC alert makes the port re-issue commands. -/
  | caParityAlert (n : Nat) (second : Bool) (words : List (DramAddr × BitVec 160))
  /-- START_UP (R466): Release of PORST_N runs the start-up sequence. -/
  | startUp (b : Boot)
  /-- DAMSON_INSTRUCTION (R457): The Damson core executes one instruction. -/
  | damsonInstruction (op : DamOp) (now : Nat)
  /-- DAMSON_LOAD_RESPONSE (R457): A response to an outstanding Damson load arrives. -/
  | damsonLoadResponse (fail : Bool)
  /-- DAMSON_BUS_TIMEOUT (R462): A Damson access unanswered for 64 µs raises a bus error. -/
  | damsonBusTimeout
  /-- DAMSON_DIVIDE_COMPLETE (R457): A Damson divide finishes and clears its scoreboard bit. -/
  | damsonDivideComplete
  /-- DAMSON_INTERRUPT (R463): A presented source with IE set enters the Damson interrupt handler. -/
  | damsonInterrupt (inTime : Bool)
  /-- WDOG_KICK (R489): A write of DEV.WDOG.KICK reloads or expires the watchdog. -/
  | wdogKick (m : Nat) (v : BitVec 8)
  /-- WDOG_EXPIRY (R489): The watchdog count expires, warning then resetting management. -/
  | wdogExpiry
  /-- STATUS (R480): I3C command returning DEV.ID, DEV.BOOTSTAT and the highest temperature. -/
  | status
  /-- SENSORS (R480): I3C command returning a sensor register. -/
  | sensors (i : BitVec 8)
  /-- IMG_ERASE (R480): I3C command erasing the slot that did not boot. -/
  | imgErase
  /-- IMG_WRITE (R480): I3C command programming the non-running slot. -/
  | imgWrite (off : BitVec 32) (data : List (BitVec 8))
  /-- IMG_ACTIVATE (R479): I3C command verifying the slot and writing TRIAL. -/
  | imgActivate
  /-- CONFIRM (R479): I3C command writing CONFIRMED for the running slot. -/
  | confirm
  /-- SVN_COMMIT (R479): I3C command burning MGMT_SVN up to the running image's SVN. -/
  | svnCommit
  /-- ATTEST (R491): I3C command generating and returning an attestation report. -/
  | attest (nonce : List (BitVec 8))
  /-- CERT (R480): I3C command returning the identity certificate. -/
  | cert
  /-- LOG_READ (R488): I3C command returning event-log entries from a SEQ. -/
  | logRead (seq : Word)
  /-- LC_REQUEST (R482): I3C command requesting a life-cycle transition with a token. -/
  | lcRequest (token : List (BitVec 8))
  /-- OPT_BURN (R472): I3C command burning a new generation of option words. -/
  | optBurn (req : List (BitVec 8))
  /-- FLASH_DONE (R487): An xSPI erase or program finishes and FLASH_DONE is raised. -/
  | flashDone
  /-- SENSOR_SAMPLE (R486): Each millisecond the sensor hub samples all sensors and sets alarms. -/
  | sensorSample (ts vs : List (BitVec 12))
  /-- THERMAL_RELEASE (R558): After 10 ms below WARN minus HYST the hold is released. -/
  | thermalRelease (now : Nat)
  /-- TAMPER_TRIP (R544): A tamper monitor trips, wiping the vault. -/
  | tamperTrip
  /-- UMX_SAMPLE (R496): Each of 8,000 samples per second adds power to the energy accumulators. -/
  | umxSample (i0 v0 i1 v1 : Int)
  /-- UMX_MILLISECOND (R510): Each millisecond the enclave copies accumulators and allocates energy to accounts. -/
  | umxMillisecond (act : List (Nat × Nat × Nat))
  /-- UMX_CHECKPOINT (R500): Every 60 s the enclave writes a flash checkpoint. -/
  | umxCheckpoint
  /-- USAGE_RECORD (R514): At the end of a billing interval the enclave writes a signed usage record. -/
  | usageRecord
  /-- TIMEBASE_CHECK (R498): Each second the enclave compares REFCLK cycles with XTAL32 time. -/
  | timebaseCheck (n : Nat)
  /-- SEAL_SAMPLE (R504): The seal input is sampled; four high samples count a break. -/
  | sealSample (open_ : Bool)
  /-- SET_INTERVAL (R513): UMX.REQ sets the billing interval from the next interval. -/
  | setInterval (m : Nat) (arg : BitVec 32)
  /-- UPDATE (R508): UMX.REQ starts a sealed update of the enclave firmware. -/
  | update (m : Nat) (arg : BitVec 32)
  /-- ENCLAVE_RESTART (R508): The enclave restarts its firmware on the new image. -/
  | enclaveRestart
  /-- DXW_RESYNC (R521): 64 cycles of DXW_DIO at 1 reset the packet logic. -/
  | dxwResync
  /-- WDATA_READ (R523): A read of WDATA launches an 8-byte debug read at WADDR. -/
  | wdataRead
  /-- WDATA_WRITE (R523): A write of WDATA performs an 8-byte debug write at WADDR. -/
  | wdataWrite (v : Word) (crc : Bool)
  /-- DEBUG_ACCESS_DONE (R523): A launched debug access completes or is abandoned after 64 µs. -/
  | debugAccessDone (late : Bool) (now : Nat)
  /-- WCHAL_READ (R522): Successive reads of WCHAL return successive challenge bytes. -/
  | wchalRead
  /-- WUNLOCK_WRITE (R522): A write of WUNLOCK appends 8 bytes to the unlock buffer. -/
  | wunlockWrite (v : Word) (crc : Bool)
  /-- CHALNEW (R527): A write of WCSR.CHALNEW draws a new challenge. -/
  | chalnew (v : Word) (crc : Bool)
  /-- UNLK_PW (R526): A write of WCSR.UNLK_PW starts a password check. -/
  | unlkPw (v : Word) (crc : Bool)
  /-- UNLK_TOK (R527): A write of WCSR.UNLK_TOK starts a token check. -/
  | unlkTok (v : Word) (crc : Bool)
  /-- UNLOCK_CHECK_DONE (R528): An unlock check finishes, setting OPEN or UNLK_FAIL and the lockout. -/
  | unlockCheckDone
  /-- EHALT (R530): A write of DBG.EHALT requests a halt of engines. -/
  | ehalt (m e : Nat)
  /-- ENGINE_HALT (R530): An engine reaches a halt point, drains and halts. -/
  | engineHalt (e : Nat)
  /-- ESTEP (R534): A write of DBG.ESTEP makes a halted engine issue one bundle. -/
  | estep (m e now : Nat)
  /-- ERESUME (R535): A write of DBG.ERESUME resumes a halted engine at ECS.DPC. -/
  | eresume (m e now : Nat)
  /-- DAMSON_HALT (R537): A write of DBG.DCTL.HALT halts the Damson core. -/
  | damsonHalt (m : Nat) (late : Bool)
  /-- DAMSON_RESUME (R537): A write of DBG.DCTL.RESUME resumes the Damson core at DBG.DPC. -/
  | damsonResume (m : Nat)
  /-- DAMSON_STEP (R537): A write of DBG.DCTL.STEP executes one Damson instruction. -/
  | damsonStep (m : Nat)
  /-- MDATA_ACCESS (R541): An access of DBG.MDATA makes a debug access at DBG.MADDR. -/
  | mdataAccess (m : Nat) (wr : Option Word) (now : Nat)
  /-- EXTEST (R540): TAP instruction driving boundary pins while PORST_N is asserted. -/
  | extest (pins n v : Nat)
  /-- SAMPLE_PRELOAD (R540): TAP instruction sampling or preloading the boundary register. -/
  | samplePreload (pins v : Nat)
  /-- IDCODE (R540): TAP instruction selecting the IDCODE register. -/
  | idcode
  /-- CLAMP (R540): TAP instruction clamping pins while PORST_N is asserted. -/
  | clamp (n v : Nat)
  /-- HIGHZ (R540): TAP instruction floating pins while PORST_N is asserted. -/
  | highz (n v : Nat)
  /-- BYPASS (R540): TAP instruction selecting the bypass register. -/
  | tapBypass (code : BitVec 4) (n v : Nat)
  /-- SLEEP_REQUEST (R550): A write of PWR.SLEEP.GO requests STANDBY or DORMANT or is refused. -/
  | sleepRequest (m : Nat) (v : Word)
  /-- SLEEP_COMMIT (R551): At the next XTAL32 edge the request is committed or aborted by a pending wake. -/
  | sleepCommit
  /-- WAKE_EVENT (R552): An enabled wake event ends STANDBY or DORMANT. -/
  | wakeEvent (kind i : Nat)
  /-- LINKWAKE (R553): A write of PWR.LINKWAKE sends WAKE flits or wake signalling. -/
  | linkwake (m : Nat) (v : BitVec 16)
  /-- ECLK_FREQ_WRITE (R555): A write of PWR.ECLK.FREQ relocks a group PLL or is refused. -/
  | eclkFreqWrite (m g : Nat) (v : BitVec 8)
  /-- BLOCK_REQ_WRITE (R556): A write of PWR.BLOCK.REQ requests a block power state. -/
  | blockReqWrite (m b : Nat) (v : BitVec 2)
  /-- BLOCK_TRANSITION_COMPLETE (R557): A block reaches its requested state and may raise PWR_STATE. -/
  | blockTransitionComplete (b : Nat)
  /-- DROOP_EVENT (R559): A droop event counts and stretches ECLK or sets RAISE. -/
  | droopEvent (b : Nat) (recent : Bool)
  /-- PORST_N_ASSERT (R573): PORST_N asserted for 10 µs resets the device to OFF. -/
  | porstNAssert
  /-- BROWN_OUT (R575): A rail below its limit for 2 µs acts as PORST_N and is recorded. -/
  | brownOut (rail : Nat)
  /-- AON_LOSS (R575): VDD_AON below 0.60 V loses the Elder domain state. -/
  | aonLoss
  /-- THERMTRIP (R576): A sensor above 115 °C for three samples stops the clocks and asserts THERMTRIP_N. -/
  | thermtrip
  /-- REGISTER_WRITE (R8): A write to a register with no behaviour of its own acts under its access code. -/
  | registerWrite (m a n : Nat) (v : Word) (now : Nat)
  /-- CONFLICT_COUNTER_WRAP (R249): A MEM.CONF conflict counter wraps from its maximum to zero, sets OVF and may raise MEM_PERF to the Damson core. -/
  | conflictCounterWrap (b m n : Nat)
  /-- VAULT_WIPE_COMPLETE (R262): A vault wipe finishes within 8,192 NCLK, MEM.VAULT.WIPING clears and waiting Damson accesses proceed. -/
  | vaultWipeComplete
  /-- ECLK_PLL_LOCK (R555): An ECLK group PLL relocks after a frequency change, LOCKED sets and the group's blocks receive their clock again. -/
  | eclkPllLock (g : Nat)
  /-- RAILS_IN_RANGE (R575): Every rail has been within range for 1 ms, so start-up begins after a brown-out, resumes after an early PORST_N release, or continues at a DORMANT exit. -/
  | railsInRange (b : Boot)
  /-- DORMANT_EXIT_TIMEOUT (R549): A rail not in range within 500 ms of a DORMANT exit stops start-up with ERR 7. -/
  | dormantExitTimeout
  /-- RING_PTR_WRITE (R358): A write of a ring PTR (STIMQ or CMDQ PROD, ILOG or CAP CONS) makes stimulus present or frees space, which can send READY or end a wait at a boundary. -/
  | ringPtrWrite (p q : Nat) (v : BitVec 32) (now : Nat)
  deriving DecidableEq, Repr

end Sys2Proof
end

