-- ==== Sys2Proof/WellFormed.lean ====
section
/-! DEFINITION. Which commands the block has: the units that they name exist, and their operands fit their fields. The meaning of
a command that is not well formed is a refusal (`noSuchUnit`). -/

namespace Sys2Proof

/-- Does the device have the unit: an engine, a partition, a Caluf port, a DMA channel, a host port or DDR port, a block, an
ECLK group, an interrupt source, a master's code (Damson core, debug port, four hosts)? -/
def isEngine (e : Nat) : Bool := e < 192
def isPart (p : Nat) : Bool := p < 8
def isCaluf (c : Nat) : Bool := c < 16
def isChan (k : Nat) : Bool := k < 32
def isPort4 (n : Nat) : Bool := n < 4
def isBlock (b : Nat) : Bool := b < 24
def isGroup (g : Nat) : Bool := g < 6
def isSrc (s : Nat) : Bool := 1 ≤ s && s ≤ 254
def isMaster (m : Nat) : Bool := m < 6

/-- Does the bank store have a bank at the device address (R253, spec/08)? -/
def isBankAddr (a : Nat) : Bool :=
  if a < 0x0C000000 then a % 0x100000 < 0x30000 || (0x40000 ≤ a % 0x100000 && a % 0x100000 < 0x80000)
  else if 0x0100000000 ≤ a && a < 0x0103000000 then (a - 0x0100000000) % 0x200000 < 0x180000
  else 0x0300800000 ≤ a && a < 0x0300A00000

/-- Does a device address lie in device registers or an ECS area (R232, R233, R237)? -/
def isRegSpace (a : Nat) : Bool :=
  (0x0200000000 ≤ a && a < 0x0201000000) || (0x0300A40000 ≤ a && a < 0x0300A41000) ||
    (0x0300A70000 ≤ a && a < 0x0300A71000) || (a < 0x0C000000 && 0xF0000 ≤ a % 0x100000)

/-- Is a wake event one of R552: HOST and PERST of a port, LINK of a Caluf port, GPIO 0–3, TIMER, ISC? -/
def isWake (kind i : Nat) : Bool :=
  (kind = 0 && i < 4) || (kind = 1 && i < 4) || (kind = 2 && i < 16) || (kind = 3 && i < 4) || (kind = 4 && i = 0) ||
    (kind = 5 && i = 0)

/-- Are a speed and width ones that a host port's link trains to (R371, R400)? -/
def isLinkUp (speed width : Nat) : Bool := speed ≤ 5 && [0, 1, 2, 4, 8].contains width

/-- Are the outcomes of a start-up complete: four DIMMs, four links, and a self-test result of R282? -/
def Boot.wf (b : Boot) : Bool :=
  b.dimms.length == 4 && b.links.length == 4 && b.links.all (fun x => isLinkUp x.1 x.2) &&
    (match b.selfTest with
      | some x => x.1 < 64 && x.2 < 237
      | none => true)

/-- The registers that a Damson operation names. -/
def DamOp.regs : DamOp → List Nat
  | .alu _ rd ra rb imm => if imm.isSome then [rd, ra] else [rd, ra, rb]
  | .mul _ rlo rhi ra rb => [rlo, rhi, ra, rb]
  | .div _ _ rd ra rb => [rd, ra, rb]
  | .load _ _ _ rd => [rd]
  | .store _ _ ra => [ra]
  | .lockLoad _ _ rd => [rd]
  | .lockStore _ _ ra rd => [ra, rd]
  | .getCtl _ rd => [rd]
  | .setCtl _ ra => [ra]
  | .branch _ _ _ | .syscall | .rfe | .icinv _ | .noFetch | .illegal => []

/-- Does a Damson operation name registers G0–G31, and an access of 1, 2 or 4 bytes in the device address space? -/
def DamOp.wf (op : DamOp) : Bool :=
  op.regs.all (fun r => r < 32) &&
    (match op with
      | .load a n _ _ | .store a n _ | .lockLoad a n _ | .lockStore a n _ _ => (n == 1 || n == 2 || n == 4) && a + n ≤ 2 ^ 40
      | _ => true)

/-- Does a monitor request come from a port, or over UART0 with a payload that LENGTH can give (R387, R538)? -/
def MonSrc.wf : MonSrc → Bool
  | .mailbox n => isPort4 n
  | .uart _ payload => payload.length ≤ 1016

/-- The size in bytes of a BAR, and of the configuration space (6). -/
def hostSpace (bar : Nat) : Nat :=
  if bar = 0 then 2 ^ 25 else if bar = 2 then 2 ^ 36 else if bar = 4 then 2 ^ 39 else if bar = 6 then 4096 else 0

/-- Is the command one that the block has? -/
def Instr.wf : Instr → Bool
  | .bundleIssue e => isEngine e
  | .perfCounterWrap e k n => isEngine e && k < 4 && n ≤ 8
  | .quinceResult e => isEngine e
  | .farLoadResult e _ _ => isEngine e
  | .farStorePerformed _ => true
  | .putVisible _ => true
  | .trapEntry e => isEngine e
  | .interruptEntry e _ => isEngine e
  | .rteReturn e => isEngine e
  | .engineRelease p _ _ => isPart p
  | .designCycleBoundary p _ => isPart p
  | .stimulusWrite p => isPart p
  | .report c _ _ => isCaluf c
  | .decide c _ _ => isCaluf c
  | .ready c _ _ => isCaluf c
  | .go c _ _ => isCaluf c
  | .barrier c _ _ => isCaluf c
  | .squareRelease c _ _ => isCaluf c
  | .early c _ _ => isCaluf c
  | .sqEnd c _ _ => isCaluf c
  | .halt c _ _ => isCaluf c
  | .decisionTimeout p => isPart p
  | .stepTimeout p _ => isPart p
  | .sqCtlGo p _ => isPart p
  | .sqCtlStop p => isPart p
  | .sqCtlHoldreq p _ _ => isPart p
  | .sqCtlClear p => isPart p
  | .sqCtlJreset p => isPart p
  | .sqCtlCapen p _ => isPart p
  | .sqCtlRunmode p _ => isPart p
  | .sqDcnWrite p _ => isPart p
  | .viewHoldRequest p _ => isPart p
  | .committedViewRead m p off len => isMaster m && isPart p && 1 ≤ len && len ≤ 4096 && off + len ≤ 2 ^ 32
  | .committedViewWrite m p off len _ => isMaster m && isPart p && 1 ≤ len && len ≤ 4096 && off + len ≤ 2 ^ 32
  | .linkCtlEn c _ => isCaluf c
  | .linkCtlRetrain c => isCaluf c
  | .linkLatWrite c _ => isCaluf c
  | .elecDone c => isCaluf c
  | .elecTimeout c => isCaluf c
  | .alignLock c _ _ => isCaluf c
  | .alignFail c => isCaluf c
  | .train c _ _ => isCaluf c
  | .timesync c _ _ => isCaluf c
  | .timesyncEcho c _ _ _ => isCaluf c
  | .latprobe c _ _ => isCaluf c
  | .pinComplete c _ => isCaluf c
  | .latprobeSend c _ => isCaluf c
  | .tblsync c _ _ => isCaluf c
  | .frameFlit c _ _ => isCaluf c
  | .scheduledFlit c _ _ => isCaluf c
  | .flitRelease c _ => isCaluf c
  | .linkRead c _ => isCaluf c
  | .idleFlit c _ _ => isCaluf c
  | .bgHdr c _ _ _ => isCaluf c
  | .ackFlit c _ _ => isCaluf c
  | .credit c _ _ => isCaluf c
  | .wake c _ _ => isCaluf c
  | .down c _ _ => isCaluf c
  | .lossOfSignal c => isCaluf c
  | .lossOfFrameLock c => isCaluf c
  | .ebOverflow c => isCaluf c
  | .memOwnerWrite master isD i _ => master < 7 && i < (if isD then 2048 else 48)
  | .wipeComplete isD i => i < (if isD then 2048 else 48)
  | .memBstateWrite cb b r _ => cb || (isBlock b && r < 9)
  | .bankTransitionComplete a => isBankAddr a
  | .repairWriteback a => a < 2 ^ 40
  | .poisonRewrite a => a < 2 ^ 40
  | .scrubWord _ => true
  | .scrubPassOverrun _ => true
  | .testerChunk fails bad _ => !fails || (bad.word < 64 && bad.sym < 20 && bad.elem < 6)
  | .scrubInject master _ => isMaster master
  | .ddrSweep _ => true
  | .hostMemoryRead n bar o len => isPort4 n && 1 ≤ len && len ≤ 4096 && o + len ≤ hostSpace bar
  | .hostMemoryWrite n bar o data _ _ => isPort4 n && 1 ≤ data.length && data.length ≤ 512 && o + data.length ≤ hostSpace bar
  | .completerAbort n _ => isPort4 n
  | .functionLevelReset n => isPort4 n
  | .perstN n _ speed width => isPort4 n && isLinkUp speed width
  | .featAcceptWrite m n _ => isMaster m && isPort4 n
  | .doorbell n _ => isPort4 n
  | .query n => isPort4 n
  | .create n => isPort4 n
  | .destroy n => isPort4 n
  | .ddrAdd n => isPort4 n
  | .ddrRelease n => isPort4 n
  | .declare n => isPort4 n
  | .monStatus src => src.wf
  | .monHalt src => src.wf
  | .monResume src _ => src.wf
  | .monStep src _ => src.wf
  | .monRdreg src => src.wf
  | .monWrreg src => src.wf
  | .monRdmem src => src.wf
  | .monWrmem src _ => src.wf
  | .dmaStart master k => isMaster master && isChan k
  | .dmaDisable k => isChan k
  | .dmaCtlDisable _ => true
  | .descriptorFetch k _ _ => isChan k
  | .dmaReadResponse k _ _ => isChan k
  | .dmaWriteResponse k _ => isChan k
  | .descriptorComplete k _ => isChan k
  | .dmaTimeout x => isChan x.k
  | .dmaQuiesce k => isChan k
  | .iscMessage => true
  | .iscClaim t src => t < 193 || (t < 197 && isSrc src)
  | .iscComplete t src => t < 197 && src < 256
  | .iscEoi t => t < 193
  | .coalescingTimer src => isSrc src
  | .iscScfgWrite m src _ => isMaster m && isSrc src
  | .iscSmaskWrite m src i _ => isMaster m && isSrc src && i < 4
  | .iscCtlWrite m _ => isMaster m
  | .iscSraise m db src _ => isMaster m && (if db then src < 256 else isSrc src)
  | .ddrRetrain m ds => isMaster m && ds.length == 4
  | .refresh n => isPort4 n
  | .dimmTemperatureRead n _ _ => isPort4 n
  | .caParityAlert n _ _ => isPort4 n
  | .startUp b => b.wf
  | .damsonInstruction op _ => op.wf
  | .damsonLoadResponse _ => true
  | .damsonBusTimeout => true
  | .damsonDivideComplete => true
  | .damsonInterrupt _ => true
  | .wdogKick m _ => isMaster m
  | .wdogExpiry => true
  | .status => true
  | .sensors _ => true
  | .imgErase => true
  | .imgWrite _ _ => true
  | .imgActivate => true
  | .confirm => true
  | .svnCommit => true
  | .attest _ => true
  | .cert => true
  | .logRead _ => true
  | .lcRequest _ => true
  | .optBurn _ => true
  | .flashDone => true
  | .sensorSample ts vs => ts.length == 56 && vs.length == 32
  | .thermalRelease _ => true
  | .tamperTrip => true
  | .umxSample _ _ _ _ => true
  | .umxMillisecond act => act.length == 24
  | .umxCheckpoint => true
  | .usageRecord => true
  | .timebaseCheck _ => true
  | .sealSample _ => true
  | .setInterval m _ => isMaster m
  | .update m _ => isMaster m
  | .enclaveRestart => true
  | .dxwResync => true
  | .wdataRead => true
  | .wdataWrite _ _ => true
  | .debugAccessDone _ _ => true
  | .wchalRead => true
  | .wunlockWrite _ _ => true
  | .chalnew _ _ => true
  | .unlkPw _ _ => true
  | .unlkTok _ _ => true
  | .unlockCheckDone => true
  | .ehalt m e => isMaster m && isEngine e
  | .engineHalt e => isEngine e
  | .estep m e _ => isMaster m && isEngine e
  | .eresume m e _ => isMaster m && isEngine e
  | .damsonHalt m _ => isMaster m
  | .damsonResume m => isMaster m
  | .damsonStep m => isMaster m
  | .mdataAccess m _ _ => isMaster m
  | .extest _ _ _ => true
  | .samplePreload _ _ => true
  | .idcode => true
  | .clamp _ _ => true
  | .highz _ _ => true
  | .tapBypass code _ _ => 5 ≤ code.toNat
  | .sleepRequest m _ => isMaster m
  | .sleepCommit => true
  | .wakeEvent kind i => isWake kind i
  | .linkwake m _ => isMaster m
  | .eclkFreqWrite m g _ => isMaster m && isGroup g
  | .blockReqWrite m b _ => isMaster m && isBlock b
  | .blockTransitionComplete b => isBlock b
  | .droopEvent b _ => isBlock b
  | .porstNAssert => true
  | .brownOut rail => rail < 6
  | .aonLoss => true
  | .thermtrip => true
  | .registerWrite m a n _ _ => if m = 7 || m = 8 then a < 16 else isMaster m && isRegSpace a && 1 ≤ n && n ≤ 8
  | .conflictCounterWrap b m _ => isBlock b && m < 6
  | .vaultWipeComplete => true
  | .eclkPllLock g => isGroup g
  | .railsInRange b => b.wf
  | .dormantExitTimeout => true
  | .ringPtrWrite p q _ _ => isPart p && q < 4

end Sys2Proof
end

