-- ==== Sys2Proof/Config.lean ====
section
/-! DEFINITION. What the spec leaves open. Each constant here has no body: a claim holds whatever its value is. -/

namespace Sys2Proof

/-- The n-th free value drawn (log 2): the value of a result the spec calls undefined or does not give. The counter
`fresh` of State says which draw is next. Truncated to the width it fills. -/
opaque Config.freeNat : Nat → Nat

/-- Random bits of the device's entropy source (keys, challenges, nonces), by draw (log 2). -/
opaque Config.entropy : Nat → Nat

/-- Does the byte string carry both valid signatures of the key named (Ed25519 and ML-DSA-65, spec/16)? -/
opaque Config.sigValid : Nat → List Nat → Bool

/-- The two signatures (Ed25519, then ML-DSA-65) that the key named puts on a byte string. -/
opaque Config.sign : Nat → List Nat → List Nat

/-- A key derived from a root secret and a label (HKDF, spec/16). -/
opaque Config.derive : Nat → Nat → Nat

/-- The result of a Damson ALU operation that the spec names but does not define (spec/16): function number and
operands. -/
opaque Config.damsonAlu : Nat → Nat → Nat → Nat

/-- What a field of the trim words holds (R469): field 0 the Vendor ID, 1 the VDD_CORE setpoint; the spec does not give their
places in the 16 trim words. -/
opaque Config.trim : Nat → List Nat → Nat

/-- A torus coordinate (0 to 3: w, x, y, z) that a configuration section sets (R5, R474); the spec gives the section no layout. -/
opaque Config.coord : Nat → List Nat → Nat

/-- The timebase parent port that a configuration section sets, modulo 64; a value above 31 sets none (R466). -/
opaque Config.parent : List Nat → Nat

/-- Is the address a key port of the hash and signature engine (R460, log 78)? -/
opaque Config.keyPort : Nat → Bool

end Sys2Proof
end

