-- ==== Sys2Proof/Machine/Store.lean ====
section
/-! DEFINITION. Sparse data by key: a list of (key, value) pairs in one canonical form, keys strictly rising and no
entry equal to what an unlisted key reads as. Memory, registers and the parts of the block are held this way. -/

namespace Sys2Proof.Machine

/-- Values by natural-number key. What an unlisted key reads as is given to each operation. -/
abbrev Store (α : Type) := List (Nat × α)

/-- The value at a key. -/
def Store.get {α : Type} (d : α) : Store α → Nat → α
  | [], _ => d
  | (k, v) :: t, i => if i = k then v else Store.get d t i

/-- Put a value at a key, keys kept rising. -/
def Store.put {α : Type} : Store α → Nat → α → Store α
  | [], i, v => [(i, v)]
  | (k, u) :: t, i, v =>
    if i < k then (i, v) :: (k, u) :: t
    else if i = k then (k, v) :: t
    else (k, u) :: Store.put t i v

/-- Remove a key. -/
def Store.del {α : Type} (s : Store α) (i : Nat) : Store α := s.filter (fun c => c.1 ≠ i)

/-- Write a value at a key: writing the value an unlisted key reads as removes the entry. -/
def Store.set {α : Type} [DecidableEq α] (d : α) (s : Store α) (i : Nat) (v : α) : Store α :=
  if v = d then s.del i else s.put i v

/-- Change the value at a key. -/
def Store.upd {α : Type} [DecidableEq α] (d : α) (s : Store α) (i : Nat) (f : α → α) : Store α :=
  Store.set d s i (f (Store.get d s i))

/-- Remove every key in [lo, hi). -/
def Store.clear {α : Type} (s : Store α) (lo hi : Nat) : Store α :=
  s.filter (fun c => c.1 < lo || hi ≤ c.1)

/-- The canonical form for the default function `d`: keys strictly rising, no entry equal to its default. -/
def Store.wf {α : Type} [DecidableEq α] (d : Nat → α) : Store α → Bool
  | [] => true
  | [(k, v)] => v ≠ d k
  | (k, v) :: (k', v') :: t => v ≠ d k && k < k' && Store.wf d ((k', v') :: t)

end Sys2Proof.Machine
end

