-- ==== Sys2Proof/Machine/Regs.lean ====
section
/-! DEFINITION. The device registers and the engine control and status (ECS) registers: one name per register and
per field, as the field tables of the spec give them, with the access masks (R8) and the reset values. -/

namespace Sys2Proof.Machine

/-- A field of a register: the register's device address (or ECS index), its low bit and its width. -/
structure Fld where
  addr : Nat
  lo   : Nat
  w    : Nat
  deriving DecidableEq, Repr

/-- A family of registers of one layout, laid out in up to two dimensions: which bits software sets (`rw`), clears by
writing 1 (`w1c`), sets until a lock (`lock`) or sets once (`once`), and the reset value (R8). All other bits ignore
writes. -/
structure RegFam where
  base : Nat
  c1 : Nat
  s1 : Nat
  c2 : Nat
  s2 : Nat
  rw : Nat
  w1c : Nat
  lock : Nat
  once : Nat
  reset : Nat
  deriving DecidableEq, Repr

/-- Does the family hold a register at device address `a`? -/
def RegFam.hits (r : RegFam) (a : Nat) : Bool :=
  r.base ≤ a && (a - r.base) / r.s1 < r.c1 && ((a - r.base) % r.s1) / r.s2 < r.c2 &&
    ((a - r.base) % r.s1) % r.s2 == 0

namespace Reg

/-- MEM.OWNERu, MEM.DOWNERg (R266, spec/08). -/
def MEM_OWNER (u : Nat) : Nat := 0x200030100 + 0x8 * u
def MEM_OWNER_OWN (u : Nat) : Fld := ⟨MEM_OWNER u, 0, 4⟩
/-- MEM.OWNERu, MEM.DOWNERg (R266, spec/08). -/
def MEM_DOWNER (g : Nat) : Nat := 0x200034000 + 0x8 * g
def MEM_DOWNER_OWN (g : Nat) : Fld := ⟨MEM_DOWNER g, 0, 4⟩
/-- MEM.OWNSTAT (R266, spec/08). -/
def MEM_OWNSTAT : Nat := 0x200030300
def MEM_OWNSTAT_OWNERR : Fld := ⟨MEM_OWNSTAT, 0, 1⟩
def MEM_OWNSTAT_WIPING : Fld := ⟨MEM_OWNSTAT, 1, 1⟩
/-- MEM.ERRLOG (R266, spec/08). -/
def MEM_ERRLOG : Nat := 0x200030308
def MEM_ERRLOG_ADDR : Fld := ⟨MEM_ERRLOG, 0, 40⟩
def MEM_ERRLOG_KIND : Fld := ⟨MEM_ERRLOG, 40, 2⟩
def MEM_ERRLOG_MASTER : Fld := ⟨MEM_ERRLOG, 42, 4⟩
def MEM_ERRLOG_BARSP : Fld := ⟨MEM_ERRLOG, 46, 2⟩
def MEM_ERRLOG_VALID : Fld := ⟨MEM_ERRLOG, 63, 1⟩
/-- MEM.MAINT_BUSY (R266, spec/08). -/
def MEM_MAINT_BUSY : Nat := 0x200030320
def MEM_MAINT_BUSY_SCRUB : Fld := ⟨MEM_MAINT_BUSY, 0, 1⟩
def MEM_MAINT_BUSY_TEST : Fld := ⟨MEM_MAINT_BUSY, 1, 1⟩
/-- MEM.VAULT (R266, spec/08). -/
def MEM_VAULT : Nat := 0x200030330
def MEM_VAULT_WIPING : Fld := ⟨MEM_VAULT, 0, 1⟩
def MEM_VAULT_CAUSE : Fld := ⟨MEM_VAULT, 1, 2⟩
def MEM_VAULT_WIPES : Fld := ⟨MEM_VAULT, 16, 16⟩
/-- MEM.CBSTATE (R266, spec/08). -/
def MEM_CBSTATE : Nat := 0x200030338
def MEM_CBSTATE_CB (c : Nat) : Fld := ⟨MEM_CBSTATE, 2 * c, 2⟩
/-- MEM.BSTATE(b, 0) (R266, spec/08). -/
def MEM_BSTATE0 (b : Nat) : Nat := 0x200030800 + 0x80 * b
def MEM_BSTATE0_BM (b : Nat) (k : Nat) : Fld := ⟨MEM_BSTATE0 b, 2 * k, 2⟩
/-- MEM.BSTATE(b, r), r = 1–8 (R266, spec/08). -/
def MEM_BSTATE (b : Nat) (j : Nat) : Nat := 0x200030808 + 0x80 * b + 0x8 * j
def MEM_BSTATE_DM (b : Nat) (j : Nat) (k : Nat) : Fld := ⟨MEM_BSTATE b j, 2 * k, 2⟩
def MEM_BSTATE_PM (b : Nat) (j : Nat) : Fld := ⟨MEM_BSTATE b j, 32, 2⟩
def MEM_BSTATE_IM (b : Nat) (j : Nat) : Fld := ⟨MEM_BSTATE b j, 34, 6⟩
/-- MEM.CONF(b, m) (R266, spec/08). -/
def MEM_CONF (b : Nat) (m : Nat) : Nat := 0x200031800 + 0x40 * b + 0x8 * m
def MEM_CONF_COUNT (b : Nat) (m : Nat) : Fld := ⟨MEM_CONF b m, 0, 48⟩
/-- MEM.CONFCTL(b) (R266, spec/08). -/
def MEM_CONFCTL (b : Nat) : Nat := 0x200031830 + 0x40 * b
def MEM_CONFCTL_EN (b : Nat) : Fld := ⟨MEM_CONFCTL b, 0, 6⟩
def MEM_CONFCTL_OVF (b : Nat) : Fld := ⟨MEM_CONFCTL b, 8, 6⟩
def MEM_CONFCTL_OVFIRQ (b : Nat) : Fld := ⟨MEM_CONFCTL b, 16, 6⟩
/-- DDR.SWEEP (R286, spec/09). -/
def DDR_SWEEP : Nat := 0x200300100
def DDR_SWEEP_WM : Fld := ⟨DDR_SWEEP, 4, 36⟩
def DDR_SWEEP_DONE : Fld := ⟨DDR_SWEEP, 63, 1⟩
/-- SCRUB.CTL (R295, spec/09). -/
def SCRUB_CTL : Nat := 0x200040000
def SCRUB_CTL_SRAM_EN : Fld := ⟨SCRUB_CTL, 0, 1⟩
def SCRUB_CTL_DDR_EN : Fld := ⟨SCRUB_CTL, 1, 1⟩
/-- SCRUB.PERIOD (R295, spec/09). -/
def SCRUB_PERIOD : Nat := 0x200040008
def SCRUB_PERIOD_SRAM : Fld := ⟨SCRUB_PERIOD, 0, 18⟩
def SCRUB_PERIOD_DDR : Fld := ⟨SCRUB_PERIOD, 32, 18⟩
/-- SCRUB.STAT (R295, spec/09). -/
def SCRUB_STAT : Nat := 0x200040010
def SCRUB_STAT_SRAM_LAG : Fld := ⟨SCRUB_STAT, 0, 1⟩
def SCRUB_STAT_DDR_LAG : Fld := ⟨SCRUB_STAT, 1, 1⟩
def SCRUB_STAT_SRAM_PASSES : Fld := ⟨SCRUB_STAT, 16, 16⟩
def SCRUB_STAT_DDR_PASSES : Fld := ⟨SCRUB_STAT, 32, 16⟩
/-- SCRUB.POS_SRAM, SCRUB.POS_DDR (R295, spec/09). -/
def SCRUB_POS_SRAM : Nat := 0x200040018
def SCRUB_POS_SRAM_ADDR : Fld := ⟨SCRUB_POS_SRAM, 0, 40⟩
/-- SCRUB.POS_SRAM, SCRUB.POS_DDR (R295, spec/09). -/
def SCRUB_POS_DDR : Nat := 0x200040020
def SCRUB_POS_DDR_ADDR : Fld := ⟨SCRUB_POS_DDR, 0, 40⟩
/-- SCRUB.ERRCNT (R295, spec/09). -/
def SCRUB_ERRCNT : Nat := 0x200040028
def SCRUB_ERRCNT_SRAM_CE : Fld := ⟨SCRUB_ERRCNT, 0, 16⟩
def SCRUB_ERRCNT_SRAM_UE : Fld := ⟨SCRUB_ERRCNT, 16, 16⟩
def SCRUB_ERRCNT_DDR_CE : Fld := ⟨SCRUB_ERRCNT, 32, 16⟩
def SCRUB_ERRCNT_DDR_UE : Fld := ⟨SCRUB_ERRCNT, 48, 16⟩
/-- SCRUB.CE_LOG (R295, spec/09). -/
def SCRUB_CE_LOG : Nat := 0x200040030
def SCRUB_CE_LOG_ADDR : Fld := ⟨SCRUB_CE_LOG, 0, 40⟩
def SCRUB_CE_LOG_SYM : Fld := ⟨SCRUB_CE_LOG, 40, 5⟩
def SCRUB_CE_LOG_SOURCE : Fld := ⟨SCRUB_CE_LOG, 45, 4⟩
def SCRUB_CE_LOG_VALID : Fld := ⟨SCRUB_CE_LOG, 63, 1⟩
/-- SCRUB.UE_LOG (R295, spec/09). -/
def SCRUB_UE_LOG : Nat := 0x200040038
def SCRUB_UE_LOG_ADDR : Fld := ⟨SCRUB_UE_LOG, 0, 40⟩
def SCRUB_UE_LOG_SOURCE : Fld := ⟨SCRUB_UE_LOG, 40, 4⟩
def SCRUB_UE_LOG_DSTATE : Fld := ⟨SCRUB_UE_LOG, 44, 1⟩
def SCRUB_UE_LOG_PARTIAL : Fld := ⟨SCRUB_UE_LOG, 45, 1⟩
def SCRUB_UE_LOG_VALID : Fld := ⟨SCRUB_UE_LOG, 63, 1⟩
/-- SCRUB.UE_DCN (R295, spec/09). -/
def SCRUB_UE_DCN : Nat := 0x200040040
def SCRUB_UE_DCN_DCN : Fld := ⟨SCRUB_UE_DCN, 0, 64⟩
/-- SCRUB.SYND (R295, spec/09). -/
def SCRUB_SYND : Nat := 0x200040048
def SCRUB_SYND_S : Fld := ⟨SCRUB_SYND, 0, 32⟩
/-- SCRUB.SELFTEST (R295, spec/09). -/
def SCRUB_SELFTEST : Nat := 0x200040050
def SCRUB_SELFTEST_DONE : Fld := ⟨SCRUB_SELFTEST, 0, 1⟩
def SCRUB_SELFTEST_FAIL : Fld := ⟨SCRUB_SELFTEST, 1, 1⟩
def SCRUB_SELFTEST_PATTERN : Fld := ⟨SCRUB_SELFTEST, 8, 6⟩
def SCRUB_SELFTEST_CHECKER : Fld := ⟨SCRUB_SELFTEST, 16, 10⟩
/-- SCRUB.INJECT (R295, spec/09). -/
def SCRUB_INJECT : Nat := 0x200040058
def SCRUB_INJECT_ADDR : Fld := ⟨SCRUB_INJECT, 0, 40⟩
def SCRUB_INJECT_SYM : Fld := ⟨SCRUB_INJECT, 40, 5⟩
def SCRUB_INJECT_KIND : Fld := ⟨SCRUB_INJECT, 45, 2⟩
def SCRUB_INJECT_MASK : Fld := ⟨SCRUB_INJECT, 48, 8⟩
def SCRUB_INJECT_GO : Fld := ⟨SCRUB_INJECT, 63, 1⟩
/-- TEST.CTL (R296, spec/09). -/
def TEST_CTL : Nat := 0x200050000
def TEST_CTL_EN : Fld := ⟨TEST_CTL, 0, 1⟩
def TEST_CTL_GAP : Fld := ⟨TEST_CTL, 16, 16⟩
/-- TEST.STAT (R296, spec/09). -/
def TEST_STAT : Nat := 0x200050008
def TEST_STAT_ACTIVE : Fld := ⟨TEST_STAT, 0, 1⟩
def TEST_STAT_FAIL : Fld := ⟨TEST_STAT, 1, 1⟩
def TEST_STAT_ABORTS : Fld := ⟨TEST_STAT, 16, 16⟩
def TEST_STAT_PASSES : Fld := ⟨TEST_STAT, 32, 16⟩
/-- TEST.POS (R296, spec/09). -/
def TEST_POS : Nat := 0x200050010
def TEST_POS_ADDR : Fld := ⟨TEST_POS, 0, 40⟩
/-- TEST.FAIL_LOG (R296, spec/09). -/
def TEST_FAIL_LOG : Nat := 0x200050018
def TEST_FAIL_LOG_ADDR : Fld := ⟨TEST_FAIL_LOG, 0, 40⟩
def TEST_FAIL_LOG_SYM : Fld := ⟨TEST_FAIL_LOG, 40, 5⟩
def TEST_FAIL_LOG_ELEM : Fld := ⟨TEST_FAIL_LOG, 45, 3⟩
def TEST_FAIL_LOG_VALID : Fld := ⟨TEST_FAIL_LOG, 63, 1⟩
/-- TEST.ELIG(b, 0) (R296, spec/09). -/
def TEST_ELIG0 (b : Nat) : Nat := 0x200050800 + 0x80 * b
def TEST_ELIG0_BM (b : Nat) : Fld := ⟨TEST_ELIG0 b, 0, 12⟩
/-- TEST.ELIG(b, r), r = 1–8 (R296, spec/09). -/
def TEST_ELIG (b : Nat) (j : Nat) : Nat := 0x200050808 + 0x80 * b + 0x8 * j
def TEST_ELIG_DM (b : Nat) (j : Nat) : Fld := ⟨TEST_ELIG b j, 0, 16⟩
def TEST_ELIG_PM (b : Nat) (j : Nat) : Fld := ⟨TEST_ELIG b j, 16, 1⟩
def TEST_ELIG_IM (b : Nat) (j : Nat) : Fld := ⟨TEST_ELIG b j, 17, 3⟩
/-- LINK.CTL (R335, spec/10). -/
def LINK_CTL (p : Nat) : Nat := 0x200100000 + 0x1000 * p
def LINK_CTL_EN (p : Nat) : Fld := ⟨LINK_CTL p, 0, 1⟩
def LINK_CTL_RETRAIN (p : Nat) : Fld := ⟨LINK_CTL p, 1, 1⟩
def LINK_CTL_FEC (p : Nat) : Fld := ⟨LINK_CTL p, 2, 1⟩
def LINK_CTL_WAKEEN (p : Nat) : Fld := ⟨LINK_CTL p, 3, 1⟩
def LINK_CTL_MARGIN (p : Nat) : Fld := ⟨LINK_CTL p, 8, 8⟩
/-- LINK.STAT (R335, spec/10). -/
def LINK_STAT (p : Nat) : Nat := 0x200100008 + 0x1000 * p
def LINK_STAT_STATE (p : Nat) : Fld := ⟨LINK_STAT p, 0, 4⟩
def LINK_STAT_CAUSE (p : Nat) : Fld := ⟨LINK_STAT p, 4, 4⟩
def LINK_STAT_TBLERR (p : Nat) : Fld := ⟨LINK_STAT p, 8, 1⟩
def LINK_STAT_LATE (p : Nat) : Fld := ⟨LINK_STAT p, 9, 1⟩
def LINK_STAT_LATWARN (p : Nat) : Fld := ⟨LINK_STAT p, 10, 1⟩
def LINK_STAT_TBLWR (p : Nat) : Fld := ⟨LINK_STAT p, 11, 1⟩
def LINK_STAT_LREV (p : Nat) : Fld := ⟨LINK_STAT p, 12, 1⟩
def LINK_STAT_LPOL (p : Nat) : Fld := ⟨LINK_STAT p, 13, 4⟩
/-- LINK.LAT (R335, spec/10). -/
def LINK_LAT (p : Nat) : Nat := 0x200100010 + 0x1000 * p
def LINK_LAT_LAT (p : Nat) : Fld := ⟨LINK_LAT p, 0, 12⟩
/-- LINK.MEAS (R335, spec/10). -/
def LINK_MEAS (p : Nat) : Nat := 0x200100018 + 0x1000 * p
def LINK_MEAS_MEAS (p : Nat) : Fld := ⟨LINK_MEAS p, 0, 16⟩
def LINK_MEAS_MAX (p : Nat) : Fld := ⟨LINK_MEAS p, 16, 16⟩
/-- LINK.PEER (R335, spec/10). -/
def LINK_PEER (p : Nat) : Nat := 0x200100020 + 0x1000 * p
def LINK_PEER_DID (p : Nat) : Fld := ⟨LINK_PEER p, 0, 14⟩
def LINK_PEER_PORT (p : Nat) : Fld := ⟨LINK_PEER p, 14, 4⟩
def LINK_PEER_FEC (p : Nat) : Fld := ⟨LINK_PEER p, 18, 1⟩
def LINK_PEER_LAT (p : Nat) : Fld := ⟨LINK_PEER p, 32, 12⟩
def LINK_PEER_VALID (p : Nat) : Fld := ⟨LINK_PEER p, 63, 1⟩
/-- LINK.EXPECT (R335, spec/10). -/
def LINK_EXPECT (p : Nat) : Nat := 0x200100028 + 0x1000 * p
def LINK_EXPECT_DID (p : Nat) : Fld := ⟨LINK_EXPECT p, 0, 14⟩
def LINK_EXPECT_PORT (p : Nat) : Fld := ⟨LINK_EXPECT p, 14, 4⟩
def LINK_EXPECT_CHECK (p : Nat) : Fld := ⟨LINK_EXPECT p, 63, 1⟩
/-- LINK.TBL (R335, spec/10). -/
def LINK_TBL (p : Nat) : Nat := 0x200100030 + 0x1000 * p
def LINK_TBL_TXCNT (p : Nat) : Fld := ⟨LINK_TBL p, 0, 13⟩
def LINK_TBL_RXCNT (p : Nat) : Fld := ⟨LINK_TBL p, 16, 13⟩
/-- LINK.ERRCNT (R335, spec/10). -/
def LINK_ERRCNT (p : Nat) : Nat := 0x200100038 + 0x1000 * p
def LINK_ERRCNT_CE (p : Nat) : Fld := ⟨LINK_ERRCNT p, 0, 16⟩
def LINK_ERRCNT_UE (p : Nat) : Fld := ⟨LINK_ERRCNT p, 16, 16⟩
def LINK_ERRCNT_REPLAY (p : Nat) : Fld := ⟨LINK_ERRCNT p, 32, 16⟩
def LINK_ERRCNT_LATE (p : Nat) : Fld := ⟨LINK_ERRCNT p, 48, 16⟩
/-- LINK.TB (R335, spec/10). -/
def LINK_TB : Nat := 0x200110000
def LINK_TB_COUNT : Fld := ⟨LINK_TB, 0, 64⟩
/-- LINK.TBCTL (R335, spec/10). -/
def LINK_TBCTL : Nat := 0x200110008
def LINK_TBCTL_PARENT : Fld := ⟨LINK_TBCTL, 0, 5⟩
def LINK_TBCTL_VALID : Fld := ⟨LINK_TBCTL, 5, 1⟩
def LINK_TBCTL_HOLDOVER : Fld := ⟨LINK_TBCTL, 6, 1⟩
/-- LINK.BVIOL (R335, spec/10). -/
def LINK_BVIOL : Nat := 0x200110010
def LINK_BVIOL_ROUTER : Fld := ⟨LINK_BVIOL, 0, 5⟩
def LINK_BVIOL_INPUT : Fld := ⟨LINK_BVIOL, 5, 3⟩
def LINK_BVIOL_COUNT : Fld := ⟨LINK_BVIOL, 16, 16⟩
def LINK_BVIOL_VALID : Fld := ⟨LINK_BVIOL, 63, 1⟩
/-- SQ.CTL (R370, spec/11). -/
def SQ_CTL (p : Nat) : Nat := 0x200400000 + 0x1000 * p
def SQ_CTL_RUNMODE (p : Nat) : Fld := ⟨SQ_CTL p, 0, 1⟩
def SQ_CTL_GO (p : Nat) : Fld := ⟨SQ_CTL p, 1, 1⟩
def SQ_CTL_STOP (p : Nat) : Fld := ⟨SQ_CTL p, 2, 1⟩
def SQ_CTL_HOLDREQ (p : Nat) : Fld := ⟨SQ_CTL p, 3, 1⟩
def SQ_CTL_CLEAR (p : Nat) : Fld := ⟨SQ_CTL p, 4, 1⟩
def SQ_CTL_JRESET (p : Nat) : Fld := ⟨SQ_CTL p, 5, 1⟩
def SQ_CTL_CAPEN (p : Nat) : Fld := ⟨SQ_CTL p, 6, 1⟩
/-- SQ.STAT (R370, spec/11). -/
def SQ_STAT (p : Nat) : Nat := 0x200400008 + 0x1000 * p
def SQ_STAT_STATE (p : Nat) : Fld := ⟨SQ_STAT p, 0, 3⟩
def SQ_STAT_WAITING (p : Nat) : Fld := ⟨SQ_STAT p, 3, 1⟩
def SQ_STAT_HALTCAUSE (p : Nat) : Fld := ⟨SQ_STAT p, 4, 4⟩
def SQ_STAT_FAILCAUSE (p : Nat) : Fld := ⟨SQ_STAT p, 8, 4⟩
def SQ_STAT_RETRY (p : Nat) : Fld := ⟨SQ_STAT p, 12, 4⟩
def SQ_STAT_PRIORV (p : Nat) : Fld := ⟨SQ_STAT p, 16, 1⟩
def SQ_STAT_QERR (p : Nat) : Fld := ⟨SQ_STAT p, 17, 1⟩
def SQ_STAT_ROLLBACKS (p : Nat) : Fld := ⟨SQ_STAT p, 18, 16⟩
/-- SQ.INTERVAL (R370, spec/11). -/
def SQ_INTERVAL (p : Nat) : Nat := 0x200400010 + 0x1000 * p
def SQ_INTERVAL_LEN (p : Nat) : Fld := ⟨SQ_INTERVAL p, 0, 16⟩
def SQ_INTERVAL_EARLY (p : Nat) : Fld := ⟨SQ_INTERVAL p, 16, 16⟩
/-- SQ.DCN (R370, spec/11). -/
def SQ_DCN (p : Nat) : Nat := 0x200400018 + 0x1000 * p
def SQ_DCN_DCN (p : Nat) : Fld := ⟨SQ_DCN p, 0, 64⟩
/-- SQ.CDCN (R370, spec/11). -/
def SQ_CDCN (p : Nat) : Nat := 0x200400020 + 0x1000 * p
def SQ_CDCN_DCN (p : Nat) : Fld := ⟨SQ_CDCN p, 0, 64⟩
/-- SQ.PRIOR (R370, spec/11). -/
def SQ_PRIOR (p : Nat) : Nat := 0x200400028 + 0x1000 * p
def SQ_PRIOR_DCN (p : Nat) : Fld := ⟨SQ_PRIOR p, 0, 64⟩
/-- SQ.VIEW_HOLD (R370, spec/11). -/
def SQ_VIEW_HOLD (p : Nat) : Nat := 0x200400030 + 0x1000 * p
def SQ_VIEW_HOLD_DCN (p : Nat) : Fld := ⟨SQ_VIEW_HOLD p, 0, 64⟩
/-- SQ.VIEW_CTL (R370, spec/11). -/
def SQ_VIEW_CTL (p : Nat) : Nat := 0x200400038 + 0x1000 * p
def SQ_VIEW_CTL_REQ (p : Nat) : Fld := ⟨SQ_VIEW_CTL p, 0, 1⟩
def SQ_VIEW_CTL_GRANTED (p : Nat) : Fld := ⟨SQ_VIEW_CTL p, 1, 1⟩
def SQ_VIEW_CTL_PEND (p : Nat) : Fld := ⟨SQ_VIEW_CTL p, 2, 1⟩
def SQ_VIEW_CTL_REFUSED (p : Nat) : Fld := ⟨SQ_VIEW_CTL p, 3, 1⟩
def SQ_VIEW_CTL_LOST (p : Nat) : Fld := ⟨SQ_VIEW_CTL p, 4, 1⟩
/-- SQ.TREE (R370, spec/11). -/
def SQ_TREE (p : Nat) : Nat := 0x200400040 + 0x1000 * p
def SQ_TREE_SQID (p : Nat) : Fld := ⟨SQ_TREE p, 0, 16⟩
def SQ_TREE_PARENT (p : Nat) : Fld := ⟨SQ_TREE p, 16, 5⟩
def SQ_TREE_CHILD (p : Nat) : Fld := ⟨SQ_TREE p, 24, 16⟩
/-- SQ.TIMING (R370, spec/11). -/
def SQ_TIMING (p : Nat) : Nat := 0x200400048 + 0x1000 * p
def SQ_TIMING_LEAD (p : Nat) : Fld := ⟨SQ_TIMING p, 0, 32⟩
def SQ_TIMING_TIMEOUT (p : Nat) : Fld := ⟨SQ_TIMING p, 32, 16⟩
def SQ_TIMING_RETRYMAX (p : Nat) : Fld := ⟨SQ_TIMING p, 48, 4⟩
/-- SQ.JCFG (R370, spec/11). -/
def SQ_JCFG (p : Nat) : Nat := 0x200400050 + 0x1000 * p
def SQ_JCFG_DBASE (p : Nat) : Fld := ⟨SQ_JCFG p, 0, 14⟩
def SQ_JCFG_DSIZE (p : Nat) : Fld := ⟨SQ_JCFG p, 16, 9⟩
def SQ_JCFG_HIGH (p : Nat) : Fld := ⟨SQ_JCFG p, 28, 4⟩
/-- SQ.JSTAT (R370, spec/11). -/
def SQ_JSTAT (p : Nat) : Nat := 0x200400058 + 0x1000 * p
def SQ_JSTAT_BMUSE (p : Nat) : Fld := ⟨SQ_JSTAT p, 0, 13⟩
def SQ_JSTAT_DUSE (p : Nat) : Fld := ⟨SQ_JSTAT p, 16, 32⟩
def SQ_JSTAT_HIGHSEEN (p : Nat) : Fld := ⟨SQ_JSTAT p, 48, 1⟩
/-- SQ.LOSS (R370, spec/11). -/
def SQ_LOSS (p : Nat) : Nat := 0x200400060 + 0x1000 * p
def SQ_LOSS_ADDR (p : Nat) : Fld := ⟨SQ_LOSS p, 0, 40⟩
def SQ_LOSS_VALID (p : Nat) : Fld := ⟨SQ_LOSS p, 63, 1⟩
/-- SQ.LOSS_DCN (R370, spec/11). -/
def SQ_LOSS_DCN (p : Nat) : Nat := 0x200400068 + 0x1000 * p
def SQ_LOSS_DCN_DCN (p : Nat) : Fld := ⟨SQ_LOSS_DCN p, 0, 64⟩
/-- SQ.CVLAT, SQ.MCVLAT (R370, spec/11). -/
def SQ_CVLAT (p : Nat) : Nat := 0x200400070 + 0x1000 * p
def SQ_CVLAT_DCN (p : Nat) : Fld := ⟨SQ_CVLAT p, 0, 64⟩
/-- SQ.CVLAT, SQ.MCVLAT (R370, spec/11). -/
def SQ_MCVLAT : Nat := 0x200408008
def SQ_MCVLAT_DCN : Fld := ⟨SQ_MCVLAT, 0, 64⟩
/-- SQ.CVFLAGS, SQ.MCVFLAGS (R370, spec/11). -/
def SQ_CVFLAGS (p : Nat) : Nat := 0x200400078 + 0x1000 * p
def SQ_CVFLAGS_VALID (p : Nat) : Fld := ⟨SQ_CVFLAGS p, 0, 1⟩
def SQ_CVFLAGS_MIXED (p : Nat) : Fld := ⟨SQ_CVFLAGS p, 1, 1⟩
/-- SQ.CVFLAGS, SQ.MCVFLAGS (R370, spec/11). -/
def SQ_MCVFLAGS : Nat := 0x200408010
def SQ_MCVFLAGS_VALID : Fld := ⟨SQ_MCVFLAGS, 0, 1⟩
def SQ_MCVFLAGS_MIXED : Fld := ⟨SQ_MCVFLAGS, 1, 1⟩
/-- SQ.CVDDR (R370, spec/11). -/
def SQ_CVDDR (p : Nat) : Nat := 0x200400080 + 0x1000 * p
def SQ_CVDDR_BASE (p : Nat) : Fld := ⟨SQ_CVDDR p, 0, 9⟩
/-- SQ.FENCE (R370, spec/11). -/
def SQ_FENCE (p : Nat) : Nat := 0x200400088 + 0x1000 * p
def SQ_FENCE_ADDR (p : Nat) : Fld := ⟨SQ_FENCE p, 0, 40⟩
def SQ_FENCE_MASTER (p : Nat) : Fld := ⟨SQ_FENCE p, 40, 4⟩
def SQ_FENCE_COUNT (p : Nat) : Fld := ⟨SQ_FENCE p, 44, 16⟩
def SQ_FENCE_VALID (p : Nat) : Fld := ⟨SQ_FENCE p, 63, 1⟩
/-- SQ.SCHED (R370, spec/11). -/
def SQ_SCHED (p : Nat) : Nat := 0x200400090 + 0x1000 * p
def SQ_SCHED_L (p : Nat) : Fld := ⟨SQ_SCHED p, 0, 32⟩
def SQ_SCHED_FIRST (p : Nat) : Fld := ⟨SQ_SCHED p, 32, 32⟩
/-- Ring BASE (R370, spec/11). -/
def SQ_BASE (p : Nat) (q : Nat) : Nat := 0x200400100 + 0x1000 * p + 0x10 * q
def SQ_BASE_BASE (p : Nat) (q : Nat) : Fld := ⟨SQ_BASE p q, 12, 28⟩
def SQ_BASE_LOG2SIZE (p : Nat) (q : Nat) : Fld := ⟨SQ_BASE p q, 40, 5⟩
/-- Ring PTR (R370, spec/11). -/
def SQ_PTR (p : Nat) (q : Nat) : Nat := 0x200400108 + 0x1000 * p + 0x10 * q
def SQ_PTR_PROD (p : Nat) (q : Nat) : Fld := ⟨SQ_PTR p q, 0, 32⟩
def SQ_PTR_CONS (p : Nat) (q : Nat) : Fld := ⟨SQ_PTR p q, 32, 32⟩
/-- SQ.MVIEW (R370, spec/11). -/
def SQ_MVIEW : Nat := 0x200408000
def SQ_MVIEW_PART : Fld := ⟨SQ_MVIEW, 0, 3⟩
/-- SQ.JMEM(b, 0) (R370, spec/11). -/
def SQ_JMEM0 (b : Nat) : Nat := 0x200408800 + 0x80 * b
def SQ_JMEM0_BM (b : Nat) : Fld := ⟨SQ_JMEM0 b, 0, 10⟩
/-- SQ.JMEM(b, r), r = 1–8 (R370, spec/11). -/
def SQ_JMEM (b : Nat) (j : Nat) : Nat := 0x200408808 + 0x80 * b + 0x8 * j
def SQ_JMEM_DM (b : Nat) (j : Nat) : Fld := ⟨SQ_JMEM b j, 0, 15⟩
/-- SQ.JDDR(i) (R370, spec/11). -/
def SQ_JDDR (i : Nat) : Nat := 0x20040A000 + 0x8 * i
def SQ_JDDR_GRAN (i : Nat) : Fld := ⟨SQ_JDDR i, 0, 64⟩
/-- DEV.FEAT_OFFER (R400, spec/12). -/
def DEV_FEAT_OFFER : Nat := 0x200000100
def DEV_FEAT_OFFER_OFFER : Fld := ⟨DEV_FEAT_OFFER, 0, 64⟩
/-- DEV.FEAT_ACCEPT(n) (R400, spec/12). -/
def DEV_FEAT_ACCEPT (n : Nat) : Nat := 0x200000110 + 0x10 * n
def DEV_FEAT_ACCEPT_ACCEPT (n : Nat) : Fld := ⟨DEV_FEAT_ACCEPT n, 0, 64⟩
/-- HP.STAT(n) (R400, spec/12). -/
def HP_STAT (n : Nat) : Nat := 0x200200000 + 0x100 * n
def HP_STAT_LINKUP (n : Nat) : Fld := ⟨HP_STAT n, 0, 1⟩
def HP_STAT_SPEED (n : Nat) : Fld := ⟨HP_STAT n, 1, 3⟩
def HP_STAT_WIDTH (n : Nat) : Fld := ⟨HP_STAT n, 4, 4⟩
def HP_STAT_BME (n : Nat) : Fld := ⟨HP_STAT n, 8, 1⟩
def HP_STAT_FLR (n : Nat) : Fld := ⟨HP_STAT n, 9, 1⟩
def HP_STAT_FEATERR (n : Nat) : Fld := ⟨HP_STAT n, 10, 1⟩
def HP_STAT_FEATBIT (n : Nat) : Fld := ⟨HP_STAT n, 16, 7⟩
/-- HP.BIND(n) (R400, spec/12). -/
def HP_BIND (n : Nat) : Nat := 0x200200008 + 0x100 * n
def HP_BIND_PARTS (n : Nat) : Fld := ⟨HP_BIND n, 0, 8⟩
/-- HP.ERRCNT(n) (R400, spec/12). -/
def HP_ERRCNT (n : Nat) : Nat := 0x200200010 + 0x100 * n
def HP_ERRCNT_CA (n : Nat) : Fld := ⟨HP_ERRCNT n, 0, 16⟩
def HP_ERRCNT_REFUSED (n : Nat) : Fld := ⟨HP_ERRCNT n, 16, 16⟩
def HP_ERRCNT_EP (n : Nat) : Fld := ⟨HP_ERRCNT n, 32, 16⟩
def HP_ERRCNT_EPRX (n : Nat) : Fld := ⟨HP_ERRCNT n, 48, 16⟩
/-- HP.EVENT(n) (R400, spec/12). -/
def HP_EVENT (n : Nat) : Nat := 0x200200018 + 0x100 * n
def HP_EVENT_BIND (n : Nat) : Fld := ⟨HP_EVENT n, 0, 1⟩
def HP_EVENT_FEAT (n : Nat) : Fld := ⟨HP_EVENT n, 1, 1⟩
def HP_EVENT_EN (n : Nat) : Fld := ⟨HP_EVENT n, 8, 2⟩
/-- HP.PCFG(p) (R400, spec/12). -/
def HP_PCFG (p : Nat) : Nat := 0x200201000 + 0x100 * p
def HP_PCFG_VALID (p : Nat) : Fld := ⟨HP_PCFG p, 0, 1⟩
def HP_PCFG_PORT (p : Nat) : Fld := ⟨HP_PCFG p, 1, 2⟩
def HP_PCFG_CT (p : Nat) : Fld := ⟨HP_PCFG p, 3, 1⟩
def HP_PCFG_DX48 (p : Nat) : Fld := ⟨HP_PCFG p, 4, 1⟩
def HP_PCFG_FEAT (p : Nat) : Fld := ⟨HP_PCFG p, 32, 13⟩
/-- HP.PACTIVE(p, i) (R400, spec/12). -/
def HP_PACTIVE (p : Nat) (i : Nat) : Nat := 0x200201008 + 0x100 * p + 0x8 * i
def HP_PACTIVE_ENG (p : Nat) (i : Nat) : Fld := ⟨HP_PACTIVE p i, 0, 64⟩
/-- HP.PRES(p) (R400, spec/12). -/
def HP_PRES (p : Nat) : Nat := 0x200201020 + 0x100 * p
def HP_PRES_BLOCKS (p : Nat) : Fld := ⟨HP_PRES p, 0, 24⟩
def HP_PRES_PORTS (p : Nat) : Fld := ⟨HP_PRES p, 24, 16⟩
/-- HP.PDMA(p) (R400, spec/12). -/
def HP_PDMA (p : Nat) : Nat := 0x200201028 + 0x100 * p
def HP_PDMA_CH (p : Nat) : Fld := ⟨HP_PDMA p, 0, 32⟩
/-- MGMT.MBX_CTL (R400, spec/12). -/
def MGMT_MBX_CTL (n : Nat) : Nat := 0x200600000 + 0x1000 * n
def MGMT_MBX_CTL_DOORBELL (n : Nat) : Fld := ⟨MGMT_MBX_CTL n, 0, 1⟩
def MGMT_MBX_CTL_IRQEN (n : Nat) : Fld := ⟨MGMT_MBX_CTL n, 1, 1⟩
/-- MGMT.MBX_STAT (R400, spec/12). -/
def MGMT_MBX_STAT (n : Nat) : Nat := 0x200600008 + 0x1000 * n
def MGMT_MBX_STAT_BUSY (n : Nat) : Fld := ⟨MGMT_MBX_STAT n, 0, 1⟩
def MGMT_MBX_STAT_DONE (n : Nat) : Fld := ⟨MGMT_MBX_STAT n, 1, 1⟩
def MGMT_MBX_STAT_SEQ (n : Nat) : Fld := ⟨MGMT_MBX_STAT n, 8, 8⟩
/-- DMA.CTL (R421, spec/13). -/
def DMA_CTL : Nat := 0x200020000
def DMA_CTL_DISABLE : Fld := ⟨DMA_CTL, 0, 1⟩
/-- DMA.STAT (R421, spec/13). -/
def DMA_STAT : Nat := 0x200020008
def DMA_STAT_BUFUSE : Fld := ⟨DMA_STAT, 0, 11⟩
def DMA_STAT_QUIESCE : Fld := ⟨DMA_STAT, 16, 1⟩
/-- DMA.CH_CTL (R421, spec/13). -/
def DMA_CH_CTL (k : Nat) : Nat := 0x200021000 + 0x40 * k
def DMA_CH_CTL_START (k : Nat) : Fld := ⟨DMA_CH_CTL k, 0, 1⟩
def DMA_CH_CTL_DISABLE (k : Nat) : Fld := ⟨DMA_CH_CTL k, 1, 1⟩
/-- DMA.CH_STAT (R421, spec/13). -/
def DMA_CH_STAT (k : Nat) : Nat := 0x200021008 + 0x40 * k
def DMA_CH_STAT_STATE (k : Nat) : Fld := ⟨DMA_CH_STAT k, 0, 2⟩
def DMA_CH_STAT_QUIESCE (k : Nat) : Fld := ⟨DMA_CH_STAT k, 2, 1⟩
def DMA_CH_STAT_STARTERR (k : Nat) : Fld := ⟨DMA_CH_STAT k, 3, 1⟩
def DMA_CH_STAT_STATUS (k : Nat) : Fld := ⟨DMA_CH_STAT k, 8, 8⟩
def DMA_CH_STAT_DONE (k : Nat) : Fld := ⟨DMA_CH_STAT k, 32, 16⟩
/-- DMA.CH_CFG (R421, spec/13). -/
def DMA_CH_CFG (k : Nat) : Nat := 0x200021010 + 0x40 * k
def DMA_CH_CFG_BUDGET (k : Nat) : Fld := ⟨DMA_CH_CFG k, 0, 16⟩
def DMA_CH_CFG_BUFMAX (k : Nat) : Fld := ⟨DMA_CH_CFG k, 16, 8⟩
def DMA_CH_CFG_HEADSP (k : Nat) : Fld := ⟨DMA_CH_CFG k, 24, 1⟩
/-- DMA.CH_HEAD (R421, spec/13). -/
def DMA_CH_HEAD (k : Nat) : Nat := 0x200021018 + 0x40 * k
def DMA_CH_HEAD_ADDR (k : Nat) : Fld := ⟨DMA_CH_HEAD k, 6, 58⟩
/-- DMA.CH_CUR (R421, spec/13). -/
def DMA_CH_CUR (k : Nat) : Nat := 0x200021020 + 0x40 * k
def DMA_CH_CUR_ADDR (k : Nat) : Fld := ⟨DMA_CH_CUR k, 0, 64⟩
/-- DMA.CH_COUNT (R421, spec/13). -/
def DMA_CH_COUNT (k : Nat) : Nat := 0x200021028 + 0x40 * k
def DMA_CH_COUNT_COUNT (k : Nat) : Fld := ⟨DMA_CH_COUNT k, 0, 32⟩
/-- DMA.CH_ERRADDR (R421, spec/13). -/
def DMA_CH_ERRADDR (k : Nat) : Nat := 0x200021030 + 0x40 * k
def DMA_CH_ERRADDR_ADDR (k : Nat) : Fld := ⟨DMA_CH_ERRADDR k, 0, 64⟩
/-- ISC.CTL (R440, spec/14). -/
def ISC_CTL : Nat := 0x200010000
def ISC_CTL_MAINT : Fld := ⟨ISC_CTL, 0, 1⟩
/-- ISC.STAT (R440, spec/14). -/
def ISC_STAT : Nat := 0x200010008
def ISC_STAT_DBERR : Fld := ⟨ISC_STAT, 0, 1⟩
def ISC_STAT_CERR : Fld := ⟨ISC_STAT, 1, 1⟩
def ISC_STAT_MODEERR : Fld := ⟨ISC_STAT, 2, 1⟩
def ISC_STAT_DBSRC : Fld := ⟨ISC_STAT, 8, 8⟩
def ISC_STAT_CSRC : Fld := ⟨ISC_STAT, 16, 8⟩
def ISC_STAT_CTGT : Fld := ⟨ISC_STAT, 24, 8⟩
/-- ISC.DOORBELL (R440, spec/14). -/
def ISC_DOORBELL : Nat := 0x200010010
def ISC_DOORBELL_SRC : Fld := ⟨ISC_DOORBELL, 0, 8⟩
def ISC_DOORBELL_LVL : Fld := ⟨ISC_DOORBELL, 8, 1⟩
/-- ISC.WAKECTL (R440, spec/14). -/
def ISC_WAKECTL : Nat := 0x200010018
def ISC_WAKECTL_EN : Fld := ⟨ISC_WAKECTL, 0, 32⟩
def ISC_WAKECTL_PEND : Fld := ⟨ISC_WAKECTL, 32, 32⟩
/-- ISC.WAKE(i) (R440, spec/14). -/
def ISC_WAKE (i : Nat) : Nat := 0x200010020 + 0x8 * i
def ISC_WAKE_SRC (i : Nat) (k : Nat) : Fld := ⟨ISC_WAKE i, 8 * k, 8⟩
/-- ISC.SCFG(s) (R440, spec/14). -/
def ISC_SCFG (s : Nat) : Nat := 0x200011000 + 0x40 * s
def ISC_SCFG_EN (s : Nat) : Fld := ⟨ISC_SCFG s, 0, 1⟩
def ISC_SCFG_KIND (s : Nat) : Fld := ⟨ISC_SCFG s, 1, 1⟩
def ISC_SCFG_OWNER (s : Nat) : Fld := ⟨ISC_SCFG s, 4, 3⟩
def ISC_SCFG_DEV (s : Nat) : Fld := ⟨ISC_SCFG s, 7, 1⟩
def ISC_SCFG_CCOUNT (s : Nat) : Fld := ⟨ISC_SCFG s, 8, 8⟩
def ISC_SCFG_CTIME (s : Nat) : Fld := ⟨ISC_SCFG s, 16, 16⟩
/-- ISC.SMASK(s, i) (R440, spec/14). -/
def ISC_SMASK (s : Nat) (i : Nat) : Nat := 0x200011008 + 0x40 * s + 0x8 * i
def ISC_SMASK_TGT (s : Nat) (i : Nat) : Fld := ⟨ISC_SMASK s i, 0, 64⟩
/-- ISC.SSTAT(s) (R440, spec/14). -/
def ISC_SSTAT (s : Nat) : Nat := 0x200011028 + 0x40 * s
def ISC_SSTAT_STATE (s : Nat) : Fld := ⟨ISC_SSTAT s, 0, 2⟩
def ISC_SSTAT_LEVEL (s : Nat) : Fld := ⟨ISC_SSTAT s, 2, 1⟩
def ISC_SSTAT_HWD (s : Nat) : Fld := ⟨ISC_SSTAT s, 3, 1⟩
def ISC_SSTAT_COUNT (s : Nat) : Fld := ⟨ISC_SSTAT s, 8, 8⟩
def ISC_SSTAT_LASTCNT (s : Nat) : Fld := ⟨ISC_SSTAT s, 16, 8⟩
def ISC_SSTAT_CLAIMER (s : Nat) : Fld := ⟨ISC_SSTAT s, 24, 8⟩
/-- ISC.SCLAIM(s) (R440, spec/14). -/
def ISC_SCLAIM (s : Nat) : Nat := 0x200011030 + 0x40 * s
def ISC_SCLAIM_SRC (s : Nat) : Fld := ⟨ISC_SCLAIM s, 0, 8⟩
/-- ISC.SRAISE(s) (R440, spec/14). -/
def ISC_SRAISE (s : Nat) : Nat := 0x200011038 + 0x40 * s
def ISC_SRAISE_LVL (s : Nat) : Fld := ⟨ISC_SRAISE s, 0, 1⟩
/-- ISC.TCLAIM (R440, spec/14). -/
def ISC_TCLAIM : Nat := 0x200015000
def ISC_TCLAIM_SRC : Fld := ⟨ISC_TCLAIM, 0, 8⟩
/-- ISC.TEOI (R440, spec/14). -/
def ISC_TEOI : Nat := 0x200015008
/-- ISC.TCOMPLETE(t) (R440, spec/14). -/
def ISC_TCOMPLETE (t : Nat) : Nat := 0x200015010 + 0x8 * t
def ISC_TCOMPLETE_SRC (t : Nat) : Fld := ⟨ISC_TCOMPLETE t, 0, 8⟩
/-- ISC.TSTAT(t) (R440, spec/14). -/
def ISC_TSTAT (t : Nat) : Nat := 0x200016000 + 0x8 * t
def ISC_TSTAT_TOP (t : Nat) : Fld := ⟨ISC_TSTAT t, 0, 8⟩
def ISC_TSTAT_DEPTH (t : Nat) : Fld := ⟨ISC_TSTAT t, 8, 5⟩
def ISC_TSTAT_PEND (t : Nat) : Fld := ⟨ISC_TSTAT t, 13, 1⟩
def ISC_TSTAT_WITHDRAWN (t : Nat) : Fld := ⟨ISC_TSTAT t, 14, 1⟩
/-- DDR.CTL (R456, spec/15). -/
def DDR_CTL : Nat := 0x200300000
def DDR_CTL_RETRAIN : Fld := ⟨DDR_CTL, 0, 1⟩
/-- DDR.STAT (R456, spec/15). -/
def DDR_STAT : Nat := 0x200300008
def DDR_STAT_SET : Fld := ⟨DDR_STAT, 0, 4⟩
def DDR_STAT_TRAINED : Fld := ⟨DDR_STAT, 4, 1⟩
def DDR_STAT_CHIPLOSS : Fld := ⟨DDR_STAT, 5, 1⟩
def DDR_STAT_RTERR : Fld := ⟨DDR_STAT, 6, 1⟩
def DDR_STAT_CAP : Fld := ⟨DDR_STAT, 8, 3⟩
def DDR_STAT_RATE : Fld := ⟨DDR_STAT, 16, 7⟩
/-- DDR.PCFG(n) (R456, spec/15). -/
def DDR_PCFG (n : Nat) : Nat := 0x200301000 + 0x100 * n
def DDR_PCFG_EN (n : Nat) : Fld := ⟨DDR_PCFG n, 0, 1⟩
def DDR_PCFG_MAXSPEED (n : Nat) : Fld := ⟨DDR_PCFG n, 1, 3⟩
def DDR_PCFG_ALLOWX8 (n : Nat) : Fld := ⟨DDR_PCFG n, 4, 1⟩
def DDR_PCFG_REF2X (n : Nat) : Fld := ⟨DDR_PCFG n, 5, 1⟩
/-- DDR.PSTAT(n) (R456, spec/15). -/
def DDR_PSTAT (n : Nat) : Nat := 0x200301008 + 0x100 * n
def DDR_PSTAT_STATE (n : Nat) : Fld := ⟨DDR_PSTAT n, 0, 3⟩
def DDR_PSTAT_CAUSE (n : Nat) : Fld := ⟨DDR_PSTAT n, 4, 4⟩
def DDR_PSTAT_RANKS (n : Nat) : Fld := ⟨DDR_PSTAT n, 8, 2⟩
def DDR_PSTAT_STACK (n : Nat) : Fld := ⟨DDR_PSTAT n, 10, 2⟩
def DDR_PSTAT_X8 (n : Nat) : Fld := ⟨DDR_PSTAT n, 12, 1⟩
def DDR_PSTAT_HOT (n : Nat) : Fld := ⟨DDR_PSTAT n, 13, 1⟩
def DDR_PSTAT_REFDBL (n : Nat) : Fld := ⟨DDR_PSTAT n, 14, 1⟩
def DDR_PSTAT_TEMP (n : Nat) : Fld := ⟨DDR_PSTAT n, 16, 8⟩
/-- DDR.PERR(n) (R456, spec/15). -/
def DDR_PERR (n : Nat) : Nat := 0x200301010 + 0x100 * n
def DDR_PERR_ALERTS (n : Nat) : Fld := ⟨DDR_PERR n, 0, 16⟩
def DDR_PERR_DOUBLE (n : Nat) : Fld := ⟨DDR_PERR n, 16, 16⟩
/-- MGMT.SCTL (R486, spec/16). -/
def MGMT_SCTL : Nat := 0x300A40000
def MGMT_SCTL_ALERTEN : Fld := ⟨MGMT_SCTL, 0, 1⟩
/-- MGMT.TLIMIT (R486, spec/16). -/
def MGMT_TLIMIT : Nat := 0x300A40008
def MGMT_TLIMIT_WARN : Fld := ⟨MGMT_TLIMIT, 0, 8⟩
def MGMT_TLIMIT_CRIT : Fld := ⟨MGMT_TLIMIT, 8, 8⟩
/-- MGMT.TEMP(i) (R486, spec/16). -/
def MGMT_TEMP (i : Nat) : Nat := 0x300A40100 + 0x8 * i
def MGMT_TEMP_VALUE (i : Nat) : Fld := ⟨MGMT_TEMP i, 0, 12⟩
def MGMT_TEMP_WARN (i : Nat) : Fld := ⟨MGMT_TEMP i, 12, 1⟩
def MGMT_TEMP_CRIT (i : Nat) : Fld := ⟨MGMT_TEMP i, 13, 1⟩
/-- MGMT.VMON(i) (R486, spec/16). -/
def MGMT_VMON (i : Nat) : Nat := 0x300A40300 + 0x8 * i
def MGMT_VMON_MV (i : Nat) : Fld := ⟨MGMT_VMON i, 0, 12⟩
def MGMT_VMON_LO (i : Nat) : Fld := ⟨MGMT_VMON i, 12, 12⟩
def MGMT_VMON_HI (i : Nat) : Fld := ⟨MGMT_VMON i, 24, 12⟩
def MGMT_VMON_LOW (i : Nat) : Fld := ⟨MGMT_VMON i, 36, 1⟩
def MGMT_VMON_HIGH (i : Nat) : Fld := ⟨MGMT_VMON i, 37, 1⟩
/-- MGMT.DROOP(b) (R486, spec/16). -/
def MGMT_DROOP (b : Nat) : Nat := 0x300A40400 + 0x8 * b
def MGMT_DROOP_COUNT (b : Nat) : Fld := ⟨MGMT_DROOP b, 0, 16⟩
/-- DEV.ID (R493, spec/16). -/
def DEV_ID : Nat := 0x200000000
def DEV_ID_PART : Fld := ⟨DEV_ID, 0, 16⟩
def DEV_ID_STEP : Fld := ⟨DEV_ID, 16, 4⟩
def DEV_ID_MSUFFIX : Fld := ⟨DEV_ID, 20, 1⟩
def DEV_ID_LC : Fld := ⟨DEV_ID, 21, 3⟩
def DEV_ID_VENDOR : Fld := ⟨DEV_ID, 24, 16⟩
/-- DEV.BOOTSTAT (R493, spec/16). -/
def DEV_BOOTSTAT : Nat := 0x200000008
def DEV_BOOTSTAT_STEP : Fld := ⟨DEV_BOOTSTAT, 0, 4⟩
def DEV_BOOTSTAT_FAILED : Fld := ⟨DEV_BOOTSTAT, 4, 1⟩
def DEV_BOOTSTAT_SLOT : Fld := ⟨DEV_BOOTSTAT, 5, 1⟩
def DEV_BOOTSTAT_FALLBACK : Fld := ⟨DEV_BOOTSTAT, 6, 1⟩
def DEV_BOOTSTAT_RECOVERY : Fld := ⟨DEV_BOOTSTAT, 7, 1⟩
def DEV_BOOTSTAT_ERR : Fld := ⟨DEV_BOOTSTAT, 8, 4⟩
def DEV_BOOTSTAT_DEGRADED : Fld := ⟨DEV_BOOTSTAT, 12, 1⟩
def DEV_BOOTSTAT_MRESETS : Fld := ⟨DEV_BOOTSTAT, 16, 16⟩
/-- DEV.WDOG (R493, spec/16). -/
def DEV_WDOG : Nat := 0x200000010
def DEV_WDOG_PERIOD : Fld := ⟨DEV_WDOG, 0, 16⟩
def DEV_WDOG_EN : Fld := ⟨DEV_WDOG, 16, 1⟩
def DEV_WDOG_LOCK : Fld := ⟨DEV_WDOG, 17, 1⟩
def DEV_WDOG_KICK : Fld := ⟨DEV_WDOG, 24, 8⟩
def DEV_WDOG_COUNT : Fld := ⟨DEV_WDOG, 32, 16⟩
def DEV_WDOG_STAGE : Fld := ⟨DEV_WDOG, 48, 2⟩
/-- DEV.UID (R493, spec/16). -/
def DEV_UID (i : Nat) : Nat := 0x200000018 + 0x8 * i
def DEV_UID_UID (i : Nat) : Fld := ⟨DEV_UID i, 0, 64⟩
/-- UMX.ID (R517, spec/17). -/
def UMX_ID : Nat := 0x200700000
def UMX_ID_MSUFFIX : Fld := ⟨UMX_ID, 0, 1⟩
def UMX_ID_CALERR : Fld := ⟨UMX_ID, 1, 1⟩
/-- UMX.STAT (R517, spec/17). -/
def UMX_STAT : Nat := 0x200700008
def UMX_STAT_STATE : Fld := ⟨UMX_STAT, 0, 2⟩
def UMX_STAT_SEALOPEN : Fld := ⟨UMX_STAT, 2, 1⟩
def UMX_STAT_SAT : Fld := ⟨UMX_STAT, 3, 1⟩
def UMX_STAT_TBERR : Fld := ⟨UMX_STAT, 4, 1⟩
def UMX_STAT_OVR0 : Fld := ⟨UMX_STAT, 5, 1⟩
def UMX_STAT_OVR1 : Fld := ⟨UMX_STAT, 6, 1⟩
/-- UMX.ECORE, UMX.ESRAM, UMX.ETOTAL (R517, spec/17). -/
def UMX_ECORE : Nat := 0x200700010
def UMX_ECORE_ENERGY : Fld := ⟨UMX_ECORE, 0, 64⟩
/-- UMX.ECORE, UMX.ESRAM, UMX.ETOTAL (R517, spec/17). -/
def UMX_ESRAM : Nat := 0x200700018
def UMX_ESRAM_ENERGY : Fld := ⟨UMX_ESRAM, 0, 64⟩
/-- UMX.ECORE, UMX.ESRAM, UMX.ETOTAL (R517, spec/17). -/
def UMX_ETOTAL : Nat := 0x200700020
def UMX_ETOTAL_ENERGY : Fld := ⟨UMX_ETOTAL, 0, 64⟩
/-- UMX.POWER (R517, spec/17). -/
def UMX_POWER : Nat := 0x200700028
def UMX_POWER_P0 : Fld := ⟨UMX_POWER, 0, 32⟩
def UMX_POWER_P1 : Fld := ⟨UMX_POWER, 32, 32⟩
/-- UMX.VOLT (R517, spec/17). -/
def UMX_VOLT : Nat := 0x200700030
def UMX_VOLT_V0 : Fld := ⟨UMX_VOLT, 0, 16⟩
def UMX_VOLT_V1 : Fld := ⟨UMX_VOLT, 16, 16⟩
/-- UMX.SEALCNT (R517, spec/17). -/
def UMX_SEALCNT : Nat := 0x200700038
def UMX_SEALCNT_COUNT : Fld := ⟨UMX_SEALCNT, 0, 9⟩
/-- UMX.FWVER (R517, spec/17). -/
def UMX_FWVER : Nat := 0x200700040
def UMX_FWVER_VERSION : Fld := ⟨UMX_FWVER, 0, 32⟩
def UMX_FWVER_SLOT : Fld := ⟨UMX_FWVER, 32, 1⟩
/-- UMX.CFG (R517, spec/17). -/
def UMX_CFG : Nat := 0x200700048
def UMX_CFG_INTERVAL : Fld := ⟨UMX_CFG, 0, 12⟩
def UMX_CFG_NEXT : Fld := ⟨UMX_CFG, 32, 12⟩
/-- UMX.RSEQ (R517, spec/17). -/
def UMX_RSEQ : Nat := 0x200700050
def UMX_RSEQ_RSEQ : Fld := ⟨UMX_RSEQ, 0, 64⟩
/-- UMX.TIME (R517, spec/17). -/
def UMX_TIME : Nat := 0x200700058
def UMX_TIME_TIME : Fld := ⟨UMX_TIME, 0, 64⟩
/-- UMX.REQ (R517, spec/17). -/
def UMX_REQ : Nat := 0x200700060
def UMX_REQ_OP : Fld := ⟨UMX_REQ, 0, 8⟩
def UMX_REQ_ARG : Fld := ⟨UMX_REQ, 8, 32⟩
/-- UMX.RSP (R517, spec/17). -/
def UMX_RSP : Nat := 0x200700068
def UMX_RSP_OP : Fld := ⟨UMX_RSP, 0, 8⟩
def UMX_RSP_STATUS : Fld := ⟨UMX_RSP, 8, 8⟩
def UMX_RSP_DONE : Fld := ⟨UMX_RSP, 16, 1⟩
/-- UMX.FWDIGEST(i) (R517, spec/17). -/
def UMX_FWDIGEST (i : Nat) : Nat := 0x200700080 + 0x8 * i
def UMX_FWDIGEST_DIGEST (i : Nat) : Fld := ⟨UMX_FWDIGEST i, 0, 64⟩
/-- PATCH_A(u) (R539, spec/18). -/
def PATCH_A (u : Nat) : Nat := 0x300A70000 + 0x10 * u
def PATCH_A_ADDR (u : Nat) : Fld := ⟨PATCH_A u, 2, 20⟩
def PATCH_A_REGION (u : Nat) : Fld := ⟨PATCH_A u, 22, 1⟩
def PATCH_A_KIND (u : Nat) : Fld := ⟨PATCH_A u, 23, 2⟩
/-- PATCH_V(u) (R539, spec/18). -/
def PATCH_V (u : Nat) : Nat := 0x300A70008 + 0x10 * u
def PATCH_V_VALUE (u : Nat) : Fld := ⟨PATCH_V u, 0, 32⟩
/-- PATCH_LOCK (R539, spec/18). -/
def PATCH_LOCK : Nat := 0x300A70100
def PATCH_LOCK_LOCK : Fld := ⟨PATCH_LOCK, 0, 1⟩
/-- DBG.ACCESS (R541, spec/18). -/
def DBG_ACCESS : Nat := 0x200800000
def DBG_ACCESS_SIDEFX : Fld := ⟨DBG_ACCESS, 0, 1⟩
def DBG_ACCESS_STEPIE : Fld := ⟨DBG_ACCESS, 1, 1⟩
/-- DBG.STAT (R541, spec/18). -/
def DBG_STAT : Nat := 0x200800008
def DBG_STAT_OPEN : Fld := ⟨DBG_STAT, 0, 1⟩
def DBG_STAT_OPENED : Fld := ⟨DBG_STAT, 1, 1⟩
def DBG_STAT_HOW : Fld := ⟨DBG_STAT, 2, 2⟩
/-- DBG.EHALT(i), DBG.ERESUME(i), DBG.ESTEP(i) (R541, spec/18). -/
def DBG_EHALT (i : Nat) : Nat := 0x200800010 + 0x8 * i
def DBG_EHALT_ENG (i : Nat) : Fld := ⟨DBG_EHALT i, 0, 64⟩
/-- DBG.EHALT(i), DBG.ERESUME(i), DBG.ESTEP(i) (R541, spec/18). -/
def DBG_ERESUME (i : Nat) : Nat := 0x200800028 + 0x8 * i
def DBG_ERESUME_ENG (i : Nat) : Fld := ⟨DBG_ERESUME i, 0, 64⟩
/-- DBG.EHALT(i), DBG.ERESUME(i), DBG.ESTEP(i) (R541, spec/18). -/
def DBG_ESTEP (i : Nat) : Nat := 0x200800040 + 0x8 * i
def DBG_ESTEP_ENG (i : Nat) : Fld := ⟨DBG_ESTEP i, 0, 64⟩
/-- DBG.EHALTED(i) (R541, spec/18). -/
def DBG_EHALTED (i : Nat) : Nat := 0x200800058 + 0x8 * i
def DBG_EHALTED_ENG (i : Nat) : Fld := ⟨DBG_EHALTED i, 0, 64⟩
/-- DBG.XTRIG(i), i = 0–2 (R541, spec/18). -/
def DBG_XTRIG (i : Nat) : Nat := 0x200800070 + 0x8 * i
def DBG_XTRIG_ROW (i : Nat) : Fld := ⟨DBG_XTRIG i, 0, 64⟩
/-- DBG.XTRIG(3) (R541, spec/18). -/
def DBG_XTRIG3 : Nat := 0x200800088
def DBG_XTRIG3_DAMSON : Fld := ⟨DBG_XTRIG3, 0, 1⟩
/-- DBG.DCTL (R541, spec/18). -/
def DBG_DCTL : Nat := 0x200800100
def DBG_DCTL_HALT : Fld := ⟨DBG_DCTL, 0, 1⟩
def DBG_DCTL_RESUME : Fld := ⟨DBG_DCTL, 1, 1⟩
def DBG_DCTL_STEP : Fld := ⟨DBG_DCTL, 2, 1⟩
/-- DBG.DSTAT (R541, spec/18). -/
def DBG_DSTAT : Nat := 0x200800108
def DBG_DSTAT_HALTED : Fld := ⟨DBG_DSTAT, 0, 1⟩
def DBG_DSTAT_LOCKLOST : Fld := ⟨DBG_DSTAT, 1, 1⟩
def DBG_DSTAT_PBRK : Fld := ⟨DBG_DSTAT, 2, 1⟩
/-- DBG.DPC (R541, spec/18). -/
def DBG_DPC : Nat := 0x200800110
def DBG_DPC_PC : Fld := ⟨DBG_DPC, 0, 32⟩
/-- DBG.DSR (R541, spec/18). -/
def DBG_DSR : Nat := 0x200800118
def DBG_DSR_SR : Fld := ⟨DBG_DSR, 0, 32⟩
/-- DBG.DREG(n) (R541, spec/18). -/
def DBG_DREG (n : Nat) : Nat := 0x200800200 + 0x8 * n
def DBG_DREG_G (n : Nat) : Fld := ⟨DBG_DREG n, 0, 32⟩
/-- DBG.MADDR (R541, spec/18). -/
def DBG_MADDR : Nat := 0x200800300
def DBG_MADDR_ADDR : Fld := ⟨DBG_MADDR, 3, 37⟩
def DBG_MADDR_LIVE : Fld := ⟨DBG_MADDR, 63, 1⟩
/-- DBG.MDATA (R541, spec/18). -/
def DBG_MDATA : Nat := 0x200800308
def DBG_MDATA_DATA : Fld := ⟨DBG_MDATA, 0, 64⟩
/-- PWR.STAT (R562, spec/19). -/
def PWR_STAT : Nat := 0x200500000
def PWR_STAT_DSTATE : Fld := ⟨PWR_STAT, 0, 2⟩
def PWR_STAT_REQERR : Fld := ⟨PWR_STAT, 2, 1⟩
def PWR_STAT_FREQERR : Fld := ⟨PWR_STAT, 3, 1⟩
def PWR_STAT_STIRQ : Fld := ⟨PWR_STAT, 4, 1⟩
/-- PWR.SLEEP (R562, spec/19). -/
def PWR_SLEEP : Nat := 0x200500008
def PWR_SLEEP_TARGET : Fld := ⟨PWR_SLEEP, 0, 2⟩
def PWR_SLEEP_GO : Fld := ⟨PWR_SLEEP, 2, 1⟩
/-- PWR.SLEEP_STATUS (R562, spec/19). -/
def PWR_SLEEP_STATUS : Nat := 0x200500010
def PWR_SLEEP_STATUS_STATUS : Fld := ⟨PWR_SLEEP_STATUS, 0, 3⟩
/-- PWR.WAKE_EN, PWR.WAKE_STAT (R562, spec/19). -/
def PWR_WAKE_EN : Nat := 0x200500018
def PWR_WAKE_EN_HOST : Fld := ⟨PWR_WAKE_EN, 0, 4⟩
def PWR_WAKE_EN_PERST : Fld := ⟨PWR_WAKE_EN, 4, 4⟩
def PWR_WAKE_EN_LINK : Fld := ⟨PWR_WAKE_EN, 8, 16⟩
def PWR_WAKE_EN_GPIO : Fld := ⟨PWR_WAKE_EN, 24, 4⟩
def PWR_WAKE_EN_TIMER : Fld := ⟨PWR_WAKE_EN, 28, 1⟩
def PWR_WAKE_EN_ISC : Fld := ⟨PWR_WAKE_EN, 29, 1⟩
/-- PWR.WAKE_EN, PWR.WAKE_STAT (R562, spec/19). -/
def PWR_WAKE_STAT : Nat := 0x200500020
def PWR_WAKE_STAT_HOST : Fld := ⟨PWR_WAKE_STAT, 0, 4⟩
def PWR_WAKE_STAT_PERST : Fld := ⟨PWR_WAKE_STAT, 4, 4⟩
def PWR_WAKE_STAT_LINK : Fld := ⟨PWR_WAKE_STAT, 8, 16⟩
def PWR_WAKE_STAT_GPIO : Fld := ⟨PWR_WAKE_STAT, 24, 4⟩
def PWR_WAKE_STAT_TIMER : Fld := ⟨PWR_WAKE_STAT, 28, 1⟩
def PWR_WAKE_STAT_ISC : Fld := ⟨PWR_WAKE_STAT, 29, 1⟩
/-- PWR.GPIOWAKE (R562, spec/19). -/
def PWR_GPIOWAKE : Nat := 0x200500028
def PWR_GPIOWAKE_POL : Fld := ⟨PWR_GPIOWAKE, 0, 4⟩
def PWR_GPIOWAKE_LEVEL : Fld := ⟨PWR_GPIOWAKE, 4, 4⟩
/-- PWR.ETIME (R562, spec/19). -/
def PWR_ETIME : Nat := 0x200500030
def PWR_ETIME_COUNT : Fld := ⟨PWR_ETIME, 0, 64⟩
/-- PWR.ETIMER (R562, spec/19). -/
def PWR_ETIMER : Nat := 0x200500038
def PWR_ETIMER_CMP : Fld := ⟨PWR_ETIMER, 0, 64⟩
/-- PWR.LINKWAKE (R562, spec/19). -/
def PWR_LINKWAKE : Nat := 0x200500040
def PWR_LINKWAKE_PORTS : Fld := ⟨PWR_LINKWAKE, 0, 16⟩
/-- PWR.THERM (R562, spec/19). -/
def PWR_THERM : Nat := 0x200500048
def PWR_THERM_HOLDEN : Fld := ⟨PWR_THERM, 0, 1⟩
def PWR_THERM_HOLDING : Fld := ⟨PWR_THERM, 1, 1⟩
def PWR_THERM_HYST : Fld := ⟨PWR_THERM, 8, 8⟩
def PWR_THERM_HOLDS : Fld := ⟨PWR_THERM, 16, 16⟩
/-- PWR.DROOPCTL (R562, spec/19). -/
def PWR_DROOPCTL : Nat := 0x200500050
def PWR_DROOPCTL_STRETCH : Fld := ⟨PWR_DROOPCTL, 0, 1⟩
def PWR_DROOPCTL_FORCEDOFF : Fld := ⟨PWR_DROOPCTL, 1, 1⟩
def PWR_DROOPCTL_STRETCHES : Fld := ⟨PWR_DROOPCTL, 16, 16⟩
/-- PWR.AVS (R562, spec/19). -/
def PWR_AVS : Nat := 0x200500058
def PWR_AVS_TARGET : Fld := ⟨PWR_AVS, 0, 12⟩
def PWR_AVS_RAISE : Fld := ⟨PWR_AVS, 12, 1⟩
/-- PWR.ECLK(g) (R562, spec/19). -/
def PWR_ECLK (g : Nat) : Nat := 0x200500100 + 0x8 * g
def PWR_ECLK_FREQ (g : Nat) : Fld := ⟨PWR_ECLK g, 0, 8⟩
def PWR_ECLK_LOCKED (g : Nat) : Fld := ⟨PWR_ECLK g, 8, 1⟩
def PWR_ECLK_REFLINK (g : Nat) : Fld := ⟨PWR_ECLK g, 9, 1⟩
/-- PWR.BLOCK(b) (R562, spec/19). -/
def PWR_BLOCK (b : Nat) : Nat := 0x200500200 + 0x8 * b
def PWR_BLOCK_REQ (b : Nat) : Fld := ⟨PWR_BLOCK b, 0, 2⟩
def PWR_BLOCK_STATE (b : Nat) : Fld := ⟨PWR_BLOCK b, 4, 2⟩
def PWR_BLOCK_BUSY (b : Nat) : Fld := ⟨PWR_BLOCK b, 6, 1⟩
/-- PWR.RSTCAUSE (R577, spec/20). -/
def PWR_RSTCAUSE : Nat := 0x200500060
def PWR_RSTCAUSE_PORST : Fld := ⟨PWR_RSTCAUSE, 0, 1⟩
def PWR_RSTCAUSE_BROWNOUT : Fld := ⟨PWR_RSTCAUSE, 1, 1⟩
def PWR_RSTCAUSE_RAIL : Fld := ⟨PWR_RSTCAUSE, 2, 3⟩
def PWR_RSTCAUSE_THERMTRIP : Fld := ⟨PWR_RSTCAUSE, 5, 1⟩
def PWR_RSTCAUSE_AONLOSS : Fld := ⟨PWR_RSTCAUSE, 6, 1⟩
def PWR_RSTCAUSE_DORMANT : Fld := ⟨PWR_RSTCAUSE, 7, 1⟩

end Reg

/-! ECS registers: indexes and fields. -/

namespace Ecs

/-- Index of ECS.MODE (R81, spec/02): its ECS offset divided by 8 (R78). -/
def MODE : Nat := 0
def MODE_PRIV : Fld := ⟨MODE, 0, 1⟩
def MODE_CT : Fld := ⟨MODE, 1, 1⟩
def MODE_IE : Fld := ⟨MODE, 2, 1⟩
def MODE_BTBOFF : Fld := ⟨MODE, 3, 1⟩
def MODE_PNT : Fld := ⟨MODE, 4, 1⟩
def MODE_DX48 : Fld := ⟨MODE, 5, 1⟩
/-- Index of ECS.STATUS (R82, spec/02): its ECS offset divided by 8 (R78). -/
def STATUS : Nat := 1
def STATUS_WCOLL : Fld := ⟨STATUS, 0, 1⟩
def STATUS_QBUSY : Fld := ⟨STATUS, 1, 1⟩
def STATUS_FLOUT : Fld := ⟨STATUS, 2, 4⟩
/-- Index of ECS.KBASE (R83, spec/02): its ECS offset divided by 8 (R78). -/
def KBASE : Nat := 2
def KBASE_BASE : Fld := ⟨KBASE, 3, 14⟩
/-- Index of ECS.SBA (R83, spec/02): its ECS offset divided by 8 (R78). -/
def SBA : Nat := 3
def SBA_BUSY : Fld := ⟨SBA, 0, 64⟩
/-- Index of ECS.SBN (R83, spec/02): its ECS offset divided by 8 (R78). -/
def SBN : Nat := 4
def SBN_BUSY : Fld := ⟨SBN, 0, 64⟩
/-- Index of ECS.PERFCTL (R84, spec/02): its ECS offset divided by 8 (R78). -/
def PERFCTL : Nat := 8
def PERFCTL_EN : Fld := ⟨PERFCTL, 0, 4⟩
def PERFCTL_OVF : Fld := ⟨PERFCTL, 4, 4⟩
def PERFCTL_OVFIRQ : Fld := ⟨PERFCTL, 8, 4⟩
def PERFCTL_MFILT : Fld := ⟨PERFCTL, 12, 2⟩
/-- Index of ECS.PERFSEL (R84, spec/02): its ECS offset divided by 8 (R78). -/
def PERFSEL : Nat := 9
def PERFSEL_EV0 : Fld := ⟨PERFSEL, 0, 8⟩
def PERFSEL_EV1 : Fld := ⟨PERFSEL, 8, 8⟩
def PERFSEL_EV2 : Fld := ⟨PERFSEL, 16, 8⟩
def PERFSEL_EV3 : Fld := ⟨PERFSEL, 24, 8⟩
/-- Index of ECS.PERF0–3 (R84, spec/02): its ECS offset divided by 8 (R78). -/
def PERF (n : Nat) : Nat := 10 + n
def PERF_COUNT (n : Nat) : Fld := ⟨PERF n, 0, 48⟩
/-- Index of ECS.DCFG (R118, spec/03): its ECS offset divided by 8 (R78). -/
def DCFG : Nat := 16
def DCFG_ENTRY : Fld := ⟨DCFG, 2, 15⟩
def DCFG_WORDS : Fld := ⟨DCFG, 32, 7⟩
/-- Index of ECS.IFLAGS (R122, spec/04): its ECS offset divided by 8 (R78). -/
def IFLAGS : Nat := 17
def IFLAGS_SATA : Fld := ⟨IFLAGS, 0, 1⟩
def IFLAGS_SATM : Fld := ⟨IFLAGS, 1, 1⟩
def IFLAGS_ACCOV : Fld := ⟨IFLAGS, 2, 1⟩
def IFLAGS_DIVZ : Fld := ⟨IFLAGS, 3, 1⟩
/-- Index of ECS.QCTX (R148, spec/04): its ECS offset divided by 8 (R78). -/
def QCTX : Nat := 18
def QCTX_PEND : Fld := ⟨QCTX, 0, 1⟩
def QCTX_LOST : Fld := ⟨QCTX, 1, 1⟩
def QCTX_FILE : Fld := ⟨QCTX, 2, 1⟩
def QCTX_OP : Fld := ⟨QCTX, 8, 8⟩
def QCTX_DEST : Fld := ⟨QCTX, 16, 6⟩
def QCTX_REM : Fld := ⟨QCTX, 32, 16⟩
/-- Index of ECS.FPCTL (R177, spec/05): its ECS offset divided by 8 (R78). -/
def FPCTL : Nat := 19
def FPCTL_RM : Fld := ⟨FPCTL, 0, 3⟩
def FPCTL_SUB : Fld := ⟨FPCTL, 3, 1⟩
def FPCTL_TE_NV : Fld := ⟨FPCTL, 4, 1⟩
def FPCTL_TE_DZ : Fld := ⟨FPCTL, 5, 1⟩
def FPCTL_TE_OF : Fld := ⟨FPCTL, 6, 1⟩
def FPCTL_TE_UF : Fld := ⟨FPCTL, 7, 1⟩
def FPCTL_TE_IX : Fld := ⟨FPCTL, 8, 1⟩
/-- Index of ECS.FPFLAGS (R178, spec/05): its ECS offset divided by 8 (R78). -/
def FPFLAGS : Nat := 20
def FPFLAGS_NV : Fld := ⟨FPFLAGS, 0, 1⟩
def FPFLAGS_DZ : Fld := ⟨FPFLAGS, 1, 1⟩
def FPFLAGS_OF : Fld := ⟨FPFLAGS, 2, 1⟩
def FPFLAGS_UF : Fld := ⟨FPFLAGS, 3, 1⟩
def FPFLAGS_IX : Fld := ⟨FPFLAGS, 4, 1⟩
def FPFLAGS_FLUSH : Fld := ⟨FPFLAGS, 5, 1⟩
/-- Index of ECS.FPTRAP (R179, spec/05): its ECS offset divided by 8 (R78). -/
def FPTRAP : Nat := 21
def FPTRAP_EXC : Fld := ⟨FPTRAP, 0, 5⟩
def FPTRAP_SUBIN : Fld := ⟨FPTRAP, 5, 1⟩
def FPTRAP_SUBOUT : Fld := ⟨FPTRAP, 6, 1⟩
def FPTRAP_LANE : Fld := ⟨FPTRAP, 8, 2⟩
def FPTRAP_OP : Fld := ⟨FPTRAP, 16, 8⟩
def FPTRAP_DEST : Fld := ⟨FPTRAP, 24, 6⟩
/-- Index of ECS.FPOP0–ECS.FPOP2 (R176, R179, spec/05). -/
def FPOP (n : Nat) : Nat := 22 + n
/-- Index of ECS.Xn (R207, spec/06): its ECS offset divided by 8 (R78). -/
def X (n : Nat) : Nat := 32 + n
def X_ADDR (n : Nat) : Fld := ⟨X n, 0, 32⟩
/-- Index of ECS.In (R207, spec/06): its ECS offset divided by 8 (R78). -/
def I (n : Nat) : Nat := 48 + n
def I_INC (n : Nat) : Fld := ⟨I n, 0, 32⟩
/-- Index of ECS.CIRCm (R207, spec/06): its ECS offset divided by 8 (R78). -/
def CIRC (m : Nat) : Nat := 64 + m
def CIRC_BASE (m : Nat) : Fld := ⟨CIRC m, 0, 32⟩
def CIRC_LENGTH (m : Nat) : Fld := ⟨CIRC m, 32, 32⟩
/-- Index of ECS.CIRCBIND (R207, spec/06): its ECS offset divided by 8 (R78). -/
def CIRCBIND : Nat := 72
def CIRCBIND_SEL (n : Nat) : Fld := ⟨CIRCBIND, 4 * n, 3⟩
def CIRCBIND_EN (n : Nat) : Fld := ⟨CIRCBIND, 4 * n + 3, 1⟩
/-- Index of ECS.CIRC_OOB (R207, spec/06): its ECS offset divided by 8 (R78). -/
def CIRC_OOB : Nat := 73
def CIRC_OOB_OOB : Fld := ⟨CIRC_OOB, 0, 16⟩
/-- Index of ECS.LCk (R207, spec/06): its ECS offset divided by 8 (R78). -/
def LC (k : Nat) : Nat := 76 + k
def LC_COUNT (k : Nat) : Fld := ⟨LC k, 0, 32⟩
/-- Index of ECS.LSk (R207, spec/06): its ECS offset divided by 8 (R78). -/
def LS (k : Nat) : Nat := 80 + k
def LS_START (k : Nat) : Fld := ⟨LS k, 2, 15⟩
/-- Index of ECS.LEk (R207, spec/06): its ECS offset divided by 8 (R78). -/
def LE (k : Nat) : Nat := 84 + k
def LE_END (k : Nat) : Fld := ⟨LE k, 2, 16⟩
/-- Index of ECS.LOOPCTL (R207, spec/06): its ECS offset divided by 8 (R78). -/
def LOOPCTL : Nat := 88
def LOOPCTL_ST (k : Nat) : Fld := ⟨LOOPCTL, 2 * k, 2⟩
def LOOPCTL_CLR : Fld := ⟨LOOPCTL, 8, 4⟩
def LOOPCTL_RCV : Fld := ⟨LOOPCTL, 12, 1⟩
def LOOPCTL_RCL : Fld := ⟨LOOPCTL, 13, 2⟩
/-- Index of ECS.TVEC (R231, spec/07): its ECS offset divided by 8 (R78). -/
def TVEC : Nat := 96
def TVEC_BASE : Fld := ⟨TVEC, 9, 8⟩
/-- Index of ECS.TRAPCAUSE (R231, spec/07): its ECS offset divided by 8 (R78). -/
def TRAPCAUSE : Nat := 97
def TRAPCAUSE_CODE : Fld := ⟨TRAPCAUSE, 0, 8⟩
def TRAPCAUSE_SLOTS : Fld := ⟨TRAPCAUSE, 8, 7⟩
def TRAPCAUSE_DERR : Fld := ⟨TRAPCAUSE, 15, 1⟩
def TRAPCAUSE_SVC : Fld := ⟨TRAPCAUSE, 16, 8⟩
def TRAPCAUSE_SYSP : Fld := ⟨TRAPCAUSE, 24, 1⟩
def TRAPCAUSE_KIND : Fld := ⟨TRAPCAUSE, 25, 1⟩
/-- Index of ECS.TRAPPC (R231, spec/07): its ECS offset divided by 8 (R78). -/
def TRAPPC : Nat := 98
def TRAPPC_PC : Fld := ⟨TRAPPC, 2, 15⟩
/-- Index of ECS.TRAPBPC (R231, spec/07): its ECS offset divided by 8 (R78). -/
def TRAPBPC : Nat := 99
def TRAPBPC_PC : Fld := ⟨TRAPBPC, 2, 15⟩
/-- Index of ECS.TRAPADDR (R231, spec/07): its ECS offset divided by 8 (R78). -/
def TRAPADDR : Nat := 100
def TRAPADDR_EA : Fld := ⟨TRAPADDR, 0, 32⟩
/-- Index of ECS.DERRADDR (R231, spec/07): its ECS offset divided by 8 (R78). -/
def DERRADDR : Nat := 101
def DERRADDR_EA : Fld := ⟨DERRADDR, 0, 32⟩
/-- Index of ECS.TRAPSTAT (R231, spec/07): its ECS offset divided by 8 (R78). -/
def TRAPSTAT : Nat := 102
def TRAPSTAT_PPRIV : Fld := ⟨TRAPSTAT, 0, 1⟩
def TRAPSTAT_PIE : Fld := ⟨TRAPSTAT, 1, 1⟩
def TRAPSTAT_PSH : Fld := ⟨TRAPSTAT, 2, 1⟩
def TRAPSTAT_SH : Fld := ⟨TRAPSTAT, 3, 1⟩
def TRAPSTAT_QP : Fld := ⟨TRAPSTAT, 4, 1⟩
def TRAPSTAT_BUSY : Fld := ⟨TRAPSTAT, 5, 1⟩
def TRAPSTAT_DFAULT : Fld := ⟨TRAPSTAT, 6, 1⟩
def TRAPSTAT_LSF : Fld := ⟨TRAPSTAT, 7, 1⟩
def TRAPSTAT_FAIL : Fld := ⟨TRAPSTAT, 8, 1⟩
/-- Index of ECS.INTSTAT (R231, spec/07): its ECS offset divided by 8 (R78). -/
def INTSTAT : Nat := 103
def INTSTAT_PEND : Fld := ⟨INTSTAT, 0, 1⟩
def INTSTAT_HELD : Fld := ⟨INTSTAT, 1, 1⟩
/-- Index of ECS.RESV (R231, spec/07): its ECS offset divided by 8 (R78). -/
def RESV : Nat := 104
def RESV_VALID : Fld := ⟨RESV, 0, 1⟩
def RESV_ROW : Fld := ⟨RESV, 5, 27⟩
/-- Index of ECS.OBAn (R231, spec/07): its ECS offset divided by 8 (R78). -/
def OBA (n : Nat) : Nat := 112 + n
def OBA_VALUE (n : Nat) : Fld := ⟨OBA n, 0, 64⟩
/-- Index of ECS.OBP (R231, spec/07): its ECS offset divided by 8 (R78). -/
def OBP : Nat := 128
def OBP_P : Fld := ⟨OBP, 1, 7⟩
/-- Index of ECS.DWINw (R264, spec/08): its ECS offset divided by 8 (R78). -/
def DWIN (w : Nat) : Nat := 144 + w
def DWIN_GRAN (w : Nat) : Fld := ⟨DWIN w, 0, 11⟩
def DWIN_EN (w : Nat) : Fld := ⟨DWIN w, 11, 1⟩
/-- Index of ECS.ARCADE_BUSY (R264, spec/08): its ECS offset divided by 8 (R78). -/
def ARCADE_BUSY : Nat := 152
def ARCADE_BUSY_RCOLL : Fld := ⟨ARCADE_BUSY, 0, 16⟩
def ARCADE_BUSY_PBUSY : Fld := ⟨ARCADE_BUSY, 16, 16⟩
def ARCADE_BUSY_LASTOFF : Fld := ⟨ARCADE_BUSY, 32, 14⟩
def ARCADE_BUSY_SRC : Fld := ⟨ARCADE_BUSY, 46, 8⟩
/-- Index of ECS.ICLAIM (R441, spec/14): its ECS offset divided by 8 (R78). -/
def ICLAIM : Nat := 160
def ICLAIM_SRC : Fld := ⟨ICLAIM, 0, 8⟩
/-- Index of ECS.ICOMPLETE (R441, spec/14): its ECS offset divided by 8 (R78). -/
def ICOMPLETE : Nat := 161
def ICOMPLETE_SRC : Fld := ⟨ICOMPLETE, 0, 8⟩
/-- Index of ECS.IEOI (R441, spec/14): its ECS offset divided by 8 (R78). -/
def IEOI : Nat := 162
/-- Index of ECS.ISEND (R441, spec/14): its ECS offset divided by 8 (R78). -/
def ISEND : Nat := 163
def ISEND_SRC : Fld := ⟨ISEND, 0, 8⟩
def ISEND_LVL : Fld := ⟨ISEND, 8, 1⟩
/-- Index of ECS.DBGCTL (R542, spec/18): its ECS offset divided by 8 (R78). -/
def DBGCTL : Nat := 192
def DBGCTL_SWBRK : Fld := ⟨DBGCTL, 0, 1⟩
/-- Index of ECS.BRKk (R542, spec/18): its ECS offset divided by 8 (R78). -/
def BRK (k : Nat) : Nat := 193 + k
def BRK_PC (k : Nat) : Fld := ⟨BRK k, 2, 15⟩
def BRK_EN (k : Nat) : Fld := ⟨BRK k, 63, 1⟩
/-- Index of ECS.DBGSTAT (R542, spec/18): its ECS offset divided by 8 (R78). -/
def DBGSTAT : Nat := 197
def DBGSTAT_HALTED : Fld := ⟨DBGSTAT, 0, 1⟩
def DBGSTAT_CAUSE : Fld := ⟨DBGSTAT, 1, 2⟩
def DBGSTAT_BRK : Fld := ⟨DBGSTAT, 3, 2⟩
/-- Index of ECS.DPC (R542, spec/18): its ECS offset divided by 8 (R78). -/
def DPC : Nat := 198
def DPC_PC : Fld := ⟨DPC, 2, 15⟩

end Ecs

/-- Register families of unit MEM. -/
def famsMem : List RegFam := [
  ⟨0x200030100, 48, 0x8, 1, 0x8, 0xF, 0x0, 0x0, 0x0, 0x8⟩,
  ⟨0x200034000, 2048, 0x8, 1, 0x8, 0xF, 0x0, 0x0, 0x0, 0x8⟩,
  ⟨0x200030300, 1, 0x8, 1, 0x8, 0x0, 0x1, 0x0, 0x0, 0x0⟩,
  ⟨0x200030308, 1, 0x8, 1, 0x8, 0x0, 0x8000000000000000, 0x0, 0x0, 0x0⟩,
  ⟨0x200030320, 1, 0x8, 1, 0x8, 0x0, 0x3, 0x0, 0x0, 0x0⟩,
  ⟨0x200030330, 1, 0x8, 1, 0x8, 0xFFFF0000, 0x0, 0x0, 0x0, 0x0⟩,
  ⟨0x200030338, 1, 0x8, 1, 0x8, 0xFFFF, 0x0, 0x0, 0x0, 0xAAAA⟩,
  ⟨0x200030800, 24, 0x80, 1, 0x80, 0xFFFFFF, 0x0, 0x0, 0x0, 0xAAAAAA⟩,
  ⟨0x200030808, 24, 0x80, 8, 0x8, 0xFFFFFFFFFF, 0x0, 0x0, 0x0, 0xAAAAAAAAAA⟩,
  ⟨0x200031800, 24, 0x40, 6, 0x8, 0xFFFFFFFFFFFF, 0x0, 0x0, 0x0, 0x0⟩,
  ⟨0x200031830, 24, 0x40, 1, 0x40, 0x3F003F, 0x3F00, 0x0, 0x0, 0x0⟩]

/-- Register families of unit DDR. -/
def famsDdr : List RegFam := [
  ⟨0x200300100, 1, 0x8, 1, 0x8, 0x0, 0x0, 0x0, 0x0, 0x0⟩,
  ⟨0x200300000, 1, 0x8, 1, 0x8, 0x0, 0x0, 0x0, 0x0, 0x0⟩,
  ⟨0x200300008, 1, 0x8, 1, 0x8, 0x0, 0x40, 0x0, 0x0, 0x0⟩,
  ⟨0x200301000, 4, 0x100, 1, 0x100, 0x3F, 0x0, 0x0, 0x0, 0xF⟩,
  ⟨0x200301008, 4, 0x100, 1, 0x100, 0x0, 0x2000, 0x0, 0x0, 0x0⟩,
  ⟨0x200301010, 4, 0x100, 1, 0x100, 0xFFFFFFFF, 0x0, 0x0, 0x0, 0x0⟩]

/-- Register families of unit SCRUB. -/
def famsScrub : List RegFam := [
  ⟨0x200040000, 1, 0x8, 1, 0x8, 0x3, 0x0, 0x0, 0x0, 0x3⟩,
  ⟨0x200040008, 1, 0x8, 1, 0x8, 0x3FFFF0003FFFF, 0x0, 0x0, 0x0, 0x1518000015180⟩,
  ⟨0x200040010, 1, 0x8, 1, 0x8, 0xFFFFFFFF0000, 0x3, 0x0, 0x0, 0x0⟩,
  ⟨0x200040018, 1, 0x8, 1, 0x8, 0x0, 0x0, 0x0, 0x0, 0x0⟩,
  ⟨0x200040020, 1, 0x8, 1, 0x8, 0x0, 0x0, 0x0, 0x0, 0x0⟩,
  ⟨0x200040028, 1, 0x8, 1, 0x8, 0xFFFFFFFFFFFFFFFF, 0x0, 0x0, 0x0, 0x0⟩,
  ⟨0x200040030, 1, 0x8, 1, 0x8, 0x0, 0x8000000000000000, 0x0, 0x0, 0x0⟩,
  ⟨0x200040038, 1, 0x8, 1, 0x8, 0x0, 0x8000000000000000, 0x0, 0x0, 0x0⟩,
  ⟨0x200040040, 1, 0x8, 1, 0x8, 0x0, 0x0, 0x0, 0x0, 0x0⟩,
  ⟨0x200040048, 1, 0x8, 1, 0x8, 0x0, 0x0, 0x0, 0x0, 0x0⟩,
  ⟨0x200040050, 1, 0x8, 1, 0x8, 0x0, 0x0, 0x0, 0x0, 0x0⟩,
  ⟨0x200040058, 1, 0x8, 1, 0x8, 0xFF7FFFFFFFFFFF, 0x0, 0x0, 0x0, 0x0⟩]

/-- Register families of unit TEST. -/
def famsTest : List RegFam := [
  ⟨0x200050000, 1, 0x8, 1, 0x8, 0xFFFF0001, 0x0, 0x0, 0x0, 0x1000000⟩,
  ⟨0x200050008, 1, 0x8, 1, 0x8, 0xFFFFFFFF0000, 0x2, 0x0, 0x0, 0x0⟩,
  ⟨0x200050010, 1, 0x8, 1, 0x8, 0x0, 0x0, 0x0, 0x0, 0x0⟩,
  ⟨0x200050018, 1, 0x8, 1, 0x8, 0x0, 0x8000000000000000, 0x0, 0x0, 0x0⟩,
  ⟨0x200050800, 24, 0x80, 1, 0x80, 0xFFF, 0x0, 0x0, 0x0, 0x0⟩,
  ⟨0x200050808, 24, 0x80, 8, 0x8, 0xFFFFF, 0x0, 0x0, 0x0, 0x0⟩]

/-- Register families of unit LINK. -/
def famsLink : List RegFam := [
  ⟨0x200100000, 16, 0x1000, 1, 0x1000, 0xFF0D, 0x0, 0x0, 0x0, 0x1000⟩,
  ⟨0x200100008, 16, 0x1000, 1, 0x1000, 0x0, 0xF00, 0x0, 0x0, 0x0⟩,
  ⟨0x200100010, 16, 0x1000, 1, 0x1000, 0xFFF, 0x0, 0x0, 0x0, 0x80⟩,
  ⟨0x200100018, 16, 0x1000, 1, 0x1000, 0x0, 0x0, 0x0, 0x0, 0x0⟩,
  ⟨0x200100020, 16, 0x1000, 1, 0x1000, 0x0, 0x0, 0x0, 0x0, 0x0⟩,
  ⟨0x200100028, 16, 0x1000, 1, 0x1000, 0x800000000003FFFF, 0x0, 0x0, 0x0, 0x0⟩,
  ⟨0x200100030, 16, 0x1000, 1, 0x1000, 0x1FFF1FFF, 0x0, 0x0, 0x0, 0x0⟩,
  ⟨0x200100038, 16, 0x1000, 1, 0x1000, 0xFFFFFFFFFFFFFFFF, 0x0, 0x0, 0x0, 0x0⟩,
  ⟨0x200110000, 1, 0x8, 1, 0x8, 0x0, 0x0, 0x0, 0x0, 0x0⟩,
  ⟨0x200110008, 1, 0x8, 1, 0x8, 0x1F, 0x0, 0x0, 0x0, 0x1F⟩,
  ⟨0x200110010, 1, 0x8, 1, 0x8, 0xFFFF0000, 0x8000000000000000, 0x0, 0x0, 0x0⟩]

/-- Register families of unit SQ. -/
def famsSq : List RegFam := [
  ⟨0x200400000, 8, 0x1000, 1, 0x1000, 0x49, 0x0, 0x0, 0x0, 0x0⟩,
  ⟨0x200400008, 8, 0x1000, 1, 0x1000, 0x3FFFC0000, 0x20000, 0x0, 0x0, 0x0⟩,
  ⟨0x200400010, 8, 0x1000, 1, 0x1000, 0xFFFFFFFF, 0x0, 0x0, 0x0, 0x40FFF⟩,
  ⟨0x200400018, 8, 0x1000, 1, 0x1000, 0xFFFFFFFFFFFFFFFF, 0x0, 0x0, 0x0, 0x0⟩,
  ⟨0x200400020, 8, 0x1000, 1, 0x1000, 0x0, 0x0, 0x0, 0x0, 0x0⟩,
  ⟨0x200400028, 8, 0x1000, 1, 0x1000, 0x0, 0x0, 0x0, 0x0, 0x0⟩,
  ⟨0x200400030, 8, 0x1000, 1, 0x1000, 0xFFFFFFFFFFFFFFFF, 0x0, 0x0, 0x0, 0x0⟩,
  ⟨0x200400038, 8, 0x1000, 1, 0x1000, 0x1, 0x18, 0x0, 0x0, 0x0⟩,
  ⟨0x200400040, 8, 0x1000, 1, 0x1000, 0xFFFF1FFFFF, 0x0, 0x0, 0x0, 0x1F0000⟩,
  ⟨0x200400048, 8, 0x1000, 1, 0x1000, 0xFFFFFFFFFFFFF, 0x0, 0x0, 0x0, 0x3271000004000⟩,
  ⟨0x200400050, 8, 0x1000, 1, 0x1000, 0xF1FF3FFF, 0x0, 0x0, 0x0, 0xC0100000⟩,
  ⟨0x200400058, 8, 0x1000, 1, 0x1000, 0x0, 0x1000000000000, 0x0, 0x0, 0x0⟩,
  ⟨0x200400060, 8, 0x1000, 1, 0x1000, 0x0, 0x8000000000000000, 0x0, 0x0, 0x0⟩,
  ⟨0x200400068, 8, 0x1000, 1, 0x1000, 0x0, 0x0, 0x0, 0x0, 0x0⟩,
  ⟨0x200400070, 8, 0x1000, 1, 0x1000, 0x0, 0x0, 0x0, 0x0, 0x0⟩,
  ⟨0x200408008, 1, 0x8, 1, 0x8, 0x0, 0x0, 0x0, 0x0, 0x0⟩,
  ⟨0x200400078, 8, 0x1000, 1, 0x1000, 0x0, 0x1, 0x0, 0x0, 0x0⟩,
  ⟨0x200408010, 1, 0x8, 1, 0x8, 0x0, 0x1, 0x0, 0x0, 0x0⟩,
  ⟨0x200400080, 8, 0x1000, 1, 0x1000, 0x1FF, 0x0, 0x0, 0x0, 0x0⟩,
  ⟨0x200400088, 8, 0x1000, 1, 0x1000, 0xFFFF00000000000, 0x8000000000000000, 0x0, 0x0, 0x0⟩,
  ⟨0x200400090, 8, 0x1000, 1, 0x1000, 0xFFFFFFFFFFFFFFFF, 0x0, 0x0, 0x0, 0x0⟩,
  ⟨0x200400100, 8, 0x1000, 4, 0x10, 0x1FFFFFFFF000, 0x0, 0x0, 0x0, 0xC0000000000⟩,
  ⟨0x200400108, 8, 0x1000, 2, 0x10, 0xFFFFFFFF, 0x0, 0x0, 0x0, 0x0⟩,
  ⟨0x200400128, 8, 0x1000, 2, 0x10, 0xFFFFFFFF00000000, 0x0, 0x0, 0x0, 0x0⟩,
  ⟨0x200408000, 1, 0x8, 1, 0x8, 0x7, 0x0, 0x0, 0x0, 0x0⟩,
  ⟨0x200408800, 24, 0x80, 1, 0x80, 0x3FF, 0x0, 0x0, 0x0, 0x0⟩,
  ⟨0x200408808, 24, 0x80, 8, 0x8, 0x7FFF, 0x0, 0x0, 0x0, 0x0⟩,
  ⟨0x20040A000, 32, 0x8, 1, 0x8, 0xFFFFFFFFFFFFFFFF, 0x0, 0x0, 0x0, 0x0⟩]

/-- Register families of unit DEV. -/
def famsDev : List RegFam := [
  ⟨0x200000100, 1, 0x8, 1, 0x8, 0x0, 0x0, 0x0, 0x0, 0x1FFF⟩,
  ⟨0x200000110, 4, 0x10, 1, 0x10, 0xFFFFFFFFFFFFFFFF, 0x0, 0x0, 0x0, 0x0⟩,
  ⟨0x200000000, 1, 0x8, 1, 0x8, 0x0, 0x0, 0x0, 0x0, 0x20192⟩,
  ⟨0x200000008, 1, 0x8, 1, 0x8, 0xFFFF0000, 0x0, 0x0, 0x0, 0x0⟩,
  ⟨0x200000010, 1, 0x8, 1, 0x8, 0x0, 0x0, 0x1FFFF, 0x20000, 0x100000001000⟩,
  ⟨0x200000018, 2, 0x8, 1, 0x8, 0x0, 0x0, 0x0, 0x0, 0x0⟩]

/-- Register families of unit HP. -/
def famsHp : List RegFam := [
  ⟨0x200200000, 4, 0x100, 1, 0x100, 0x0, 0x600, 0x0, 0x0, 0x0⟩,
  ⟨0x200200008, 4, 0x100, 1, 0x100, 0x0, 0x0, 0x0, 0x0, 0x0⟩,
  ⟨0x200200010, 4, 0x100, 1, 0x100, 0xFFFFFFFFFFFFFFFF, 0x0, 0x0, 0x0, 0x0⟩,
  ⟨0x200200018, 4, 0x100, 1, 0x100, 0x300, 0x3, 0x0, 0x0, 0x0⟩,
  ⟨0x200201000, 8, 0x100, 1, 0x100, 0x0, 0x0, 0x0, 0x0, 0x0⟩,
  ⟨0x200201008, 8, 0x100, 3, 0x8, 0x0, 0x0, 0x0, 0x0, 0x0⟩,
  ⟨0x200201020, 8, 0x100, 1, 0x100, 0x0, 0x0, 0x0, 0x0, 0x0⟩,
  ⟨0x200201028, 8, 0x100, 1, 0x100, 0x0, 0x0, 0x0, 0x0, 0x0⟩]

/-- Register families of unit MGMT. -/
def famsMgmt : List RegFam := [
  ⟨0x200600000, 4, 0x1000, 1, 0x1000, 0x2, 0x0, 0x0, 0x0, 0x0⟩,
  ⟨0x200600008, 4, 0x1000, 1, 0x1000, 0x0, 0x2, 0x0, 0x0, 0x0⟩,
  ⟨0x300A40000, 1, 0x8, 1, 0x8, 0x1, 0x0, 0x0, 0x0, 0x1⟩,
  ⟨0x300A40008, 1, 0x8, 1, 0x8, 0xFFFF, 0x0, 0x0, 0x0, 0x665F⟩,
  ⟨0x300A40100, 56, 0x8, 1, 0x8, 0x0, 0x3000, 0x0, 0x0, 0x0⟩,
  ⟨0x300A40300, 32, 0x8, 1, 0x8, 0xFFFFFF000, 0x3000000000, 0x0, 0x0, 0xFFF000000⟩,
  ⟨0x300A40400, 24, 0x8, 1, 0x8, 0xFFFF, 0x0, 0x0, 0x0, 0x0⟩]

/-- Register families of unit DMA. -/
def famsDma : List RegFam := [
  ⟨0x200020000, 1, 0x8, 1, 0x8, 0x1, 0x0, 0x0, 0x0, 0x0⟩,
  ⟨0x200020008, 1, 0x8, 1, 0x8, 0x0, 0x0, 0x0, 0x0, 0x10000⟩,
  ⟨0x200021000, 32, 0x40, 1, 0x40, 0x0, 0x0, 0x0, 0x0, 0x0⟩,
  ⟨0x200021008, 32, 0x40, 1, 0x40, 0x0, 0x8, 0x0, 0x0, 0x4⟩,
  ⟨0x200021010, 32, 0x40, 1, 0x40, 0x1FFFFFF, 0x0, 0x0, 0x0, 0x20FFFF⟩,
  ⟨0x200021018, 32, 0x40, 1, 0x40, 0xFFFFFFFFFFFFFFC0, 0x0, 0x0, 0x0, 0x0⟩,
  ⟨0x200021020, 32, 0x40, 1, 0x40, 0x0, 0x0, 0x0, 0x0, 0x0⟩,
  ⟨0x200021028, 32, 0x40, 1, 0x40, 0x0, 0x0, 0x0, 0x0, 0x0⟩,
  ⟨0x200021030, 32, 0x40, 1, 0x40, 0x0, 0x0, 0x0, 0x0, 0x0⟩]

/-- Register families of unit ISC. -/
def famsIsc : List RegFam := [
  ⟨0x200010000, 1, 0x8, 1, 0x8, 0x1, 0x0, 0x0, 0x0, 0x1⟩,
  ⟨0x200010008, 1, 0x8, 1, 0x8, 0x0, 0x7, 0x0, 0x0, 0x0⟩,
  ⟨0x200010010, 1, 0x8, 1, 0x8, 0x0, 0x0, 0x0, 0x0, 0x0⟩,
  ⟨0x200010018, 1, 0x8, 1, 0x8, 0xFFFFFFFF, 0xFFFFFFFF00000000, 0x0, 0x0, 0x0⟩,
  ⟨0x200010020, 4, 0x8, 1, 0x8, 0xFFFFFFFFFFFFFFFF, 0x0, 0x0, 0x0, 0x0⟩,
  ⟨0x200011040, 254, 0x40, 1, 0x40, 0xFFFFFF01, 0x0, 0x0, 0x0, 0x101⟩,
  ⟨0x200011048, 254, 0x40, 4, 0x8, 0xFFFFFFFFFFFFFFFF, 0x0, 0x0, 0x0, 0x0⟩,
  ⟨0x200011068, 254, 0x40, 1, 0x40, 0x0, 0x0, 0x0, 0x0, 0x0⟩,
  ⟨0x200011070, 254, 0x40, 1, 0x40, 0x0, 0x0, 0x0, 0x0, 0x0⟩,
  ⟨0x200011078, 254, 0x40, 1, 0x40, 0x0, 0x0, 0x0, 0x0, 0x0⟩,
  ⟨0x200015000, 1, 0x8, 1, 0x8, 0x0, 0x0, 0x0, 0x0, 0x0⟩,
  ⟨0x200015008, 1, 0x8, 1, 0x8, 0x0, 0x0, 0x0, 0x0, 0x0⟩,
  ⟨0x200015010, 5, 0x8, 1, 0x8, 0x0, 0x0, 0x0, 0x0, 0x0⟩,
  ⟨0x200016000, 197, 0x8, 1, 0x8, 0x0, 0x0, 0x0, 0x0, 0x0⟩]

/-- Register families of unit UMX. -/
def famsUmx : List RegFam := [
  ⟨0x200700000, 1, 0x8, 1, 0x8, 0x0, 0x0, 0x0, 0x0, 0x0⟩,
  ⟨0x200700008, 1, 0x8, 1, 0x8, 0x0, 0x0, 0x0, 0x0, 0x0⟩,
  ⟨0x200700010, 1, 0x8, 1, 0x8, 0x0, 0x0, 0x0, 0x0, 0x0⟩,
  ⟨0x200700018, 1, 0x8, 1, 0x8, 0x0, 0x0, 0x0, 0x0, 0x0⟩,
  ⟨0x200700020, 1, 0x8, 1, 0x8, 0x0, 0x0, 0x0, 0x0, 0x0⟩,
  ⟨0x200700028, 1, 0x8, 1, 0x8, 0x0, 0x0, 0x0, 0x0, 0x0⟩,
  ⟨0x200700030, 1, 0x8, 1, 0x8, 0x0, 0x0, 0x0, 0x0, 0x0⟩,
  ⟨0x200700038, 1, 0x8, 1, 0x8, 0x0, 0x0, 0x0, 0x0, 0x0⟩,
  ⟨0x200700040, 1, 0x8, 1, 0x8, 0x0, 0x0, 0x0, 0x0, 0x0⟩,
  ⟨0x200700048, 1, 0x8, 1, 0x8, 0x0, 0x0, 0x0, 0x0, 0x3C0000003C⟩,
  ⟨0x200700050, 1, 0x8, 1, 0x8, 0x0, 0x0, 0x0, 0x0, 0x0⟩,
  ⟨0x200700058, 1, 0x8, 1, 0x8, 0x0, 0x0, 0x0, 0x0, 0x0⟩,
  ⟨0x200700060, 1, 0x8, 1, 0x8, 0x0, 0x0, 0x0, 0x0, 0x0⟩,
  ⟨0x200700068, 1, 0x8, 1, 0x8, 0x0, 0x0, 0x0, 0x0, 0x0⟩,
  ⟨0x200700080, 8, 0x8, 1, 0x8, 0x0, 0x0, 0x0, 0x0, 0x0⟩]

/-- Register families of unit PATCH. -/
def famsPatch : List RegFam := [
  ⟨0x300A70000, 16, 0x10, 1, 0x10, 0x0, 0x0, 0x1FFFFFC, 0x0, 0x0⟩,
  ⟨0x300A70008, 16, 0x10, 1, 0x10, 0x0, 0x0, 0xFFFFFFFF, 0x0, 0x0⟩,
  ⟨0x300A70100, 1, 0x8, 1, 0x8, 0x0, 0x0, 0x0, 0x1, 0x0⟩]

/-- Register families of unit DBG. -/
def famsDbg : List RegFam := [
  ⟨0x200800000, 1, 0x8, 1, 0x8, 0x3, 0x0, 0x0, 0x0, 0x0⟩,
  ⟨0x200800008, 1, 0x8, 1, 0x8, 0x0, 0x0, 0x0, 0x0, 0x0⟩,
  ⟨0x200800010, 3, 0x8, 1, 0x8, 0x0, 0x0, 0x0, 0x0, 0x0⟩,
  ⟨0x200800028, 3, 0x8, 1, 0x8, 0x0, 0x0, 0x0, 0x0, 0x0⟩,
  ⟨0x200800040, 3, 0x8, 1, 0x8, 0x0, 0x0, 0x0, 0x0, 0x0⟩,
  ⟨0x200800058, 3, 0x8, 1, 0x8, 0x0, 0x0, 0x0, 0x0, 0x0⟩,
  ⟨0x200800070, 3, 0x8, 1, 0x8, 0xFFFFFFFFFFFFFFFF, 0x0, 0x0, 0x0, 0x0⟩,
  ⟨0x200800088, 1, 0x8, 1, 0x8, 0x1, 0x0, 0x0, 0x0, 0x0⟩,
  ⟨0x200800100, 1, 0x8, 1, 0x8, 0x0, 0x0, 0x0, 0x0, 0x0⟩,
  ⟨0x200800108, 1, 0x8, 1, 0x8, 0x0, 0x2, 0x0, 0x0, 0x0⟩,
  ⟨0x200800110, 1, 0x8, 1, 0x8, 0xFFFFFFFF, 0x0, 0x0, 0x0, 0x0⟩,
  ⟨0x200800118, 1, 0x8, 1, 0x8, 0xFFFFFFFF, 0x0, 0x0, 0x0, 0x0⟩,
  ⟨0x200800200, 32, 0x8, 1, 0x8, 0xFFFFFFFF, 0x0, 0x0, 0x0, 0x0⟩,
  ⟨0x200800300, 1, 0x8, 1, 0x8, 0x800000FFFFFFFFF8, 0x0, 0x0, 0x0, 0x0⟩,
  ⟨0x200800308, 1, 0x8, 1, 0x8, 0xFFFFFFFFFFFFFFFF, 0x0, 0x0, 0x0, 0x0⟩]

/-- Register families of unit PWR. -/
def famsPwr : List RegFam := [
  ⟨0x200500000, 1, 0x8, 1, 0x8, 0x10, 0xC, 0x0, 0x0, 0x3⟩,
  ⟨0x200500008, 1, 0x8, 1, 0x8, 0x0, 0x0, 0x0, 0x0, 0x0⟩,
  ⟨0x200500010, 1, 0x8, 1, 0x8, 0x0, 0x0, 0x0, 0x0, 0x0⟩,
  ⟨0x200500018, 1, 0x8, 1, 0x8, 0x3FFFFFFF, 0x0, 0x0, 0x0, 0x0⟩,
  ⟨0x200500020, 1, 0x8, 1, 0x8, 0x0, 0x3FFFFFFF, 0x0, 0x0, 0x0⟩,
  ⟨0x200500028, 1, 0x8, 1, 0x8, 0xF, 0x0, 0x0, 0x0, 0x0⟩,
  ⟨0x200500030, 1, 0x8, 1, 0x8, 0x0, 0x0, 0x0, 0x0, 0x0⟩,
  ⟨0x200500038, 1, 0x8, 1, 0x8, 0xFFFFFFFFFFFFFFFF, 0x0, 0x0, 0x0, 0x0⟩,
  ⟨0x200500040, 1, 0x8, 1, 0x8, 0x0, 0x0, 0x0, 0x0, 0x0⟩,
  ⟨0x200500048, 1, 0x8, 1, 0x8, 0xFFFFFF01, 0x0, 0x0, 0x0, 0x501⟩,
  ⟨0x200500050, 1, 0x8, 1, 0x8, 0xFFFF0001, 0x0, 0x0, 0x0, 0x1⟩,
  ⟨0x200500058, 1, 0x8, 1, 0x8, 0xFFF, 0x1000, 0x0, 0x0, 0x320⟩,
  ⟨0x200500100, 6, 0x8, 1, 0x8, 0xFF, 0x0, 0x0, 0x0, 0xA0⟩,
  ⟨0x200500200, 24, 0x8, 1, 0x8, 0x3, 0x0, 0x0, 0x0, 0x33⟩,
  ⟨0x200500060, 1, 0x8, 1, 0x8, 0x0, 0xE3, 0x0, 0x0, 0x1⟩]

/-- The families of the unit window that holds a device address (R233). -/
def famsAt (a : Nat) : List RegFam :=
  if a < 0x0200000000 then []
  else if a < 0x200010000 then famsDev
  else if a < 0x200020000 then famsIsc
  else if a < 0x200030000 then famsDma
  else if a < 0x200040000 then famsMem
  else if a < 0x200050000 then famsScrub
  else if a < 0x200060000 then famsTest
  else if a < 0x200100000 then []
  else if a < 0x200200000 then famsLink
  else if a < 0x200300000 then famsHp
  else if a < 0x200400000 then famsDdr
  else if a < 0x200500000 then famsSq
  else if a < 0x200600000 then famsPwr
  else if a < 0x200700000 then famsMgmt
  else if a < 0x200800000 then famsUmx
  else if a < 0x200900000 then famsDbg
  else famsMgmt ++ famsPatch

/-- The register family at a device address, if a register stands there. -/
def famAt (a : Nat) : Option RegFam := (famsAt a).find? (fun r => r.hits a)

/-- One ECS register family: first index, count, bits set by a write, bits cleared by writing 1, reset value. -/
structure EcsFam where
  idx : Nat
  cnt : Nat
  rw : Nat
  w1c : Nat
  reset : Nat
  deriving DecidableEq, Repr

/-- The ECS register families. -/
def ecsFams : List EcsFam := [
  ⟨0, 1, 0x1F, 0x0, 0x1⟩,
  ⟨1, 1, 0x0, 0x1, 0x0⟩,
  ⟨2, 1, 0x1FFF8, 0x0, 0x0⟩,
  ⟨3, 1, 0x0, 0x0, 0x0⟩,
  ⟨4, 1, 0x0, 0x0, 0x0⟩,
  ⟨8, 1, 0x3F0F, 0xF0, 0x0⟩,
  ⟨9, 1, 0xFFFFFFFF, 0x0, 0x0⟩,
  ⟨10, 4, 0xFFFFFFFFFFFF, 0x0, 0x0⟩,
  ⟨16, 1, 0x7F0001FFFC, 0x0, 0x0⟩,
  ⟨17, 1, 0x0, 0xF, 0x0⟩,
  ⟨18, 1, 0x0, 0x2, 0x0⟩,
  ⟨19, 1, 0x1FF, 0x0, 0x0⟩,
  ⟨20, 1, 0x0, 0x3F, 0x0⟩,
  ⟨21, 1, 0x0, 0x0, 0x0⟩,
  ⟨22, 3, 0x0, 0x0, 0x0⟩,
  ⟨32, 16, 0xFFFFFFFF, 0x0, 0x0⟩,
  ⟨48, 16, 0xFFFFFFFF, 0x0, 0x0⟩,
  ⟨64, 8, 0xFFFFFFFFFFFFFFFF, 0x0, 0x0⟩,
  ⟨72, 1, 0xFFFFFFFFFFFFFFFF, 0x0, 0x0⟩,
  ⟨73, 1, 0x0, 0xFFFF, 0x0⟩,
  ⟨76, 4, 0xFFFFFFFF, 0x0, 0x0⟩,
  ⟨80, 4, 0x1FFFC, 0x0, 0x0⟩,
  ⟨84, 4, 0x3FFFC, 0x0, 0x0⟩,
  ⟨88, 1, 0x0, 0x0, 0x0⟩,
  ⟨96, 1, 0x1FE00, 0x0, 0x0⟩,
  ⟨97, 1, 0x0, 0x0, 0x0⟩,
  ⟨98, 1, 0x1FFFC, 0x0, 0x0⟩,
  ⟨99, 1, 0x0, 0x0, 0x0⟩,
  ⟨100, 1, 0x0, 0x0, 0x0⟩,
  ⟨101, 1, 0x0, 0x0, 0x0⟩,
  ⟨102, 1, 0x17, 0xE0, 0x0⟩,
  ⟨103, 1, 0x0, 0x0, 0x0⟩,
  ⟨104, 1, 0x0, 0x0, 0x0⟩,
  ⟨112, 16, 0xFFFFFFFFFFFFFFFF, 0x0, 0x0⟩,
  ⟨128, 1, 0xFE, 0x0, 0x0⟩,
  ⟨144, 8, 0xFFF, 0x0, 0x0⟩,
  ⟨152, 1, 0xFFFFFFFF, 0x0, 0x0⟩,
  ⟨160, 1, 0x0, 0x0, 0x0⟩,
  ⟨161, 1, 0x0, 0x0, 0x0⟩,
  ⟨162, 1, 0x0, 0x0, 0x0⟩,
  ⟨163, 1, 0x0, 0x0, 0x0⟩,
  ⟨192, 1, 0x1, 0x0, 0x0⟩,
  ⟨193, 4, 0x800000000001FFFC, 0x0, 0x0⟩,
  ⟨197, 1, 0x0, 0x0, 0x0⟩,
  ⟨198, 1, 0x1FFFC, 0x0, 0x0⟩]

/-- The ECS register family at an ECS index. -/
def ecsAt (i : Nat) : Option EcsFam := ecsFams.find? (fun r => r.idx ≤ i && i < r.idx + r.cnt)

/-- The reset value of the ECS register at an index (0 where no register stands). -/
def ecsReset (i : Nat) : BitVec 64 :=
  match ecsAt i with
  | some r => BitVec.ofNat 64 r.reset
  | none => 0

end Sys2Proof.Machine
end

