-- ==== Sys2Proof/Machine/State.lean ====
section
/-! DEFINITION. The state of the DX192 as plain data, and the state right after reset. Every piece of state the spec
names is listed in INVENTORY.md with its rule. -/

namespace Sys2Proof.Machine

/-! ### Engines -/

/-- Where a result in flight goes: a register, or sticky bits of an ECS register (index, mask). -/
inductive Dst where
  | a (i : Nat) | n (i : Nat) | acc (i : Nat) | p (i : Nat) | x (i : Nat) | inc (i : Nat)
  | lc (i : Nat) | ls (i : Nat) | le (i : Nat)
  | sticky (idx mask : Nat)
  | copyA (i : Nat) (sh : Bool)  -- a far load's A register, in the copy that was visible when it issued (R220)
  deriving DecidableEq, Repr

/-- A result in flight (R54): written at the end of ECLK `due`; issued at `iss` from slot `slot` (N0 = 0 to D1 = 6, the
header 7). 8 is a far load's result and 9 a Quince result, which come through the long-result port. -/
structure PendWr where
  due  : Nat
  iss  : Nat
  slot : Nat
  dst  : Dst
  val  : NetWord
  deriving DecidableEq, Repr

/-- An ECS write by MVTE that takes effect from bundle number `seq` (R79). -/
structure EcsWr where
  idx : Nat
  val : Word
  seq : Nat
  deriving DecidableEq, Repr

/-- A store into IM that fetches see from bundle number `seq` (R73): its offset, its size, the bytes it replaced, and
the ECLK in which its IM bank is written (R74), 0 for a store by another master (R77). -/
structure ImSt where
  off : Nat
  len : Nat
  old : Nat
  seq : Nat
  at_ : Nat
  deriving DecidableEq, Repr

/-- A Quince operation with its captured operands (R136). `due` is the ECLK at whose end it writes; `trap` its FP trap
record where it met a condition of R169 in timed lock-step (R172); `hold` says that it holds the next bundle (R170). -/
structure QOp where
  opc  : Nat
  s    : Bool
  s1   : Word
  s2   : Word
  ql   : BitVec 2048
  dest : Nat
  iss  : Nat
  due  : Nat
  fpctl : Nat
  bpc  : Nat
  trap : Option (Nat × Nat × Nat × Nat)
  hold : Bool
  deriving DecidableEq, Repr

/-- A far load in flight (R308): engine-local EA, device address, size, destination, the bank copy that was visible
when it issued (R220), issue ECLK and bundle, and
the ECLK at whose end its result is written, once known. -/
structure FarLd where
  ea   : Nat
  dev  : Nat
  size : Nat
  dst  : Dst
  copy : Bool
  iss  : Nat
  bpc  : Nat
  doneAt : Option Nat
  deriving DecidableEq, Repr

/-- Loop registers and states of one bank (R190): 0 IDLE, 1 ARMED, 2 ACTIVE. -/
structure LoopRegs where
  lc : Store Nat
  ls : Store Nat
  le : Store Nat
  st : Store Nat
  deriving DecidableEq, Repr

/-- What the loop unit has still to see or record (R192, R193), in recording order. -/
inductive LoopEv where
  | wr (t q kind k v : Nat)            -- a write at ECLK t that MVFE sees from bundle q on: kind 0 LC, 1 LS, 2 LE, 3 CLR
  | dec (k : Nat) (act : Nat)          -- a decision on loop k: 0 loops back, 1 becomes IDLE with count 0, 2 ACTIVE
  deriving DecidableEq, Repr

/-- The repeat cache (R196): the loop it serves, its bundles so far, and the ECLK at which its fill completed. -/
structure RepCache where
  loop  : Nat
  fill  : Bool
  ents  : Store NetWord
  cnt   : Nat
  doneAt : Option Nat
  deriving DecidableEq, Repr

/-- A trap waiting for its entry (R211–R216). `b` is the ECLK of the boundary at which entry begins; `fp` what ECS.FPTRAP
and ECS.FPOP0–FPOP2 take (R179). -/
structure Trap where
  code  : Nat
  slots : Nat
  exe   : Bool
  ret   : Nat
  retWait : Bool
  bpc   : Nat
  addr  : Nat
  svc   : Nat
  sysp  : Bool
  b     : Nat
  fp    : Option (Nat × Nat × Nat × Nat)
  deriving DecidableEq, Repr

/-- A load that read poison (R215): the data-error trap is taken at the first boundary at or after ECLK `at_`. -/
structure DataErr where
  at_  : Nat
  addr : Nat
  bpc  : Nat
  slot : Nat
  deriving DecidableEq, Repr

/-- What an engine is doing. -/
inductive Phase where
  | unreleased   -- not released, or not of a running share
  | running      -- issues bundles
  | waitBoundary -- its DCEND bundle issued; it waits for the design-cycle boundary (R114)
  | returning    -- an RTE bundle issued; RTE_RETURN ends the sequence (R226)
  | stopped      -- stopped by a double fault (R221)
  deriving DecidableEq, Repr

/-- A D-slot access of the Arcade bank through port A, kept for the collision rule (R251): issue ECLK, ECLK of the access,
first byte offset, length, whether it loads, where the value goes and how an A register extends it (0 not, 1 zero, 2 sign). -/
structure PortA where
  iss  : Nat
  at_  : Nat
  off  : Nat
  len  : Nat
  load : Bool
  dst  : Dst
  ext  : Nat
  deriving DecidableEq, Repr

/-- A store of the latest bundle into the NEXT area (R116): the ECLK in which it writes, offset, length, the bytes it
replaced, and the written bits it set that were clear. -/
structure NextSt where
  at_ : Nat
  off : Nat
  len : Nat
  old : Nat
  set : BitVec 2048
  deriving DecidableEq, Repr

/-- One engine (R41, spec/02–07). `shA`, `shP`, `shL` are the copies of A0–A15, P1–P7 and the loop registers that are not
visible (R219). `ecs` holds the ECS registers that have no field of their own, by index. `pmHost` holds the PM bytes
(offset, length) that another master wrote since the release (R107). `haltReq` is a halt request: its cause, plus 4 times the
number of the breakpoint (R531, R542). `cntT` is the last ECLK that the performance counters have counted but for `perfDue`, the
increments of the four counters in ECLK `lastT` (R86). `setRec` keeps the sticky bits set last, as (ECLK, index, mask) (R123);
`nextSt` the NEXT stores of the latest bundle; `pendAt` the first ECLK with ECS.INTSTAT.PEND at 1 (R222). -/
structure Engine where
  a    : Store Word
  n    : Store NetWord
  acc  : Store AccWord
  p    : BitVec 16
  x    : Store (BitVec 32)
  inc  : Store (BitVec 32)
  k    : Word
  loops : LoopRegs
  ecs  : Store Word
  shA  : Store Word
  shP  : BitVec 16
  shL  : LoopRegs
  ql   : Store NetWord
  quince : Option QOp
  parked : Option QOp
  far  : List FarLd
  pend : List PendWr
  ecsPend : List EcsWr
  imPend : List ImSt
  pmHost : List (Nat × Nat)
  loopBase : LoopRegs
  loopEvs : List LoopEv
  rc   : Option RepCache
  rcOld : Option (RepCache × Nat)
  btb  : Store (Nat × Nat × Nat)
  btbPtr : Nat
  written : BitVec 2048
  phase : Phase
  halted : Bool
  haltReq : Option Nat
  brkSkip : Bool
  wcn : Nat
  stepReq : Bool
  pc   : Nat
  fetchAt : Nat
  issueAt : Nat
  lastT : Nat
  seq  : Nat
  imBusy : List (Nat × Nat × Nat)
  first : Bool
  trap : Option Trap
  derr : List DataErr
  retWait : List Bool
  rteAt : Nat
  portA : List PortA
  relPriv : Bool
  relIe : Bool
  bnd : Nat × Nat
  cntT : Nat
  perfDue : List Nat
  setRec : List (Nat × Nat × Nat)
  nextSt : List NextSt
  pendAt : Nat
  deriving DecidableEq, Repr

/-- Loop registers at reset. -/
def LoopRegs.reset : LoopRegs := ⟨[], [], [], []⟩

/-- An engine before its first release after reset (R43, R81): all registers zero, SUPER, not released. -/
def Engine.reset : Engine where
  a := []
  n := []
  acc := []
  p := 0
  x := []
  inc := []
  k := 0
  loops := LoopRegs.reset
  ecs := []
  shA := []
  shP := 0
  shL := LoopRegs.reset
  ql := []
  quince := none
  parked := none
  far := []
  pend := []
  ecsPend := []
  imPend := []
  pmHost := []
  loopBase := LoopRegs.reset
  loopEvs := []
  rc := none
  rcOld := none
  btb := []
  btbPtr := 0
  written := 0
  phase := .unreleased
  halted := false
  haltReq := none
  brkSkip := false
  wcn := 0
  stepReq := false
  pc := 0
  fetchAt := 0
  issueAt := 0
  lastT := 0
  seq := 0
  imBusy := []
  first := false
  trap := none
  derr := []
  retWait := []
  rteAt := 0
  portA := []
  relPriv := false
  relIe := false
  bnd := (0, 0)
  cntT := 0
  perfDue := []
  setRec := []
  nextSt := []
  pendAt := 0

/-! ### Moving nets -/

/-- A scheduled transfer on its way (R300, R327, R328): the sender (engine number, or none for a link write or link
read), the target (an engine, or 192 + a Caluf port), the bank offset, the bytes, the ECLK at which it arrives, whether it
crosses the Boulevard, its route, where it lost (router, input, ECLK), and whether `data` is a 160-bit code word. -/
structure Put where
  src  : Option Nat
  tgt  : Nat
  off  : Nat
  size : Nat
  data : NetWord
  vis  : Nat
  brd  : Bool
  route : List (Nat × Nat × Nat × Nat)
  lost : Option (Nat × Nat × Nat)
  raw  : Bool
  deriving DecidableEq, Repr

/-- A far store on its way (R309). -/
structure FarSt where
  eng  : Nat
  dev  : Nat
  size : Nat
  data : NetWord
  iss  : Nat
  deriving DecidableEq, Repr

/-- A corrected or poisoned word waiting for its rewrite in the repair entry of a bank or DDR port (R277, R278):
`addr` is the word's device address plus 1, 0 when the entry is free. -/
structure Repair where
  addr : Nat
  poison : Bool
  deriving DecidableEq, Repr

/-- A store whose bytes loads do not see yet (R54, R58): engine, device address, size, the bytes it replaced, its issue ECLK and the
first ECLK at which an issuing load sees it. Loads that issue at `iss` over the Avenue from later engines see it too (R246). -/
structure StVis where
  eng  : Nat
  addr : Nat
  len  : Nat
  old  : Nat
  iss  : Nat
  vis  : Nat
  deriving DecidableEq, Repr

/-! ### Shares of partitions -/

/-- An undo-journal entry in the index of the journal (R355, R356): where it is stored, the address of the row, the
interval number and the DCN of the writing design cycle. The entry itself, the old row in its second half, is memory. -/
structure JEntry where
  at_ : Nat
  row : Nat
  iv  : Nat
  dcn : Nat
  deriving DecidableEq, Repr

/-- A row of the force table (R361). -/
structure Force where
  addr : Nat
  mask : BitVec 32
  data : NetWord
  deriving DecidableEq, Repr

/-- A command applied at the boundary `m` and not yet committed (R37, R361). -/
structure CmdRec where
  m    : Nat
  kind : Nat
  addr : Nat
  ddr  : Bool
  mask : BitVec 32
  data : NetWord
  raw  : BitVec 512
  deriving DecidableEq, Repr

/-- A REPORT held for combining (R340): end DCN, cause and flags. -/
structure Rep where
  dcn   : Nat
  fail  : Bool
  cause : Nat
  ready : Bool
  stop  : Bool
  hold  : Bool
  deriving DecidableEq, Repr

/-- Why a release is pending (R588): a start, a rollback, or a resumption from a hold. -/
inductive RelKind where
  | start | rollback | hold
  deriving DecidableEq, Repr

/-- The internal state of a share (spec/11). The SQ registers hold the rest. `live`, `comm`, `pendS`, `prior` and `held`
are page-slot numbers 0–3 (R336). Times are ECLK: `relT` and `goNext` name the first ECLK in which the timebase has reached
the T of a GO or DECIDE (R340), `decAt` the arrival of the latest decision, `relAt` that of the RELEASE for `relDcn`.
`bWait` says that a boundary waits for stimulus or capture space; `holdSent` and `holdChild` are the READYs of a hold
(R223, R344), sent and received; `forcedEnd` are the early ends ordered for intervals not yet committed; `ivNum` numbers the interval in progress, `comIv` the last committed one (R355); `lastStC` is the DCN of the
last committed stimulus record and `lastMk` that of the last MARK taken (R358); `sBad` says that poison was read from design
state (R26). -/
structure Share where
  live  : Nat
  comm  : Nat
  pendS : Option Nat
  pendDcn : Nat
  prior : Option Nat
  held  : Option Nat
  heldDcn : Nat
  iStart : Nat
  iEnd  : Nat
  forcedEnd : List Nat
  ivNum : Nat
  comIv : Nat
  goNext : Option Nat
  dStop : Bool
  dHold : Bool
  waitStop : Bool
  stopReq : Bool
  stopSent : Bool
  ownRep : Option Rep
  childRep : Store Rep
  sentUp : Bool
  readyOwn : Bool
  readyChild : List Nat
  holdSent : Bool
  holdChild : List Nat
  goSent : Bool
  failSent : Bool
  lastFail : Nat
  failDcn : Nat
  endSent : Bool
  barOwn : Option Nat
  barChild : Store Nat
  barSent : Bool
  relDcn : Option Nat
  relAt : Nat
  decAt : Nat
  bWait : Bool
  relT  : Option (RelKind × Nat)
  nextB : Nat
  dcCount : Nat
  force : List Force
  forcePend : List Force
  forceCom : List Force
  cmds : List CmdRec
  stRd : Nat
  lastSt : Nat
  lastStC : Nat
  lastMk : Nat
  ilogW : Nat
  ilogRecs : List (Nat × Nat)
  capW : Nat
  capRecs : List (Nat × Nat)
  bj   : Store (List JEntry)
  dj   : List JEntry
  jrows : List Nat
  failAtResume : Option Nat
  jOver : Option Nat
  jHigh : Bool
  sBad : Bool
  cmdRedo : Bool
  openB : Nat
  relFirst : Nat
  deriving DecidableEq, Repr

/-- A share before its partition is created: LIVE in slot 0, COMMITTED in slot 1 (log 3), the rest empty. -/
def Share.reset : Share where
  live := 0
  comm := 1
  pendS := none
  pendDcn := 0
  prior := none
  held := none
  heldDcn := 0
  iStart := 1
  iEnd := 0
  forcedEnd := []
  ivNum := 1
  comIv := 0
  goNext := none
  dStop := false
  dHold := false
  waitStop := false
  stopReq := false
  stopSent := false
  ownRep := none
  childRep := []
  sentUp := false
  readyOwn := false
  readyChild := []
  holdSent := false
  holdChild := []
  goSent := false
  failSent := false
  lastFail := 0
  failDcn := 0
  endSent := false
  barOwn := none
  barChild := []
  barSent := false
  relDcn := none
  relAt := 0
  decAt := 0
  bWait := false
  relT := none
  nextB := 0
  dcCount := 0
  force := []
  forcePend := []
  forceCom := []
  cmds := []
  stRd := 0
  lastSt := 0
  lastStC := 0
  lastMk := 0
  ilogW := 0
  ilogRecs := []
  capW := 0
  capRecs := []
  bj := []
  dj := []
  jrows := []
  failAtResume := none
  jOver := none
  jHigh := false
  sBad := false
  cmdRedo := false
  openB := 0
  relFirst := 1

/-! ### Caluf ports -/

/-- A background packet (R316, R318): SEQ, CLASS, device address at the receiver, 16-byte data words. -/
structure BgPkt where
  seq  : Nat
  cls  : Nat
  addr : Nat
  data : List Nat
  deriving DecidableEq, Repr

/-- The internal state of a Caluf port (spec/10). `k` and `rel` count scheduled flits arrived and released since the
release (R328); `held` are those between them, oldest first; `txDcn` and `txIdx` say which transmit entry comes next in
which design cycle (R327); `map` is the map of the current frame, `mapBad` that its frame flit was uncorrectable (R331);
`pos` is the next frame position (R313), 136 before a first frame flit; `sqq` holds the SQUARE flits that wait behind the
scheduled flits of their cycle (R317); `hits` and `miss` run the frame lock (R314); `probes` counts LATPROBEs of the PIN state (R323); the rest belongs to
background packets (R318). -/
structure LinkP where
  k     : Nat
  rel   : Nat
  held  : List Flit
  txDcn : Nat
  txIdx : Nat
  map   : BitVec 128
  mapBad : Bool
  pos   : Nat
  sqq   : List Flit
  hits  : Nat
  miss  : Nat
  lock  : Bool
  probes : Nat
  rxSeq : Nat
  txSeq : Nat
  replay : List BgPkt
  txq   : List BgPkt
  credits : Nat
  resend : Nat
  deriving DecidableEq, Repr

/-- A port that has not trained. -/
def LinkP.reset : LinkP where
  k := 0
  rel := 0
  held := []
  txDcn := 0
  txIdx := 0
  map := 0
  mapBad := false
  pos := 136
  sqq := []
  hits := 0
  miss := 0
  lock := false
  probes := 0
  rxSeq := 0
  txSeq := 0
  replay := []
  txq := []
  credits := 32
  resend := 0

/-! ### DMA channels -/

/-- Where a DMA channel stands in its descriptor. -/
inductive DmaStage where
  | none       -- nothing to do
  | want       -- its descriptor fetch waits for a turn of the read engine
  | fetch      -- its descriptor fetch is outstanding
  | run        -- its descriptor moves data
  | flush      -- the flush read of a host destination is outstanding
  | done       -- every write is answered; the descriptor completes
  deriving DecidableEq, Repr

/-- An outstanding read request of a channel: its offset in the transfer, its length, and the chunk of the DMA buffer that it
fills. -/
structure DmaReq where
  off   : Nat
  len   : Nat
  chunk : Nat
  deriving DecidableEq, Repr

/-- A chunk that holds source data: the place of the next byte to write in it, and the bytes left. -/
structure DmaFill where
  chunk : Nat
  pos   : Nat
  len   : Nat
  deriving DecidableEq, Repr

/-- A write request without its response: its address, its length, its data, and the SEQ of its packet. -/
structure DmaWr where
  addr : Nat
  len  : Nat
  data : Nat
  seq  : Nat
  deriving DecidableEq, Repr

/-- The internal state of a DMA channel (spec/13): its descriptor, the descriptors fetched since the start, the space of
DMA.CH_CUR, the source bytes requested, the outstanding reads and the filled chunks in order, the destination bytes issued, the
writes without response, the status so far (1 OK), whether the data written is undefined, and whether no further read is issued. -/
structure DmaCh where
  stage : DmaStage
  desc  : BitVec 512
  fetched : Nat
  curHost : Bool
  off   : Nat
  rq    : List DmaReq
  fl    : List DmaFill
  wOff  : Nat
  wOut  : List DmaWr
  status : Nat
  ovl   : Bool
  ended : Bool
  deriving DecidableEq, Repr

def DmaCh.reset : DmaCh := ⟨.none, 0, 0, false, 0, [], [], 0, [], 1, false, false⟩

/-! ### Power, management, metering and debug -/

/-- The Elder domain's view of power (spec/19, spec/20). `st` is the device state: 0 OFF, 1 DORMANT, 2 STANDBY, 3 ACTIVE;
`req` the target of an accepted sleep request that waits for its XTAL32 edge; `rails` says why start-up waits for the rails:
0 it does not, 1 a brown-out or an early release, 2 a DORMANT exit; the flags are the pins asserted and the trip latched
(R576), `below` counts the latest samples in which every sensor read below the release level (R558), `pll` lists
ECLK groups whose PLL relocks, `xspiN` that the flash is held in reset (R583), and `owed` says that a tamper trip still has to be logged (R544). -/
structure Pwr where
  st    : Nat
  req   : Option Nat
  rails : Nat
  slpN  : Bool
  alertN : Bool
  thermN : Bool
  xspiN : Bool
  trip  : Bool
  porst : Bool
  perst : List Nat
  below : Nat
  pll   : List Nat
  owed  : Bool
  deriving DecidableEq, Repr

/-- The power state right after reset. -/
def Pwr.reset : Pwr := ⟨3, none, 0, false, false, false, false, false, false, [], 0, [], false⟩

/-- The management subsystem (spec/16): flash, OTP rows (bits [63:0] data, [71:64] check), the event log (last SEQ, position
of the next entry, last CHAIN, entries since the last seal), the start-up count, the option words in use, the header of the
running image, the latest report, what has happened since start-up (FUSE_DISAGREE, tamper), whether an erase or program runs,
the base of the flash window, whether firmware runs, the device ID that its configuration gave (R5), and the bytes of that
configuration section. -/
structure Mgmt where
  flash : List Host.Cell
  otp   : Store Nat
  logSeq : Nat
  logPos : Nat
  chain : Nat
  unsealed : Nat
  boots : Nat
  opts  : List Nat
  hdr   : List Nat
  report : List Nat
  disagree : Bool
  tamper : Bool
  busy  : Bool
  window : Nat
  running : Bool
  did   : Nat
  cfg   : List Nat
  deriving DecidableEq, Repr

/-- The management subsystem right after reset. -/
def Mgmt.reset : Mgmt := ⟨[], [], 0, 0, 0, 0, 0, [], [], [], false, false, false, 0, false, 0, []⟩

/-- A request that waits for wipes (R389, R393): the partition it destroys, if it does, and the units or granules (with the
flag) that it has released. -/
structure MbxJob where
  part  : Option Nat
  units : List (Bool × Nat)
  deriving DecidableEq, Repr

/-- The mailboxes (R385, R386): request and response buffers by port and word; the requests whose response is not yet
written, in the order of their doorbells: port, request, and whether its response is to be discarded (R374); and what the
first of them waits for. -/
structure Mbx where
  req : Store Word
  rsp : Store Word
  queue : List (Nat × Nat × Bool)
  job : Option MbxJob
  deriving DecidableEq, Repr

/-- The mailboxes right after reset. -/
def Mbx.reset : Mbx := ⟨[], [], [], none⟩

/-- A Damson load that waits for its response (R457): device address, size, signed, destination. -/
structure DamLd where
  a : Nat
  n : Nat
  sgn : Bool
  rd : Nat
  lock : Bool
  deriving DecidableEq, Repr

/-- A divide in flight or kept in DIVSAVE (R464): kind, operands, destination. -/
structure DamDiv where
  sgn : Bool
  rem : Bool
  x : BitVec 32
  y : BitVec 32
  rd : Nat
  deriving DecidableEq, Repr

/-- A line of the Damson core's instruction cache (R459): its number (device address divided by 32), its bytes with the words that
patch units had replaced when it was filled, and the words that a breakpoint unit matched then. -/
structure DamLine where
  line : Nat
  data : BitVec 256
  brk  : BitVec 8
  deriving DecidableEq, Repr

/-- The Damson core beside its debug registers (spec/16), which hold G0–G31, the PC and SR: control registers CAUSE, EPC, ESR
and DVEC; status writes not yet in effect (instructions left, value); while a delay slot is next, where the core goes after it; the
load that waits; the divide in flight; DIVSAVE with PEND and LOST; whether a bus-locked sequence is open; whether the core has
started; whether its next instruction passes patch breakpoints; whether it steps while halted; the lines of the instruction cache,
numbered by twice their set plus their way, and the line buffer (R459). -/
structure Dam where
  cause : Nat
  epc   : Nat
  esr   : BitVec 32
  dvec  : BitVec 32
  srq   : List (Nat × BitVec 32)
  slot  : Option Nat
  ld    : Option DamLd
  div   : Option DamDiv
  saved : DamDiv
  pend  : Bool
  lost  : Bool
  lock  : Bool
  started : Bool
  skip  : Bool
  step  : Bool
  icache : Store (Option DamLine)
  lbuf  : Option DamLine
  deriving DecidableEq, Repr

/-- The Damson core before its first start: KERNEL mode, IE 0. -/
def Dam.reset : Dam := ⟨0, 0, 0, 0, [], none, none, none, ⟨false, false, 0, 0, 0⟩, false, false, false, false, false, false, [], none⟩

/-- An account of the meter (R511, R512): cumulative nJ and the value at the last record, the same for the part from U, then
DCYC, ENGMS and BLKMS of the interval, whether the instance existed and ran in it, and PINST. -/
structure Acct where
  nj    : Nat
  njRec : Nat
  unc   : Nat
  uncRec : Nat
  dcyc  : Nat
  engms : Nat
  blkms : Nat
  valid : Bool
  ran   : Bool
  pinst : Nat
  deriving DecidableEq, Repr

/-- An account with nothing in it. -/
def Acct.reset : Acct := ⟨0, 0, 0, 0, 0, 0, 0, false, false, 0⟩

/-- The Umhater enclave (spec/17) beside its registers: the accumulators in 2⁻³² µJ, their values at the last millisecond and
ETOTAL at the last record; sums of UMX_VS0 and UMX_VS1 and the samples of the millisecond, clipping in it and in the
interval; enclave time in ms, the interval's start, and the flags of its record so far; the accounts 0–7 and 8, the unassigned one; the next PINST;
whether the interval ends early; the records not yet published; the retained copy; the checkpoint position; the record slots; its OTP rows; the seal input's
runs of high and low samples; the update in progress (offset of the staged image); whether a request is in progress; whether the running slot
awaits its CONFIRMED. `dcyc` sums the commits' advances of
SQ.CDCN, and `brk` counts the breaks of the seal in DORMANT that are not logged yet (R504). -/
structure Umx where
  acc0  : Nat
  acc1  : Nat
  ms0   : Nat
  ms1   : Nat
  totRec : Nat
  v0    : Nat
  v1    : Nat
  smp   : Nat
  clip0 : Bool
  clip1 : Bool
  ms    : Nat
  start : Nat
  flags : Nat
  accts : Store Acct
  pinst : Nat
  short : Bool
  due   : List (List Nat)
  kept  : Option (List Nat)
  chkPos : Nat
  recs  : Store (List Nat)
  otp   : Store Nat
  high  : Nat
  low   : Nat
  upd   : Option Nat
  reqBusy : Bool
  confirm : Bool
  dcyc  : Store Nat
  logSeq : Nat
  logPos : Nat
  chain : Nat
  brk   : Nat
  deriving DecidableEq, Repr

/-- The enclave before its first start. -/
def Umx.reset : Umx := ⟨0, 0, 0, 0, 0, 0, 0, 0, false, false, 0, 0, 0, [], 0, false, [], none, 0, [], [], 0, 0,
  none, false, false, [], 0, 0, 0, 0⟩

/-- A debug access launched over DXW or by DBG.MDATA's owner (R523): device address, the data of a write, and the result of a
read once it has arrived. -/
structure DbgAcc where
  a : Nat
  wr : Option Word
  got : Option Word
  deriving DecidableEq, Repr

/-- The wire registers of DXW (R522–R528): WCSR's fields, WADDR, the launched access, the challenge and the next of its words
to read, the unlock buffer (bytes, first written first), the bytes under the check in progress (1 password, 2 token), failures since
PORST_N, and the seconds of LOCKOUT left with the XTAL32 periods of the one in progress. -/
structure Dxw where
  inc   : Bool
  crcErr : Bool
  err   : Nat
  errV  : Bool
  fail  : Bool
  waddr : Nat
  acc   : Option DbgAcc
  chal  : BitVec 256
  chalIdx : Nat
  buf   : List Nat
  held  : List Nat
  check : Nat
  fails : Nat
  lockout : Nat
  tick  : Nat
  deriving DecidableEq, Repr

/-- The wire registers right after reset. -/
def Dxw.reset : Dxw := ⟨false, false, 0, false, false, 0, none, 0, 0, [], [], 0, 0, 0, 0⟩

/-- The test access port (R540): the instruction register, the boundary register, and whether it drives the pins: 0 no, 1 from
the boundary register, 2 floating. -/
structure Tap where
  ir : BitVec 4
  boundary : Nat
  drive : Nat
  deriving DecidableEq, Repr

/-- The TAP at reset selects IDCODE. -/
def Tap.reset : Tap := ⟨2, 0, 0⟩

/-! ### What leaves the device -/

/-- Messages and levels the device sends outward, recorded in order (log 4). -/
inductive Output where
  | flit (port : Nat) (f : Flit)
  | sched (port : Nat) (f : Flit)
  | msix (port entry : Nat)
  | hostWrite (port addr n data : Nat)
  | hostRead (port addr n : Nat)
  | answer (master data n : Nat) (poisoned : Bool)
  | abort (port : Nat)
  | cfgRetry (port : Nat)
  | i3c (status : Nat) (data : List Nat)
  | uart (data : List Nat)
  | dxw (status : Nat) (data : Word)
  | tdo (data : Nat)
  | linkWake (port : Nat)
  | pin (name : Nat) (asserted : Bool)
  | avsTarget (mv : Nat)
  deriving DecidableEq, Repr

/-! ### The block -/

/-- The fabric: registers, memory, engines, shares and everything that moves data between them. `key` gives each DDR code word the
tag of the key it was written under, `keys` the number of the working key in each slot, and `pairs` the pair of each number (R394);
`dimms` are the modules as they last answered, and `ref2x` the ports whose doubled refresh the latest training took over (R452, R455); `dmaR` and `dmaW` the channels that the read and the write engine served last (R401);
`confT` the last ECLK, plus 1, that each conflict counter has counted (R248); `tBad` the words of the tester's save copy that read
UNCORRECTABLE (R292); `injWait` an injection that waits for the sweep (R284); `once` lists the registers whose write-once field has
had its first write (R8); `clk` counts units of 0.625 ns since reset as far as the commands have told the time, and LINK.TB is
`clk + tbOff` (R320). -/
structure Fab where
  regs  : Store Word
  mem   : List Host.Cell
  err   : Store (BitVec 160)
  key   : Store Nat
  keys  : Store Nat
  pairs : Store Nat
  repair : Store Repair
  breq  : Store Nat
  lost  : List Nat
  eng   : Store Engine
  sh    : Store Share
  stq   : List StVis
  puts  : List Put
  past  : List Put
  pbT   : Store Nat
  confT : Store Nat
  tBad  : BitVec 64
  injWait : Bool
  link  : Store LinkP
  farSt : List FarSt
  dma   : Store DmaCh
  dmaR  : Nat
  dmaW  : Nat
  inbox : List (Nat × Bool × Bool)
  latched : List (Nat × Bool)
  pres  : List (Nat × Nat)
  istk  : Store (List Nat)
  itim  : List Nat
  dhalt : Bool
  msixTab : Store (BitVec 128)
  msixPend : List (Nat × Nat)
  pcfg  : Store (BitVec 32)
  pwr   : Pwr
  mgmt  : Mgmt
  mbx   : Mbx
  dam   : Dam
  umx   : Umx
  dxw   : Dxw
  tap   : Tap
  dimms : List Dimm
  ref2x : List Nat
  once  : List Nat
  clk   : Nat
  tbOff : Nat
  out   : List Output
  fresh : Nat
  deriving DecidableEq, Repr

/-- The fabric at reset: nothing listed anywhere. -/
def Fab.reset : Fab where
  regs := []
  mem := []
  err := []
  key := []
  keys := []
  pairs := []
  repair := []
  breq := []
  lost := []
  eng := []
  sh := []
  stq := []
  puts := []
  past := []
  pbT := []
  confT := []
  tBad := 0
  injWait := false
  link := []
  farSt := []
  dma := []
  dmaR := 31
  dmaW := 31
  inbox := []
  latched := []
  pres := []
  istk := []
  itim := []
  dhalt := false
  msixTab := []
  msixPend := []
  pcfg := []
  pwr := Pwr.reset
  mgmt := Mgmt.reset
  mbx := Mbx.reset
  dam := Dam.reset
  umx := Umx.reset
  dxw := Dxw.reset
  tap := Tap.reset
  dimms := []
  ref2x := []
  once := []
  clk := 0
  tbOff := 0
  out := []
  fresh := 0

/-- The whole block: the fabric, and the queue of commands waiting, first in first out. -/
structure State where
  fab : Fab
  pending : List Instr
  deriving DecidableEq, Repr

/-- Why a step faults: never. Every condition that the spec reports is an effect on State (a trap, a log, a status bit). -/
inductive Fault where
  deriving DecidableEq, Repr

/-- Why a step refuses a command. -/
inductive Refusal where
  /-- The command has no meaning yet. Raised by an arm of `exec`. Safe: the step does not happen. -/
  | notModelled (mnemonic : String)
  /-- The command names a unit (engine, port, partition, block, channel) that the device does not have, or carries a
  value wider than its field: it is no command of the block (`Instr.wf` is false). Raised by every meaning that takes
  such an operand. Safe: nothing happens. -/
  | noSuchUnit
  deriving DecidableEq, Repr

/-- The state right after reset (R43, spec/00): every register at its reset value, memory with nothing listed, no command
waiting. -/
def State.reset : State := ⟨Fab.reset, []⟩

end Sys2Proof.Machine
end

