-- ==== Sys2Proof/Machine/Aes.lean ====
section
/-! DEFINITION. AES-256 and the XTS mode of IEEE 1619 for a data unit of one block, by which the DDR ports encrypt code words
(R394, R451). Numbers are little-endian: byte i of a block, a key or a tweak is bits [8i + 7:8i]. -/

namespace Sys2Proof.Machine

/-- The substitution box: entry b in byte b. -/
def aesSbox : Nat :=
  0x16bb54b00f2d99416842e6bf0d89a18cdf2855cee9871e9b948ed9691198f8e1 * 2 ^ 1792 +
  0x9e1dc186b95735610ef6034866b53e708a8bbd4b1f74dde8c6b4a61c2e2578ba * 2 ^ 1536 +
  0x08ae7a65eaf4566ca94ed58d6d37c8e779e4959162acd3c25c2406490a3a32e0 * 2 ^ 1280 +
  0xdb0b5ede14b8ee4688902a22dc4f816073195d643d7ea7c41744975fec130ccd * 2 ^ 1024 +
  0xd2f3ff1021dab6bcf5389d928f40a351a89f3c507f02f94585334d43fbaaefd0 * 2 ^ 768 +
  0xcf584c4a39becb6a5bb1fc20ed00d153842fe329b3d63b52a05a6e1b1a2c8309 * 2 ^ 512 +
  0x75b227ebe28012079a059618c323c7041531d871f1e5a534ccf73f362693fdb7 * 2 ^ 256 +
  0xc072a49cafa2d4adf04759fa7dc982ca76abd7fe2b670130c56f6bf27b777c63

/-- The inverse of the substitution box. -/
def aesInvSbox : Nat :=
  0x7d0c2155631469e126d677ba7e042b17619953833cbbebc8b0f52aae4d3be0a0 * 2 ^ 1792 +
  0xef9cc9939f7ae52d0d4ab519a97f51605fec8027591012b131c7078833a8dd1f * 2 ^ 1536 +
  0xf45acd78fec0db9a2079d2c64b3e56fc1bbe18aa0e62b76f89c5291d711af147 * 2 ^ 1280 +
  0x6edf751ce837f9e28535ade72274ac9673e6b4f0cecff297eadc674f4111913a * 2 ^ 1024 +
  0x6b8a130103bdafc1020f3fca8f1e2cd00645b3b80558e4f70ad3bc8c00abd890 * 2 ^ 768 +
  0x849d8da75746155edab9edfd5048706c92b6655dcc5ca4d41698688664f6f872 * 2 ^ 512 +
  0x25d18b6d49a25b76b224d92866a12e084ec3fa420b954cee3d23c2a632947b54 * 2 ^ 256 +
  0xcbe9dec444438e3487ff2f9b8239e37cfbd7f3819ea340bf38a53630d56a0952

/-- Entry `b` of a box. -/
def aesSub (box b : Nat) : Nat := (box >>> (8 * b)) % 256

/-- A byte times x in the field of AES. -/
def aesX (b : Nat) : Nat := if b < 128 then 2 * b else (2 * b - 256) ^^^ 0x1B

/-- A byte times a constant of at most four bits. -/
def aesMul (c b : Nat) : Nat :=
  (if c.testBit 0 then b else 0) ^^^ (if c.testBit 1 then aesX b else 0) ^^^ (if c.testBit 2 then aesX (aesX b) else 0) ^^^
    (if c.testBit 3 then aesX (aesX (aesX b)) else 0)

/-- The bytes of a number. -/
def aesBytes (n v : Nat) : List Nat := (List.range n).map (fun i => (v >>> (8 * i)) % 256)

/-- The number that bytes form. -/
def aesNum (l : List Nat) : Nat := l.foldr (fun b v => b + 256 * v) 0

/-- Four bytes through the substitution box. -/
def aesSubWord (w : Nat) : Nat := aesNum ((aesBytes 4 w).map (aesSub aesSbox))

/-- The round constants. -/
def aesRcon : List Nat := [0, 0x01, 0x02, 0x04, 0x08, 0x10, 0x20, 0x40]

/-- The next words of the key schedule after word i - 1, latest first in `l`. -/
def aesExpand (i : Nat) (l : List Nat) : Nat → List Nat
  | 0 => l
  | n + 1 =>
    let p := l.headD 0
    let t := if i % 8 = 0 then aesSubWord (p / 256 + p % 256 * 2 ^ 24) ^^^ aesRcon.getD (i / 8) 0
      else if i % 8 = 4 then aesSubWord p
      else p
    aesExpand (i + 1) ((l.getD 7 0 ^^^ t) :: l) n

/-- Four words to a round key, for each round. -/
def aesQuads : List Nat → List Nat
  | a :: b :: c :: d :: t => (a + 2 ^ 32 * b + 2 ^ 64 * c + 2 ^ 96 * d) :: aesQuads t
  | _ => []

/-- The 15 round keys of a 256-bit key. -/
def aesKeys (k : Nat) : List Nat :=
  aesQuads (aesExpand 8 ((List.range 8).map (fun i => (k >>> (32 * i)) % 2 ^ 32)).reverse 52).reverse

/-- A block through a box with its rows shifted by `d` columns a row. -/
def aesShift (box d v : Nat) : List Nat :=
  (List.range 16).map (fun i => aesSub box ((v >>> (8 * ((i + 4 * d * (i % 4)) % 16))) % 256))

/-- One column mixed by the constants of its first row. -/
def aesMixCol (m c : List Nat) : List Nat :=
  (List.range 4).map (fun r => (List.range 4).foldl (fun v j => v ^^^ aesMul (m.getD ((j + 4 - r) % 4) 0) (c.getD j 0)) 0)

/-- The four columns of a block mixed. -/
def aesMix (m l : List Nat) : List Nat := ((List.range 4).map (fun c => aesMixCol m ((l.drop (4 * c)).take 4))).flatten

/-- The rounds of the cipher with the round keys left; the last round mixes no columns. -/
def aesRounds (v : Nat) : List Nat → Nat
  | [] => v
  | [k] => aesNum (aesShift aesSbox 1 v) ^^^ k
  | k :: t => aesRounds (aesNum (aesMix [2, 3, 1, 1] (aesShift aesSbox 1 v)) ^^^ k) t

/-- AES-256 of a block. -/
def aesEnc (k v : Nat) : Nat :=
  match aesKeys k with
  | k0 :: t => aesRounds (v ^^^ k0) t
  | [] => v

/-- The rounds of the inverse cipher; the last key stands alone. -/
def aesUnrounds (v : Nat) : List Nat → Nat
  | [] => v
  | [k] => aesNum (aesShift aesInvSbox 3 v) ^^^ k
  | k :: t => aesUnrounds (aesNum (aesMix [14, 11, 13, 9] (aesBytes 16 (aesNum (aesShift aesInvSbox 3 v) ^^^ k)))) t

/-- The inverse cipher. -/
def aesDec (k v : Nat) : Nat :=
  match (aesKeys k).reverse with
  | k0 :: t => aesUnrounds (v ^^^ k0) t
  | [] => v

/-- The encrypted tweak of a DDR code word: Key2 over the offset [39:4] (R394). Key1 is the low half of the pair. -/
def xtsMask (pair o : Nat) : Nat := aesEnc (pair / 2 ^ 256) (o / 16 % 2 ^ 36)

/-- The ciphertext of a code word at a DDR offset under a key pair. -/
def xtsEnc (pair o v : Nat) : Nat := aesEnc (pair % 2 ^ 256) (v ^^^ xtsMask pair o) ^^^ xtsMask pair o

/-- The plaintext of a ciphertext. -/
def xtsDec (pair o v : Nat) : Nat := aesDec (pair % 2 ^ 256) (v ^^^ xtsMask pair o) ^^^ xtsMask pair o

end Sys2Proof.Machine
end

