-- ==== Sys2Proof/Machine/NetOps.lean ====
section
/-! DEFINITION. What the net-word operations compute (spec/03): bit-sliced logic, four-state logic, fields, gathers,
edges and flop updates. Pure functions of their operands. -/

namespace Sys2Proof.Machine

/-- The word where `b` is true, its complement where it is false: one literal of a minterm. -/
def lit (b : Bool) (x : NetWord) : NetWord := if b then x else ~~~x

/-- TLOG (R92): bit i of the result is TT[4a + 2b + c]. -/
def tlog (tt : Nat) (a b c : NetWord) : NetWord :=
  (List.range 8).foldl (fun r k =>
    if tt.testBit k then r ||| (lit (k.testBit 2) a &&& lit (k.testBit 1) b &&& lit (k.testBit 0) c) else r) 0

/-- A four-state word (R89): the value plane V and the unknown plane U. -/
structure Four where
  v : NetWord
  u : NetWord
  deriving DecidableEq, Repr

/-- The bits that a completion may take as `b` (R93): the known ones equal to `b` and every X or Z. -/
def Four.can (b : Bool) (x : Four) : NetWord := lit b x.v ||| x.u

/-- The bits that some completion consistent with the inputs gives through the rows of `tt` equal to `b` (R93). -/
def tlxSeen (b : Bool) (tt : Nat) (a x c : Four) : NetWord :=
  (List.range 8).foldl (fun r k =>
    if tt.testBit k == b then r ||| (a.can (k.testBit 2) &&& x.can (k.testBit 1) &&& c.can (k.testBit 0)) else r) 0

/-- TLX (R93): known only where every completion agrees; X is written as V = 0, U = 1 (R90). -/
def tlx (tt : Nat) (a b c : Four) : Four :=
  let s1 := tlxSeen true tt a b c
  let s0 := tlxSeen false tt a b c
  ⟨s1 &&& ~~~s0, s1 &&& s0⟩

/-- SAMPLEP (R110): exactly TLX with TT = 0xCA. -/
def samplep (en d q : Four) : Four := tlx 0xCA en d q

/-- SAMPLE (R110). -/
def sample (en d q : NetWord) : NetWord := (en &&& d) ||| (~~~en &&& q)

/-- The kinds of edge (R108, R109). -/
inductive EdgeKind where
  | pos | neg | both
  deriving DecidableEq, Repr

/-- Two-state edges (R108): current word, previous word. -/
def edge : EdgeKind → NetWord → NetWord → NetWord
  | .pos, cur, prev => cur &&& ~~~prev
  | .neg, cur, prev => ~~~cur &&& prev
  | .both, cur, prev => cur ^^^ prev

/-- Known-zero, known-one and unknown bits (Z reads as X, R90). -/
def Four.is0 (x : Four) : NetWord := ~~~x.v &&& ~~~x.u
def Four.is1 (x : Four) : NetWord := x.v &&& ~~~x.u
def Four.isX (x : Four) : NetWord := x.u

/-- Four-state rising edge (R109): 0 → 1 gives 1; 0 → X and X → 1 give X. -/
def edgeRise (cur prev : Four) : Four :=
  ⟨prev.is0 &&& cur.is1, (prev.is0 &&& cur.isX) ||| (prev.isX &&& cur.is1)⟩

/-- Four-state falling edge (R109). -/
def edgeFall (cur prev : Four) : Four :=
  ⟨prev.is1 &&& cur.is0, (prev.is1 &&& cur.isX) ||| (prev.isX &&& cur.is0)⟩

/-- Four-state edges (R109). -/
def edgep : EdgeKind → Four → Four → Four
  | .pos, cur, prev => edgeRise cur prev
  | .neg, cur, prev => edgeFall cur prev
  | .both, cur, prev =>
    ⟨(edgeRise cur prev).v ||| (edgeFall cur prev).v, (edgeRise cur prev).u ||| (edgeFall cur prev).u⟩

/-- The kinds of net-word shift (R96). -/
inductive ShiftKind where
  | left | right | rotate
  deriving DecidableEq, Repr

/-- Shifts and the rotate of net words (R96). -/
def nshift : ShiftKind → NetWord → Nat → NetWord
  | .left, x, n => x <<< n
  | .right, x, n => x >>> n
  | .rotate, x, n => x.rotateLeft (n % 256)

/-- One bit of a net word broadcast to all 256 positions (R97). -/
def nbroadcast (x : NetWord) (i : Nat) : NetWord := if x.getLsbD i then BitVec.allOnes 256 else 0

/-- The net-word tests (R98). -/
inductive TestKind where
  | any | all | eq
  deriving DecidableEq, Repr

/-- NANY, NALL and NEQ (R95, R98). -/
def ntest : TestKind → NetWord → NetWord → Bool
  | .any, a, b => a &&& b ≠ 0
  | .all, a, b => b &&& ~~~a = 0
  | .eq, a, b => a = b

/-- The position of a field descriptor: bits [7:0] (R99, R127). -/
def descPos (d : Nat) : Nat := d % 256

/-- The width of a field descriptor: bits [13:8], where 0 means 64 (R99, R127). -/
def descWidth (d : Nat) : Nat := if natBits d 8 6 = 0 then 64 else natBits d 8 6

/-- A field of `w` ≤ 64 bits, zero- or sign-extended to 64 bits. -/
def extendField (signed : Bool) (w f : Nat) : Word :=
  if signed && f.testBit (w - 1) then w64 (f + 2 ^ 64 - 2 ^ w) else w64 f

/-- EXTRACT and EXTRACTS (R99): bits past 255 read as 0. -/
def extract (signed : Bool) (x : NetWord) (desc : Word) : Word :=
  extendField signed (descWidth desc.toNat) (natBits x.toNat (descPos desc.toNat) (descWidth desc.toNat))

/-- DEPOSIT (R99): bits that would land past 255 are dropped. -/
def deposit (x : NetWord) (v : Word) (desc : Word) : NetWord :=
  BitVec.ofNat 256 (natSetBits x.toNat (descPos desc.toNat) (descWidth desc.toNat) v.toNat)

/-- EXTB (R100). -/
def extb (x : NetWord) (imm : Nat) : Word := w64 (natBits x.toNat (8 * imm) 64)

/-- DEPB (R100). -/
def depb (x : NetWord) (v : Word) (imm : Nat) : NetWord :=
  BitVec.ofNat 256 (natSetBits x.toNat (8 * imm) 64 v.toNat)

/-- CONCAT (R101): Nd shifted left by 128, A(s2) in [127:64], A(s1) in [63:0]. -/
def concat (x : NetWord) (a1 a2 : Word) : NetWord :=
  BitVec.ofNat 256 (natBits x.toNat 0 128 * 2 ^ 128 + a2.toNat * 2 ^ 64 + a1.toNat)

/-- Four copies of the 64-bit K latch (R70, NLDK of R95). -/
def nk (k : Word) : NetWord := BitVec.ofNat 256 (k.toNat * (1 + 2 ^ 64 + 2 ^ 128 + 2 ^ 192))

/-- The 10-bit index i of a gather pattern, packed as one little-endian bit string (R103). -/
def patIndex (pat i : Nat) : Nat := natBits pat (10 * i) 10

/-- One bit of a register of an aligned quad. -/
def quadBit (q : Nat → NetWord) (r b : Nat) : Nat := if (q r).getLsbD b then 1 else 0

/-- GATHER (R102): bit i is bit k[7:0] of register k[9:8] of the quad. -/
def gather (q : Nat → NetWord) (pat : Nat) : NetWord :=
  BitVec.ofNat 256 ((List.range 256).foldl (fun acc i =>
    acc + quadBit q (natBits (patIndex pat i) 8 2) (natBits (patIndex pat i) 0 8) * 2 ^ i) 0)

/-- One plane of GATHERP (R105): index bit 8 selects the four-state word; `plane` is 0 for V and 1 for U. -/
def gatherPlane (q : Nat → NetWord) (pat plane : Nat) : NetWord :=
  BitVec.ofNat 256 ((List.range 256).foldl (fun acc i =>
    acc + quadBit q (2 * natBits (patIndex pat i) 8 1 + plane) (natBits (patIndex pat i) 0 8) * 2 ^ i) 0)

end Sys2Proof.Machine
end

