-- ==== Sys2Proof/Machine/IntOps.lean ====
section
/-! DEFINITION. What the integer operations of slots A0, A1 and M compute (spec/04): wrapping and saturation, the
ALU, compares, counting, accumulators, extraction and the Quince integer operations. Pure functions. -/

namespace Sys2Proof.Machine

/-- Smallest and largest signed values of a width (R121). -/
def sMin (w : Nat) : Int := -(2 ^ (w - 1) : Int)
def sMax (w : Nat) : Int := 2 ^ (w - 1) - 1

/-- A result clamped to [lo, hi], and whether the clamp changed it (R121). -/
def clampTo (lo hi r : Int) : Int × Bool :=
  if r < lo then (lo, true) else if hi < r then (hi, true) else (r, false)

/-- Wrapping (S = 0) or signed-saturating (S = 1) result of width `w`, and whether it clamped (R121). -/
def fitS (s : Bool) (w : Nat) (r : Int) : BitVec w × Bool :=
  if s then (BitVec.ofInt w (clampTo (sMin w) (sMax w) r).1, (clampTo (sMin w) (sMax w) r).2)
  else (BitVec.ofInt w r, false)

/-- Wrapping (S = 0) or unsigned-saturating (S = 1) result of width `w` (R121). -/
def fitU (s : Bool) (w : Nat) (r : Int) : BitVec w × Bool :=
  if s then (BitVec.ofInt w (clampTo 0 (2 ^ w - 1) r).1, (clampTo 0 (2 ^ w - 1) r).2)
  else (BitVec.ofInt w r, false)

/-- The ALU functions of R124 that write one A register from two operands. -/
inductive Alu where
  | mov | add | addu | sub | subu | neg | abs | min | max | minu | maxu | and | or | xor | andn
  | shl | shr | sar | rol | rsar | xtr | xtrs | zext | sext | brev | clz | ctz | popc | norm | exp
  deriving DecidableEq, Repr

/-- Number of zero bits above the most significant 1 of a `w`-bit number; `w` when it is 0 (R131). -/
def clz (w n : Nat) : Nat := if n = 0 then w else w - 1 - Nat.log2 n

/-- Number of zero bits below the least significant 1; `w` when it is 0 (R131). -/
def ctz (w n : Nat) : Nat := ((List.range w).find? (fun i => n.testBit i)).getD w

/-- Number of 1 bits among the low `w` (R131). -/
def popc (w n : Nat) : Nat := (List.range w).foldl (fun c i => if n.testBit i then c + 1 else c) 0

/-- The largest k for which the top k + 1 bits of a `w`-bit pattern are all equal (R131 NORM, R133 ACCNORM). -/
def normBits (w n : Nat) : Nat :=
  if n.testBit (w - 1) then clz w (2 ^ w - 1 - n) - 1 else clz w n - 1

/-- Bit i of the result is bit 63 − i (BREV, R124). -/
def brev (x : Word) : Word := x.reverse

/-- floor((v + 2^(n−1)) / 2^n), or v when n is 0: round half up (R126, R135). -/
def roundShift (v : Int) (n : Nat) : Int := if n = 0 then v else (v + 2 ^ (n - 1)) / 2 ^ n

/-- The result of an ALU function, and whether a saturating form clamped (R124–R131). The operand `y` is A(s2), the
immediate or the K latch, already widened. -/
def alu (f : Alu) (s : Bool) (x y : Word) : Word × Bool :=
  let n := y.toNat % 256
  match f with
  | .mov => (x, false)
  | .add => fitS s 64 (x.toInt + y.toInt)
  | .addu => fitU s 64 ((x.toNat : Int) + y.toNat)
  | .sub => fitS s 64 (x.toInt - y.toInt)
  | .subu => fitU s 64 ((x.toNat : Int) - y.toNat)
  | .neg => fitS s 64 (-x.toInt)
  | .abs => fitS s 64 (if x.toInt < 0 then -x.toInt else x.toInt)
  | .min => (if x.toInt ≤ y.toInt then x else y, false)
  | .max => (if x.toInt ≤ y.toInt then y else x, false)
  | .minu => (if x.toNat ≤ y.toNat then x else y, false)
  | .maxu => (if x.toNat ≤ y.toNat then y else x, false)
  | .and => (x &&& y, false)
  | .or => (x ||| y, false)
  | .xor => (x ^^^ y, false)
  | .andn => (x &&& ~~~y, false)
  | .shl => fitS s 64 (x.toInt * 2 ^ n)
  | .shr => (x >>> n, false)
  | .sar => (x.sshiftRight n, false)
  | .rol => (x.rotateLeft (n % 64), false)
  | .rsar => if n < 64 then (BitVec.ofInt 64 (roundShift x.toInt n), false) else (0, false)
  | .xtr => (extendField false (descWidth y.toNat) (natBits x.toNat (descPos y.toNat) (descWidth y.toNat)), false)
  | .xtrs => (extendField true (descWidth y.toNat) (natBits x.toNat (descPos y.toNat) (descWidth y.toNat)), false)
  | .zext => (w64 (natBits x.toNat 0 (n % 64 + 1)), false)
  | .sext => (extendField true (n % 64 + 1) (natBits x.toNat 0 (n % 64 + 1)), false)
  | .brev => (brev x, false)
  | .clz => (w64 (clz 64 x.toNat), false)
  | .ctz => (w64 (ctz 64 x.toNat), false)
  | .popc => (w64 (popc 64 x.toNat), false)
  | .norm => (w64 (normBits 64 x.toNat), false)
  | .exp => (BitVec.ofInt 64 (63 - (clz 64 x.toNat : Int)), false)

/-- INSK (R127): the field that the K latch describes takes the low bits of A(s1). -/
def insk (d x k : Word) : Word :=
  w64 (natSetBits d.toNat (descPos k.toNat) (descWidth k.toNat) x.toNat)

/-- The compares of R129. -/
inductive Cmp where
  | eq | ne | lt | le | ltu | leu
  deriving DecidableEq, Repr

/-- The relation of a compare (R129). -/
def cmp : Cmp → Word → Word → Bool
  | .eq, x, y => x = y
  | .ne, x, y => x ≠ y
  | .lt, x, y => x.toInt < y.toInt
  | .le, x, y => x.toInt ≤ y.toInt
  | .ltu, x, y => x.toNat < y.toNat
  | .leu, x, y => x.toNat ≤ y.toNat

/-- The predicate-logic operations (R130). -/
inductive PLogic where
  | and | or | xor | andn
  deriving DecidableEq, Repr

/-- Pd := Ps1 op Ps2 (R130). -/
def plogic : PLogic → Bool → Bool → Bool
  | .and, x, y => x && y
  | .or, x, y => x || y
  | .xor, x, y => x != y
  | .andn, x, y => x && !y

/-- A limb of a carry or borrow chain (R128): the sum or difference and the new carry predicate. -/
def chain (subtract : Bool) (x y : Word) (pc : Bool) : Word × Bool :=
  let c : Int := if pc then 1 else 0
  if subtract then
    (BitVec.ofInt 64 ((x.toNat : Int) - y.toNat - c), decide ((x.toNat : Int) < y.toNat + c))
  else
    (BitVec.ofInt 64 ((x.toNat : Int) + y.toNat + c), decide ((2 ^ 64 : Int) ≤ x.toNat + y.toNat + c))

/-! Multiply-accumulate (R132–R135). -/

/-- The MAC-class operations (R133). -/
inductive Mac where
  | mac32 | msu32 | mac32u | mpy32 | mac16x2 | msu16x2 | mpy16x2 | aclr | accld | accseth | accadd
  deriving DecidableEq, Repr

/-- A signed field of a word. -/
def sField (x : Word) (lo w : Nat) : Int := (BitVec.ofNat w (natBits x.toNat lo w)).toInt

/-- The exact result of a MAC-class operation (R133): accumulate input `c`, sources `x` and `y`, second accumulator
`c2` for ACCADD. -/
def macExact (f : Mac) (c c2 : AccWord) (x y : Word) : Int :=
  let p32 := sField x 0 32 * sField y 0 32
  let p16 := sField x 0 16 * sField y 0 16 + sField x 16 16 * sField y 16 16
  match f with
  | .mac32 => c.toInt + p32
  | .msu32 => c.toInt - p32
  | .mac32u => c.toInt + (natBits x.toNat 0 32 * natBits y.toNat 0 32 : Nat)
  | .mpy32 => p32
  | .mac16x2 => c.toInt + p16
  | .msu16x2 => c.toInt - p16
  | .mpy16x2 => p16
  | .aclr => 0
  | .accld => x.toInt
  | .accseth => sField x 0 16 * 2 ^ 64 + (natBits c.toNat 0 64 : Nat)
  | .accadd => c.toInt + c2.toInt

/-- Does the operation read the accumulator it writes (R134)? -/
def Mac.readsAcc : Mac → Bool
  | .mpy32 | .mpy16x2 | .aclr | .accld => false
  | _ => true

/-- The accumulator written, and the IFLAGS bits raised: SATM for a clamp, ACCOV for a wrap (R132). -/
def macResult (f : Mac) (s : Bool) (c c2 : AccWord) (x y : Word) : AccWord × Nat :=
  let r := macExact f c c2 x y
  let fit := fitS s 80 r
  (fit.1, if fit.2 then 2 else if !s && fit.1.toInt ≠ r then 4 else 0)

/-- Accumulator extraction (R135): shift `n`, width `w`; the A value and whether it clamped. -/
def extr (s : Bool) (c : AccWord) (n w : Nat) : Word × Bool :=
  let fit := fitS s w (roundShift c.toInt n)
  (BitVec.ofInt 64 fit.1.toInt, fit.2)

/-! Quince integer operations (R138–R142). -/

/-- Count of MUL64 and MUL64U (R139): k + 1 with the smallest k whose upper multiplier bits are redundant. -/
def mulCount (ct unsigned : Bool) (y : Word) : Nat :=
  if ct then 5
  else
    let ok (k : Nat) : Bool :=
      if unsigned then natBits y.toNat (16 * k) 64 == 0
      else k == 4 || natBits y.toNat (16 * k - 1) (65 - 16 * k) == 0 ||
        natBits y.toNat (16 * k - 1) (65 - 16 * k) == 2 ^ (65 - 16 * k) - 1
    if ok 1 then 2 else if ok 2 then 3 else if ok 3 then 4 else 5

/-- Signed or unsigned quotient and remainder with their special cases (R140), and the IFLAGS bits raised: SATM 2,
DIVZ 8. -/
def divRem (signed s : Bool) (x y : Word) : Word × Word × Nat :=
  if y = 0 then
    (if signed && s then (if x.toInt < 0 then BitVec.ofInt 64 (sMin 64) else BitVec.ofInt 64 (sMax 64))
     else BitVec.allOnes 64, x, 8)
  else if signed then
    let q := fitS s 64 (x.toInt.tdiv y.toInt)
    (q.1, BitVec.ofInt 64 (x.toInt.tmod y.toInt), if q.2 then 2 else 0)
  else (w64 (x.toNat / y.toNat), w64 (x.toNat % y.toNat), 0)

/-- Low or signed value of the low `n` bits of an operand of MULW (R142). -/
def mulwOperand (signed : Bool) (v n : Nat) : Int :=
  let f := natBits v 0 n
  if signed && f.testBit (n - 1) then (f : Int) - 2 ^ n else f

/-- MULW (R142): the exact product of latch operands, extended to 2,048 bits. -/
def mulw (desc : Word) (ql : BitVec 2048) : BitVec 2048 :=
  let n := natBits desc.toNat 0 10 + 1
  let m := natBits desc.toNat 16 10 + 1
  let sg := desc.getLsbD 32
  BitVec.ofInt 2048 (mulwOperand sg (natBits ql.toNat 0 1024) n * mulwOperand sg (natBits ql.toNat 1024 1024) m)

/-- Count of MULW (R138): ⌈n/64⌉ × ⌈m/16⌉ + 2. -/
def mulwCount (desc : Word) : Nat :=
  ((natBits desc.toNat 0 10 + 1 + 63) / 64) * ((natBits desc.toNat 16 10 + 1 + 15) / 16) + 2

end Sys2Proof.Machine
end

