-- ==== Sys2Proof/Machine/Ops.lean ====
section
/-! DEFINITION. The named operations over registers, memory and code words that the meanings share. -/

namespace Sys2Proof.Machine

/-! ### Registers -/

/-- A field of a 64-bit register. -/
def fget (r : Word) (lo w : Nat) : Nat := natBits r.toNat lo w

/-- The register with a field replaced. -/
def fset (r : Word) (lo w v : Nat) : Word := w64 (natSetBits r.toNat lo w v)

/-- Is source `s` owned by the device at reset (R425)? -/
def iscDevice (s : Nat) : Bool :=
  (1 ≤ s && s ≤ 16) || (81 ≤ s && s ≤ 112) || (241 ≤ s && s ≤ 254)

/-- The partition that owns source `s` when the device does not (R425). -/
def iscOwner (s : Nat) : Nat := if 113 ≤ s then (s - 113) / 16 else (s - 17) % 8

/-- Is source `s` a level source by its assignment (R425, R487)? -/
def iscLevel (s : Nat) : Bool := s == 3 || s == 9 || (25 ≤ s && s ≤ 40)

/-- The reset value of the device register at an address: the families' value; ISC.SCFG(s) and ISC.SMASK(s, 3) show the
assignment of R425. -/
def regReset (a : Nat) : Word :=
  let base : Word := match famAt a with
    | some r => w64 r.reset
    | none => 0
  if 0x0200011040 ≤ a && a < 0x0200015000 then
    let s := (a - 0x0200011000) / 64
    let o := (a - 0x0200011000) % 64
    if o = 0 then
      fset (fset (fset base 1 1 (if iscLevel s then 1 else 0)) 4 3 (if iscDevice s then 0 else iscOwner s)) 7 1
        (if iscDevice s then 1 else 0)
    else if o = 32 then (if iscDevice s then 1 else 0)
    else base
  else base

/-- A device register. -/
def Fab.reg (f : Fab) (a : Nat) : Word := Store.get (regReset a) f.regs a

/-- The fabric with a device register replaced. -/
def Fab.setReg (f : Fab) (a : Nat) (v : Word) : Fab := { f with regs := Store.set (regReset a) f.regs a v }

/-- A field of a device register. -/
def Fab.get (f : Fab) (x : Fld) : Nat := fget (f.reg x.addr) x.lo x.w

/-- The fabric with a field of a device register replaced. -/
def Fab.set (f : Fab) (x : Fld) (v : Nat) : Fab := f.setReg x.addr (fset (f.reg x.addr) x.lo x.w v)

/-- A one-bit field as a truth value. -/
def Fab.bit (f : Fab) (x : Fld) : Bool := f.get x == 1

/-- Add to a counter field that sticks at its largest value. -/
def Fab.stick (f : Fab) (x : Fld) (n : Nat) : Fab := f.set x (min (f.get x + n) (2 ^ x.w - 1))

/-- An engine; an unlisted engine is in its reset state. -/
def Fab.engine (f : Fab) (e : Nat) : Engine := Store.get Engine.reset f.eng e

/-- The fabric with an engine replaced. -/
def Fab.setEng (f : Fab) (e : Nat) (v : Engine) : Fab := { f with eng := Store.set Engine.reset f.eng e v }

/-- The fabric with an engine changed. -/
def Fab.updEng (f : Fab) (e : Nat) (g : Engine → Engine) : Fab := f.setEng e (g (f.engine e))

/-- A share. -/
def Fab.share (f : Fab) (p : Nat) : Share := Store.get Share.reset f.sh p

/-- The fabric with a share replaced. -/
def Fab.setSh (f : Fab) (p : Nat) (v : Share) : Fab := { f with sh := Store.set Share.reset f.sh p v }

/-- The fabric with a share changed. -/
def Fab.updSh (f : Fab) (p : Nat) (g : Share → Share) : Fab := f.setSh p (g (f.share p))

/-- A Caluf port's internal state. -/
def Fab.port (f : Fab) (c : Nat) : LinkP := Store.get LinkP.reset f.link c

/-- The fabric with a Caluf port changed. -/
def Fab.updPort (f : Fab) (c : Nat) (g : LinkP → LinkP) : Fab :=
  { f with link := Store.set LinkP.reset f.link c (g (f.port c)) }

/-- A DMA channel's internal state. -/
def Fab.ch (f : Fab) (k : Nat) : DmaCh := Store.get DmaCh.reset f.dma k

/-- The fabric with a DMA channel changed. -/
def Fab.updCh (f : Fab) (k : Nat) (g : DmaCh → DmaCh) : Fab :=
  { f with dma := Store.set DmaCh.reset f.dma k (g (f.ch k)) }

/-- An ECS register held in the ECS store. -/
def Engine.ecsReg (e : Engine) (i : Nat) : Word := Store.get (ecsReset i) e.ecs i

/-- The engine with an ECS register of the ECS store replaced. -/
def Engine.setEcsReg (e : Engine) (i : Nat) (v : Word) : Engine :=
  { e with ecs := Store.set (ecsReset i) e.ecs i v }

/-- A field of an ECS register. -/
def Engine.get (e : Engine) (x : Fld) : Nat := fget (e.ecsReg x.addr) x.lo x.w

/-- The engine with a field of an ECS register replaced. -/
def Engine.set (e : Engine) (x : Fld) (v : Nat) : Engine := e.setEcsReg x.addr (fset (e.ecsReg x.addr) x.lo x.w v)

/-- A one-bit ECS field as a truth value. -/
def Engine.bit (e : Engine) (x : Fld) : Bool := e.get x == 1

/-- One as a bit. -/
def b2n (b : Bool) : Nat := if b then 1 else 0

/-- Draw a free value of `w` bits (log 2). -/
def Fab.free (f : Fab) (w : Nat) : Nat × Fab :=
  (Config.freeNat f.fresh % 2 ^ w, { f with fresh := f.fresh + 1 })

/-- Send a message to the interrupt steering controller: source and level (R423). ISC_MESSAGE takes it. -/
def Fab.raise (f : Fab) (src : Nat) (lvl : Bool) : Fab := { f with inbox := f.inbox ++ [(src, lvl, true)] }

/-- Record something that leaves the device (log 4). -/
def Fab.emit (f : Fab) (o : Output) : Fab := { f with out := f.out ++ [o] }

/-- The reset value of a word that the configuration space of a host port stores: MRRS 512 bytes, and the AER severities (log 101). -/
def cfgInit (i : Nat) : BitVec 32 := if i = 30 then 0x2000 else if i = 67 then 0x00462030 else 0

/-- A stored word of the configuration space of a host port (R371). -/
def Fab.cfgWord (f : Fab) (n i : Nat) : BitVec 32 := Store.get (cfgInit i) f.pcfg (1024 * n + i)

/-- Is an MSI-X table entry masked: by the function mask, or by vector control bit 0, at 1 after reset (R374, R399 and the PCIe
specification)? -/
def Fab.msixMasked (f : Fab) (n s : Nat) : Bool := (f.cfgWord n 44).getLsbD 30 || (Store.get (BitVec.ofNat 128 (2 ^ 96)) f.msixTab (n * 256 + s)).getLsbD 96

/-- Port `n` sends the message of an MSI-X entry, or keeps it pending while the entry is masked or Bus Master Enable is 0 (R373,
R399, R431). -/
def Fab.sendMsix (f : Fab) (n s : Nat) : Fab :=
  if f.msixMasked n s || !f.bit (Reg.HP_STAT_BME n) then
    (if f.msixPend.contains (n, s) then f else { f with msixPend := f.msixPend ++ [(n, s)] })
  else f.emit (.msix n s)

/-- A pending message is dropped. -/
def Fab.dropMsix (f : Fab) (n s : Nat) : Fab := { f with msixPend := f.msixPend.filter (fun x => x ≠ (n, s)) }

/-! ### Partitions -/

/-- The partition that owns an ownership unit, if one does (R257). -/
def Fab.unitPart (f : Fab) (u : Nat) : Option Nat :=
  if f.get (Reg.MEM_OWNER_OWN u) < 8 then some (f.get (Reg.MEM_OWNER_OWN u)) else none

/-- The partition that owns a DDR granule. -/
def Fab.granPart (f : Fab) (g : Nat) : Option Nat :=
  if f.get (Reg.MEM_DOWNER_OWN g) < 8 then some (f.get (Reg.MEM_DOWNER_OWN g)) else none

/-- The partition that owns an engine's block. -/
def Fab.engPart (f : Fab) (e : Nat) : Option Nat := f.unitPart (e / 8)

/-- Is the engine active in partition `p` (R16)? -/
def Fab.activeIn (f : Fab) (p e : Nat) : Bool :=
  (f.reg (Reg.HP_PACTIVE p (e / 64))).getLsbD (e % 64) && f.engPart e == some p

/-- The active engines of the share of `p`. -/
def Fab.actives (f : Fab) (p : Nat) : List Nat := (List.range 192).filter (fun e => f.activeIn p e)

/-- The state of a share: 0 STOPPED, 1 STARTING, 2 RUNNING, 3 HOLDING, 4 ROLLBACK, 5 HALTED (R370). -/
def Fab.st (f : Fab) (p : Nat) : Nat := f.get (Reg.SQ_STAT_STATE p)

/-- Does the share run: from the release of its engines until it next stops at a commit boundary (R34)? -/
def Fab.runs (f : Fab) (p : Nat) : Bool := f.st p == 2 || f.st p == 3 || f.st p == 4

/-- Is the share set to barrier mode? A DX48 partition always is (R381). -/
def Fab.barrierMode (f : Fab) (p : Nat) : Bool := f.bit (Reg.SQ_CTL_RUNMODE p) || f.bit (Reg.HP_PCFG_DX48 p)

/-- Does the share run its schedule in timed lock-step (R28)? -/
def Fab.lockMode (f : Fab) (p : Nat) : Bool := f.runs p && !f.barrierMode p

/-- Is the engine an active engine of a share that executes design cycles in timed lock-step? -/
def Fab.lockStep (f : Fab) (e : Nat) : Bool :=
  match f.engPart e with
  | some p => f.st p == 2 && !f.barrierMode p && f.activeIn p e
  | none => false

/-- The partition of an engine whose share runs, with the engine active. -/
def Fab.runPart (f : Fab) (e : Nat) : Option Nat :=
  match f.engPart e with
  | some p => if f.runs p && f.activeIn p e then some p else none
  | none => none

/-- Is constant-time mode in force on the engine (R149, R150)? -/
def Fab.ctMode (f : Fab) (e : Nat) : Bool :=
  (f.engine e).bit Ecs.MODE_CT ||
    match f.engPart e with
    | some p => f.lockMode p || f.bit (Reg.HP_PCFG_CT p)
    | none => false

/-- Is the BTB disabled on the engine (R81, R28)? -/
def Fab.btbOff (f : Fab) (e : Nat) : Bool :=
  (f.engine e).bit Ecs.MODE_BTBOFF ||
    match f.engPart e with
    | some p => f.lockMode p
    | none => false

/-- Did the partition of the engine accept feature bit `n` at its creation (R380)? An engine of no partition has all. -/
def Fab.engFeat (f : Fab) (e n : Nat) : Bool :=
  match f.engPart e with
  | some p => (f.reg (Reg.HP_PCFG p)).getLsbD (32 + n)
  | none => true

/-- Does the engine belong to a partition created with option DX48 (R382)? -/
def Fab.dx48 (f : Fab) (e : Nat) : Bool :=
  match f.engPart e with
  | some p => f.bit (Reg.HP_PCFG_DX48 p)
  | none => false

/-- The ECLK group of a block (R554). -/
def eclkGroup (b : Nat) : Nat := (b % 6) / 2 + 3 * (b / 12)

/-- Does the engine's clock run: the device is ACTIVE and untripped, its block ON, its PLL not relocking (R555, R556, R576)? -/
def Fab.engOn (f : Fab) (e : Nat) : Bool :=
  f.pwr.st == 3 && !f.pwr.trip && f.get (Reg.PWR_BLOCK_STATE (e / 8)) == 3 && !f.pwr.pll.contains (eclkGroup (e / 8))

/-- The fabric after an operation of an engine's clock, which does nothing while the clock stands. -/
def Fab.clocked (f : Fab) (e : Nat) (g : Fab → Fab) : Fab := if f.engOn e then g f else f

/-- Are the clocks of the uncore running: the device is ACTIVE or in STANDBY, and no trip stopped them (R545, R576)? -/
def Fab.live (f : Fab) : Bool := 2 ≤ f.pwr.st && !f.pwr.trip

/-- Is the device ACTIVE and untripped: do NCLK, the links and the DDR ports run (R546)? -/
def Fab.active (f : Fab) : Bool := f.pwr.st == 3 && !f.pwr.trip

/-- The fabric after an operation of NCLK's domain, which does nothing while NCLK stands. -/
def Fab.whenActive (f : Fab) (g : Fab → Fab) : Fab := if f.active then g f else f

/-- The fabric after an operation that needs ACTIVE or STANDBY. -/
def Fab.whenLive (f : Fab) (g : Fab → Fab) : Fab := if f.live then g f else f

/-! ### The timebase (R320, R340) -/

/-- The ECLK frequency of a partition's blocks in units of 10 MHz (R555). -/
def Fab.partFreq (f : Fab) (p : Nat) : Nat :=
  match (List.range 24).find? (fun b => f.unitPart b == some p) with
  | some b => max 1 (f.get (Reg.PWR_ECLK_FREQ (eclkGroup b)))
  | none => 160

/-- Units of 0.625 ns that have passed at ECLK `b` of a partition: 16 in each period of 100 MHz (R320, log 75). -/
def Fab.unitsAt (f : Fab) (p b : Nat) : Nat := b * 160 / f.partFreq p

/-- The timebase at ECLK `b` of a partition. -/
def Fab.tbAt (f : Fab) (p b : Nat) : Nat := (f.unitsAt p b + f.tbOff) % 2 ^ 64

/-- The first ECLK from `now` on in which bits [31:0] of the timebase have reached T (R340). -/
def Fab.eclkOf (f : Fab) (p now t : Nat) : Nat :=
  let d := (t + 2 ^ 32 - f.tbAt p now % 2 ^ 32) % 2 ^ 32
  if d = 0 || 2 ^ 31 ≤ d then now else ((f.unitsAt p now + d) * f.partFreq p + 159) / 160

/-- The timebase as far as the commands have told the time. -/
def Fab.tbNow (f : Fab) : Nat := (f.clk + f.tbOff) % 2 ^ 64

/-- The timebase takes a value (R322). -/
def Fab.setTb (f : Fab) (v : Nat) : Fab := { f with tbOff := (v + 2 ^ 64 - f.clk % 2 ^ 64) % 2 ^ 64 }

/-- A command has told the time: the timebase reads `t`. -/
def Fab.seenTb (f : Fab) (t : Nat) : Fab := { f with clk := max f.clk ((t + 2 ^ 64 - f.tbOff) % 2 ^ 64) }

/-- A command has told the time: ECLK `b` of a partition. -/
def Fab.seen (f : Fab) (p b : Nat) : Fab := { f with clk := max f.clk (f.unitsAt p b) }

/-- The ECLK of an engine as far as the commands have told the time. -/
def Fab.eclkNow (f : Fab) (en : Nat) : Nat := f.clk * max 1 (f.get (Reg.PWR_ECLK_FREQ (eclkGroup (en / 8)))) / 160

/-- The host port a partition is bound to. -/
def Fab.portOf (f : Fab) (p : Nat) : Nat := f.get (Reg.HP_PCFG_PORT p)

/-! ### The symbol code (R267–R271) -/

/-- Multiply by the primitive element in GF(2⁸) (R267). -/
def gfX (a : Nat) : Nat := if a < 128 then 2 * a else (2 * a) ^^^ 0x11D

/-- Product in GF(2⁸). -/
def gfMul (a b : Nat) : Nat :=
  (List.range 8).foldl (fun acc i => if b.testBit (7 - i) then gfX acc ^^^ a else gfX acc) 0

/-- Powers of the primitive element. -/
def gfPow : Nat → Nat
  | 0 => 1
  | n + 1 => gfX (gfPow n)

/-- Syndrome S[k] of a 160-bit word (R269), by Horner's rule from symbol 19 down. -/
def rsSyn (w : Nat) (k : Nat) : Nat :=
  (List.range 20).foldl (fun acc i => gfMul acc (gfPow k) ^^^ natBits w (8 * (19 - i)) 8) 0

/-- The four check symbols of a 128-bit data word (R268): division by g(x), highest data byte first. -/
def rsCheck (d : Nat) : Nat :=
  (List.range 16).foldl (fun c i =>
    let fb := natBits d (8 * (15 - i)) 8 ^^^ natBits c 24 8
    gfMul fb 0x40 + (natBits c 0 8 ^^^ gfMul fb 0x78) * 2 ^ 8 + (natBits c 8 8 ^^^ gfMul fb 0x36) * 2 ^ 16 +
      (natBits c 16 8 ^^^ gfMul fb 0x0F) * 2 ^ 24) 0

/-- The code word of a data word (R268): data in bits [159:32], check symbols in [31:0]. -/
def rsEncode (d : Nat) : Flit := BitVec.ofNat 160 (d % 2 ^ 128 * 2 ^ 32 + rsCheck d)

/-- Outcomes of decoding (R269). -/
inductive RsOut where
  | clean | poison | zero | corrected | uncorrectable
  deriving DecidableEq, Repr

/-- The check fields of the reserved words (R270). -/
def poisonWord : Flit := BitVec.ofNat 160 0x01070E08
def zeroMarker : Flit := BitVec.ofNat 160 0x010E3840

/-- The result of a decoder: outcome, corrected word, corrected symbol, syndromes S0 in [7:0] to S3 in [31:24]. -/
structure RsRes where
  out  : RsOut
  word : Flit
  sym  : Nat
  syn  : Nat
  deriving DecidableEq, Repr

/-- The decoder of R269; `ddr` says whether the DDR path reads. -/
def rsDecode (ddr : Bool) (w : Flit) : RsRes :=
  let n := w.toNat
  let s0 := rsSyn n 0
  let s1 := rsSyn n 1
  let s2 := rsSyn n 2
  let s3 := rsSyn n 3
  let syn := s0 + s1 * 2 ^ 8 + s2 * 2 ^ 16 + s3 * 2 ^ 24
  if syn = 0 then ⟨.clean, w, 0, syn⟩
  else if syn = 0x9F000000 then ⟨.poison, w, 0, syn⟩
  else if syn = 0x77 && ddr then ⟨.zero, w, 0, syn⟩
  else
    match (List.range 20).find? (fun j =>
      s0 ≠ 0 && s1 == gfMul s0 (gfPow j) && s2 == gfMul s1 (gfPow j) && s3 == gfMul s2 (gfPow j)) with
    | some j => ⟨.corrected, w ^^^ BitVec.ofNat 160 (s0 * 2 ^ (8 * j)), j, syn⟩
    | none => ⟨.uncorrectable, w, 0, syn⟩

/-! ### Bytes of memory -/

/-- The byte at a device address; a byte nothing has written reads 0 (R282, R283; log 5). -/
def byteAt (m : List Host.Cell) (a : Nat) : Byte := Store.get (0 : Byte) m a

/-- Write a byte. -/
def setByte (m : List Host.Cell) (a : Nat) (v : Byte) : List Host.Cell := Store.set (0 : Byte) m a v

/-- `n` bytes from address `a`, little-endian (spec/00). -/
def readN (m : List Host.Cell) (a : Nat) : Nat → Nat
  | 0 => 0
  | n + 1 => (byteAt m a).toNat + 256 * readN m (a + 1) n

/-- Write the low `n` bytes of `v` from address `a`, little-endian. -/
def writeN (m : List Host.Cell) (a : Nat) : Nat → Nat → List Host.Cell
  | 0, _ => m
  | n + 1, v => writeN (setByte m a (BitVec.ofNat 8 v)) (a + 1) n (v / 256)

/-- The canonical form of memory: addresses strictly rising, no byte listed that an unlisted address reads as. -/
def Memory.wf (m : List Host.Cell) : Bool := Store.wf (fun _ => (0 : Byte)) m

/-! ### The device map (R232) and banks (R242, R253) -/

/-- Base addresses. -/
def engBase (e : Nat) : Nat := e * 0x100000
def bmBase (b : Nat) : Nat := 0x0100000000 + b * 0x200000
def ddrBase : Nat := 0x8000000000
def arcBase (e : Nat) : Nat := engBase e + 0x7C000
def capBase : Nat := 0x0300800000

/-- Is the address on the DDR path? -/
def isDdr (a : Nat) : Bool := ddrBase ≤ a

/-- The BSTATE or CBSTATE field of the bank that holds a device address, if a bank of R253 does. -/
def bankFld (a : Nat) : Option Fld :=
  if a < 0x0C000000 then
    let e := a / 0x100000
    let o := a % 0x100000
    if o < 0x20000 then some ⟨Reg.MEM_BSTATE (e / 8) (e % 8), 34 + 2 * ((o / 32) % 3), 2⟩
    else if o < 0x30000 then some (Reg.MEM_BSTATE_PM (e / 8) (e % 8))
    else if 0x40000 ≤ o && o < 0x80000 then some (Reg.MEM_BSTATE_DM (e / 8) (e % 8) ((o - 0x40000) / 0x4000))
    else none
  else if 0x0100000000 ≤ a && a < 0x0103000000 then
    let b := (a - 0x0100000000) / 0x200000
    let o := (a - 0x0100000000) % 0x200000
    if o < 0x180000 then some (Reg.MEM_BSTATE0_BM b (o / 0x20000)) else none
  else if capBase ≤ a && a < capBase + 0x200000 then some (Reg.MEM_CBSTATE_CB ((a - capBase) / 0x40000))
  else none

/-- The key of a bank in the store of transitions in progress. -/
def Fld.key (x : Fld) : Nat := x.addr * 64 + x.lo

/-- Is a bank ON and in no transition (R253)? -/
def Fab.bankOn (f : Fab) (x : Fld) : Bool := f.get x == 2 && Store.get 0 f.breq x.key == 0

/-- Is the address in no bank of R253, or in a bank that is ON? -/
def Fab.addrOn (f : Fab) (a : Nat) : Bool :=
  match bankFld a with
  | some x => f.bankOn x
  | none => true

/-- Ports of the DDR set in use (R443). -/
def Fab.ddrPorts (f : Fab) : Nat :=
  let s := f.get Reg.DDR_STAT_SET
  if s = 15 then 4 else if s = 3 then 2 else if s = 1 then 1 else 0

/-- Bytes of installed DDR (R448). -/
def Fab.ddrBytes (f : Fab) : Nat :=
  let c := f.get Reg.DDR_STAT_CAP
  if 1 ≤ c && c ≤ 4 then f.ddrPorts * (0x200000000 * 2 ^ c) else 0

/-- The DDR port that serves a DDR offset (R448). -/
def Fab.ddrPort (f : Fab) (o : Nat) : Nat := if f.ddrPorts = 0 then 0 else (o / 0x100) % f.ddrPorts

/-- A number for each bank of on-die SRAM. TCM, the vault, the DMA buffer and the port buffers have banks of 256 KiB (log 97). -/
def bankKey (a : Nat) : Nat :=
  match bankFld a with
  | some x => 8 + x.key
  | none => 100 + (a - 0x0300000000) / 0x40000

/-- The repair entry that serves an address (R277): one per SRAM bank, one per DDR port. -/
def Fab.repairKey (f : Fab) (a : Nat) : Nat := if isDdr a then 1 + f.ddrPort (a - ddrBase) else bankKey a

/-- The code words of the tester's chunk at `a`: two for each of its 32 rows (R290). -/
def chunkWords (a : Nat) : List Nat :=
  let im := a < 0x0C000000 && a % 0x100000 < 0x20000
  let rows := (List.range 32).map (fun i => a + i * (if im then 96 else 32))
  ((rows.filter (fun r => !im || r / 0x100000 == a / 0x100000 && r % 0x100000 < 0x20000)).map
    (fun r => [r / 16, r / 16 + 1])).flatten

/-- Does the background tester hold the bank of an address borrowed (R247, R290)? -/
def Fab.borrowed (f : Fab) (a : Nat) : Bool :=
  f.bit Reg.TEST_STAT_ACTIVE && !isDdr a && bankKey a == bankKey (f.get Reg.TEST_POS_ADDR)

/-! ### Code words of memory (R267–R280) -/

/-- The key tag that writes to a DDR address use now: 2 + the number of its owner's working key; for a granule of no partition that
of the management key, in slot 8 (R260, R451). A cleared working key has number 0 and holds zeros. Tag 0 is a zero marker, tag 1 a
word stored as it is. -/
def Fab.keyTag (f : Fab) (a : Nat) : Nat :=
  2 + Store.get 0 f.keys ((f.granPart ((a - ddrBase) / 0x10000000)).getD 8)

/-- The key pair of a tag. -/
def Fab.keyPair (f : Fab) (tag : Nat) : Nat := Store.get 0 f.pairs (tag - 2)

/-- The data of a DDR code word whose bytes were written under a tag, read under the working key with its ciphertext changed by
`flip` (R394, R451). -/
def Fab.decrypt (f : Fab) (a tag flip : Nat) : Nat :=
  let now := f.keyTag a
  if tag = now && flip = 0 then readN f.mem a 16
  else
    let c := if tag ≤ 1 then readN f.mem a 16 else xtsEnc (f.keyPair tag) (a - ddrBase) (readN f.mem a 16)
    xtsDec (f.keyPair now) (a - ddrBase) (c ^^^ flip)

/-- What a code word decodes to: outcome, the 16 data bytes, corrected symbol and syndromes. -/
structure WordRd where
  out  : RsOut
  data : Nat
  sym  : Nat
  syn  : Nat
  deriving DecidableEq, Repr

/-- Decode the code word number `wa` (its device address divided by 16). The code covers the ciphertext of a DDR word, and reserved
words are recognised before any decryption (R275). A granule whose partition lost its key reads as poison (R263). -/
def Fab.decodeWord (f : Fab) (wa : Nat) : WordRd :=
  let a := 16 * wa
  let ddr := isDdr a
  let tag := if ddr then Store.get 0 f.key wa else 1
  let er := Store.get (0 : BitVec 160) f.err wa
  if ddr && f.lost.contains ((a - ddrBase) / 0x10000000) then ⟨.poison, 0, 0, 0⟩
  else if er = 0 && !(ddr && tag == 0) then
    ⟨.clean, if ddr then f.decrypt a tag 0 else readN f.mem a 16, 0, 0⟩
  else
    let r := rsDecode ddr (if ddr && tag == 0 then er ^^^ zeroMarker else er)
    let left := natBits r.word.toNat 32 128
    match r.out with
    | .clean | .corrected =>
      ⟨r.out, if ddr then f.decrypt a tag left else readN f.mem a 16 ^^^ left, r.sym, r.syn⟩
    | .zero => ⟨.zero, 0, 0, r.syn⟩
    | o => ⟨o, 0, 0, r.syn⟩

/-- Does a read of the code word meet the outcome of poison (R278)? -/
def RsOut.bad : RsOut → Bool
  | .poison | .uncorrectable => true
  | _ => false

/-- Enter a corrected word in the log and count it (R277, R295). -/
def Fab.noteCe (f : Fab) (src wa : Nat) (r : WordRd) : Fab :=
  let f := f.stick (if isDdr (16 * wa) then Reg.SCRUB_ERRCNT_DDR_CE else Reg.SCRUB_ERRCNT_SRAM_CE) 1
  let f := if f.bit Reg.SCRUB_CE_LOG_VALID then f
    else
      let f := f.set Reg.SCRUB_CE_LOG_ADDR (16 * wa)
      let f := f.set Reg.SCRUB_CE_LOG_SYM r.sym
      let f := f.set Reg.SCRUB_CE_LOG_SOURCE src
      let f := f.set Reg.SCRUB_CE_LOG_VALID 1
      f.set Reg.SCRUB_SYND_S r.syn
  if (Store.get (⟨0, false⟩ : Repair) f.repair (f.repairKey (16 * wa))).addr = 0 then
    { f with repair := Store.set ⟨0, false⟩ f.repair (f.repairKey (16 * wa)) ⟨16 * wa + 1, false⟩ }
  else f

/-- Enter a word in the log of uncorrectable words when it is free (R278, R279, R295). -/
def Fab.logUe (f : Fab) (src wa syn : Nat) (dstate partialW : Bool) (dcn : Nat) : Fab :=
  if f.bit Reg.SCRUB_UE_LOG_VALID then f
  else
    let f := f.set Reg.SCRUB_UE_LOG_ADDR (16 * wa)
    let f := f.set Reg.SCRUB_UE_LOG_SOURCE src
    let f := f.set Reg.SCRUB_UE_LOG_DSTATE (b2n dstate)
    let f := f.set Reg.SCRUB_UE_LOG_PARTIAL (b2n partialW)
    let f := f.set Reg.SCRUB_UE_LOG_VALID 1
    let f := f.set Reg.SCRUB_UE_DCN_DCN dcn
    f.set Reg.SCRUB_SYND_S syn

/-- The effects of an UNCORRECTABLE outcome but for MEM_UE: count, and the poison rewrite in the repair entry (R278). -/
def Fab.countUe (f : Fab) (wa : Nat) : Fab :=
  let f := f.stick (if isDdr (16 * wa) then Reg.SCRUB_ERRCNT_DDR_UE else Reg.SCRUB_ERRCNT_SRAM_UE) 1
  if (Store.get (⟨0, false⟩ : Repair) f.repair (f.repairKey (16 * wa))).addr = 0 then
    { f with repair := Store.set ⟨0, false⟩ f.repair (f.repairKey (16 * wa)) ⟨16 * wa + 1, true⟩ }
  else f

/-- The effects of reading one code word on the logs (R277, R278): `src` is the SOURCE code of the reader. -/
def Fab.noteRead (f : Fab) (src wa : Nat) (r : WordRd) : Fab :=
  match r.out with
  | .corrected => f.noteCe src wa r
  | .uncorrectable => ((f.logUe src wa r.syn false false 0).countUe wa).raise 1 true
  | _ => f

/-- The result of a read: the bytes, the address of the first word that read as poison, and the fabric after. -/
structure MemRd where
  data : Nat
  bad  : Option Nat
  fab  : Fab
  deriving DecidableEq, Repr

/-- Read the code words `wa`, `wa + 1`, … for `cnt` words; data is little-endian in word order. -/
def Fab.readWords (f : Fab) (src wa : Nat) : Nat → MemRd
  | 0 => ⟨0, none, f⟩
  | cnt + 1 =>
    let r := f.decodeWord wa
    let rest := (f.noteRead src wa r).readWords src (wa + 1) cnt
    ⟨r.data + 2 ^ 128 * rest.data, if r.out.bad then some (16 * wa) else rest.bad, rest.fab⟩

/-- Read `n` bytes at `a` (1 ≤ n) with the outcomes of R277 and R278. -/
def Fab.read (f : Fab) (src a n : Nat) : MemRd :=
  let w0 := a / 16
  let r := f.readWords src w0 ((a + n - 1) / 16 - w0 + 1)
  ⟨natBits r.data (8 * (a % 16)) (8 * n), r.bad, r.fab⟩

/-- Lose the reservations of the block's engines on the 32-byte row that holds device address `a` (R228). -/
def Fab.loseResv (f : Fab) (a : Nat) : Fab :=
  if 0x0100000000 ≤ a && a < 0x0103000000 then
    let b := (a - 0x0100000000) / 0x200000
    let ea := 0x100000 + (a - 0x0100000000) % 0x200000
    (List.range 8).foldl (fun g i =>
      let en := g.engine (8 * b + i)
      if en.bit Ecs.RESV_VALID && en.get Ecs.RESV_ROW == ea / 32 then
        g.setEng (8 * b + i) (en.setEcsReg Ecs.RESV 0)
      else g) f
  else f

/-- Store a whole code word: new check bits, the owner's key, no pending repair of it, reservations lost (R277, R279). -/
def Fab.putWord (f : Fab) (wa data : Nat) : Fab :=
  let f := { f with
    mem := writeN f.mem (16 * wa) 16 data
    err := Store.set 0 f.err wa 0
    key := if isDdr (16 * wa) then Store.set 0 f.key wa (f.keyTag (16 * wa)) else f.key
    repair := if (Store.get (⟨0, false⟩ : Repair) f.repair (f.repairKey (16 * wa))).addr = 16 * wa + 1 then
        Store.set ⟨0, false⟩ f.repair (f.repairKey (16 * wa)) ⟨0, false⟩ else f.repair }
  f.loseResv (16 * wa)

/-- Make a code word poison (R270, R278). -/
def Fab.poison (f : Fab) (wa : Nat) : Fab :=
  { f with
    mem := writeN f.mem (16 * wa) 16 0
    err := Store.set 0 f.err wa poisonWord
    key := if isDdr (16 * wa) then Store.set 0 f.key wa 1 else f.key
    repair := if (Store.get (⟨0, false⟩ : Repair) f.repair (f.repairKey (16 * wa))).addr = 16 * wa + 1 then
        Store.set ⟨0, false⟩ f.repair (f.repairKey (16 * wa)) ⟨0, false⟩ else f.repair }

/-- The tester writes the words of its chunk that cannot be restored as poison (R292). `lost` has a bit for each. -/
def Fab.chunkLost (f : Fab) (lost : BitVec 64) : Fab :=
  (chunkWords (f.get Reg.TEST_POS_ADDR)).zipIdx.foldl (fun g x =>
    if lost.getLsbD x.2 then (g.logUe 7 x.1 (g.decodeWord x.1).syn false false 0).poison x.1 else g) f

/-- The tester yields (R291): the chunk is restored and its bank is returned. -/
def Fab.testYield (f : Fab) : Fab := ((f.chunkLost f.tBad).set Reg.TEST_STAT_ACTIVE 0).stick Reg.TEST_STAT_ABORTS 1

/-- An access by the bank's engine, by the Avenue or by the Damson core to a borrowed bank makes the tester yield (R291). -/
def Fab.yieldAt (f : Fab) (a : Nat) : Fab := if f.borrowed a then f.testYield else f

/-! ### Conflict counters (R248, R249) -/

/-- Count events of a conflict counter of a block. -/
def Fab.confBump (f : Fab) (b m n : Nat) : Fab :=
  if !(f.get (Reg.MEM_CONFCTL_EN b)).testBit m then f
  else
    let v := f.get (Reg.MEM_CONF_COUNT b m) + n
    let f := f.set (Reg.MEM_CONF_COUNT b m) (v % 2 ^ 48)
    if 2 ^ 48 ≤ v then
      let f := f.set (Reg.MEM_CONFCTL_OVF b) (f.get (Reg.MEM_CONFCTL_OVF b) ||| 2 ^ m)
      if (f.get (Reg.MEM_CONFCTL_OVFIRQ b)).testBit m then f.raise 7 true else f
    else f

/-- Count a conflict counter for ECLK `t`, once. -/
def Fab.confAt (f : Fab) (b m t : Nat) : Fab :=
  if Store.get 0 f.confT (8 * b + m) = t + 1 then f
  else ({ f with confT := Store.set 0 f.confT (8 * b + m) (t + 1) }).confBump b m 1

/-- The block whose banks hold an address. -/
def blockAt (a : Nat) : Option Nat :=
  if a < 0x0C000000 then some (a / 0x800000)
  else if 0x0100000000 ≤ a && a < 0x0103000000 then some ((a - 0x0100000000) / 0x200000)
  else none

/-- Count the ECLK for which a master other than the engines waits at an address: a free number, at least `least` (R243, R248,
log 98). -/
def Fab.confWait (f : Fab) (a m least : Nat) : Fab :=
  match blockAt a with
  | some b =>
    if (f.get (Reg.MEM_CONFCTL_EN b)).testBit m then (f.free 32).2.confBump b m (least + (f.free 32).1) else f
  | none => f

/-- The result of a write: whether part of it was dropped (R279), and the fabric after. -/
structure MemWr where
  dropped : Bool
  fab : Fab
  deriving DecidableEq, Repr

/-- Write bytes lo … hi − 1 of one code word (R236, R279, R280): all 16 store a new word; fewer merge with the decoded
word, and are dropped when it reads as poison. `data` holds the 16-byte word with the new bytes in place. -/
def Fab.writePart (f : Fab) (src wa lo hi data : Nat) : MemWr :=
  if lo = 0 && hi = 16 then ⟨false, f.putWord wa data⟩
  else
    let r := f.decodeWord wa
    match r.out with
    | .poison => ⟨true, f.logUe src wa r.syn false true 0⟩
    | .uncorrectable =>
      let f := f.logUe src wa r.syn false true 0
      let f := f.stick (if isDdr (16 * wa) then Reg.SCRUB_ERRCNT_DDR_UE else Reg.SCRUB_ERRCNT_SRAM_UE) 1
      ⟨true, (f.poison wa).raise 1 true⟩
    | _ =>
      let f := if r.out = .corrected then f.noteCe src wa r else f
      ⟨false, f.putWord wa (natSetBits r.data (8 * lo) (8 * (hi - lo)) (natBits data (8 * lo) (8 * (hi - lo))))⟩

/-- Write over `cnt` code words from `wa`: bytes from byte number `lo` up to `hi` of the span, where the span's data is
laid out from the start of word `wa`. -/
def Fab.writeWords (f : Fab) (src wa lo hi data : Nat) : Nat → MemWr
  | 0 => ⟨false, f⟩
  | cnt + 1 =>
    let r := f.writePart src wa (min lo 16) (min hi 16) (natBits data 0 128)
    let rest := r.fab.writeWords src (wa + 1) (lo - 16) (hi - 16) (data / 2 ^ 128) cnt
    ⟨r.dropped || rest.dropped, rest.fab⟩

/-- Write the low `n` bytes of `v` at `a` (1 ≤ n), as the master of SOURCE code `src`. -/
def Fab.write (f : Fab) (src a n v : Nat) : MemWr :=
  let w0 := a / 16
  f.writeWords src w0 (a % 16) (a % 16 + n) ((v % 2 ^ (8 * n)) * 2 ^ (8 * (a % 16))) ((a + n - 1) / 16 - w0 + 1)

end Sys2Proof.Machine
end

