-- ==== Sys2Proof/Machine/Isc.lean ====
section
/-! DEFINITION. The interrupt steering controller (spec/14): messages, source states, presentation, claims, completion.
A presentation, its withdrawal and a completion take effect in the step that causes them (log 8). -/

namespace Sys2Proof.Machine

/-- Source states (R428). -/
def srcIdle : Nat := 0
def srcGather : Nat := 1
def srcPending : Nat := 2
def srcClaimed : Nat := 3

/-- Is `s` a source number (R422)? -/
def isSource (s : Nat) : Bool := 1 ≤ s && s ≤ 254

/-- Does target `t` belong to the owner of source `s` (R426)? -/
def Fab.targetOf (f : Fab) (s t : Nat) : Bool :=
  if f.bit (Reg.ISC_SCFG_DEV s) then t == 192
  else
    let p := f.get (Reg.ISC_SCFG_OWNER s)
    if t < 192 then f.engPart t == some p
    else t == 193 + f.portOf p && f.bit (Reg.HP_PCFG_VALID p)

/-- The mask bit of a target (R426). -/
def Fab.maskBit (f : Fab) (s t : Nat) : Bool := (f.reg (Reg.ISC_SMASK s (t / 64))).getLsbD (t % 64)

/-- Sources in service at a target, or on its stack, top first. -/
def Fab.istack (f : Fab) (t : Nat) : List Nat := Store.get [] f.istk t

/-- Is target `t` open to source `s` (R430)? -/
def Fab.isOpen (f : Fab) (t s : Nat) : Bool :=
  if 193 ≤ t then true
  else if f.bit Reg.ISC_CTL_MAINT then
    (f.istack t).length < 16 &&
      match f.istack t with
      | [] => true
      | top :: _ => s < top
  else f.istack t == []

/-- Is source `s` to be presented to target `t`? -/
def Fab.toPresent (f : Fab) (s t : Nat) : Bool :=
  f.get (Reg.ISC_SSTAT_STATE s) == srcPending && f.maskBit s t && f.isOpen t s

/-- Show at target `t` whether a source is presented to it (R430), and at an engine since when (R222). -/
def Fab.syncPend (f : Fab) (t : Nat) : Fab :=
  let v := b2n (f.pres.any (fun x => x.2 == t))
  let f := f.set (Reg.ISC_TSTAT_PEND t) v
  if t < 192 then f.updEng t (fun e =>
    { e.set Ecs.INTSTAT_PEND v with pendAt := if e.bit Ecs.INTSTAT_PEND then e.pendAt else f.eclkNow t })
  else f

/-- Begin to present `s` to `t` (R430, R431). -/
def Fab.present (f : Fab) (s t : Nat) : Fab :=
  let f := { f with pres := f.pres ++ [(s, t)] }
  let f := if 193 ≤ t then f.sendMsix (t - 193) s else f
  f.syncPend t

/-- End the presentation of `s` to `t`; a withdrawal (R432) sets the target's or the source's latch. -/
def Fab.unpresent (f : Fab) (s t : Nat) (withdrawn : Bool) : Fab :=
  let f := { f with pres := f.pres.filter (fun x => x ≠ (s, t)) }
  let f := if !withdrawn then f
    else if t < 193 then f.set (Reg.ISC_TSTAT_WITHDRAWN t) 1 else (f.dropMsix (t - 193) s).set (Reg.ISC_SSTAT_HWD s) 1
  f.syncPend t

/-- Bring the presentations of source `s` in line with its state; `by_` is the target whose own claim ended them. -/
def Fab.syncSrc (f : Fab) (s : Nat) (by_ : Option Nat) : Fab :=
  let f := (f.pres.filter (fun x => x.1 == s && !f.toPresent s x.2)).foldl
    (fun g x => g.unpresent s x.2 (by_ ≠ some x.2)) f
  if f.get (Reg.ISC_SSTAT_STATE s) = srcPending then
    ((List.range 197).filter (fun t => f.toPresent s t && !f.pres.contains (s, t))).foldl (fun g t => g.present s t) f
  else f

/-- Bring the presentations at target `t` in line after it opened or closed; `own` says its own claim closed it. -/
def Fab.syncTgt (f : Fab) (t : Nat) (own : Bool) : Fab :=
  let f := (f.pres.filter (fun x => x.2 == t && !f.toPresent x.1 t)).foldl (fun g x => g.unpresent x.1 t (!own)) f
  ((List.range 255).filter (fun s => isSource s && f.toPresent s t && !f.pres.contains (s, t))).foldl
    (fun g s => g.present s t) f

/-- Move source `s` to a state. The timer of R428 starts on entry to GATHER when CTIME is not 0. -/
def Fab.setSrc (f : Fab) (s st : Nat) (by_ : Option Nat) : Fab :=
  let f := f.set (Reg.ISC_SSTAT_STATE s) st
  let f := { f with itim :=
    if st = srcGather then
      (if f.get (Reg.ISC_SCFG_CTIME s) = 0 then f.itim.filter (· ≠ s) else f.itim.filter (· ≠ s) ++ [s])
    else f.itim.filter (· ≠ s) }
  f.syncSrc s by_

/-- An edge request (R428). -/
def Fab.edgeReq (f : Fab) (s : Nat) : Fab :=
  let st := f.get (Reg.ISC_SSTAT_STATE s)
  let n := if st = srcIdle then 1 else min (f.get (Reg.ISC_SSTAT_COUNT s) + 1) 255
  let f := f.set (Reg.ISC_SSTAT_COUNT s) n
  if st = srcIdle then
    f.setSrc s (if f.get (Reg.ISC_SCFG_CCOUNT s) ≤ 1 then srcPending else srcGather) none
  else if st = srcGather && f.get (Reg.ISC_SCFG_CCOUNT s) ≤ n then f.setSrc s srcPending none
  else f

/-- A level message (R424, R428). -/
def Fab.levelMsg (f : Fab) (s : Nat) (lvl : Bool) : Fab :=
  let st := f.get (Reg.ISC_SSTAT_STATE s)
  let f := f.set (Reg.ISC_SSTAT_LEVEL s) (b2n lvl)
  if !f.bit (Reg.ISC_SCFG_EN s) then f
  else if st = srcIdle && lvl then f.setSrc s srcPending none
  else if st = srcPending && !lvl then f.setSrc s srcIdle none
  else f

/-- The ISC takes one message (R423, R424, R428). `ok` says that its sender may raise the source. -/
def Fab.takeMsg (f : Fab) (s : Nat) (lvl ok : Bool) : Fab :=
  if !ok || !isSource s then (f.set Reg.ISC_STAT_DBERR 1).set Reg.ISC_STAT_DBSRC (s % 256)
  else if f.bit (Reg.ISC_SCFG_KIND s) then f.levelMsg s lvl
  else if lvl && f.bit (Reg.ISC_SCFG_EN s) then f.edgeReq s
  else f

/-- The top of a target's stack, or its source in service, in ISC.TSTAT (R440). DEPTH counts stack entries, which only
maintenance mode has (log 8). -/
def Fab.showStack (f : Fab) (t : Nat) : Fab :=
  let l := f.istack t
  let f := f.set (Reg.ISC_TSTAT_TOP t) (l.headD 0)
  f.set (Reg.ISC_TSTAT_DEPTH t) (if f.bit Reg.ISC_CTL_MAINT then l.length else 0)

/-- The lowest-numbered source presented to `t`. -/
def Fab.lowest (f : Fab) (t : Nat) : Option Nat :=
  (f.pres.filter (fun x => x.2 == t)).foldl (fun (m : Option Nat) x =>
    match m with
    | some y => some (min y x.1)
    | none => some x.1) none

/-- Source `s` is claimed by `t` (R428, R433). -/
def Fab.claimSrc (f : Fab) (s t : Nat) : Fab :=
  let f := f.set (Reg.ISC_SSTAT_LASTCNT s) (f.get (Reg.ISC_SSTAT_COUNT s))
  let f := f.set (Reg.ISC_SSTAT_COUNT s) 0
  let f := f.set (Reg.ISC_SSTAT_CLAIMER s) t
  let f := if t < 193 then
      ({ f with istk := Store.set [] f.istk t (s :: f.istack t) } : Fab).showStack t else f
  let f := f.setSrc s srcClaimed (some t)
  if t < 193 then f.syncTgt t true else f

/-- What a claim by an engine or the Damson core returns, claiming nothing (R433, R434). -/
def Fab.peekClaim (f : Fab) (t : Nat) : Nat :=
  match f.lowest t with
  | some s => s
  | none => if f.bit (Reg.ISC_TSTAT_WITHDRAWN t) then 255 else 0

/-- A claim by an engine or the Damson core (R433). -/
def Fab.claim (f : Fab) (t : Nat) : Nat × Fab :=
  let v := f.peekClaim t
  let f' := match f.lowest t with
    | some s => f.claimSrc s t
    | none => f
  (v, f'.set (Reg.ISC_TSTAT_WITHDRAWN t) 0)

/-- What a read of ISC.SCLAIM(s) by its host target returns, claiming nothing (R434). -/
def Fab.peekSclaim (f : Fab) (s : Nat) : Nat :=
  if f.bit (Reg.ISC_SCFG_DEV s) then 0
  else if f.pres.contains (s, 193 + f.portOf (f.get (Reg.ISC_SCFG_OWNER s))) then s
  else if f.bit (Reg.ISC_SSTAT_HWD s) then 255 else 0

/-- A host's claim by reading ISC.SCLAIM(s) on port `n` (R434). -/
def Fab.hostClaim (f : Fab) (s n : Nat) : Nat × Fab :=
  let v := if f.pres.contains (s, 193 + n) then s else if f.bit (Reg.ISC_SSTAT_HWD s) then 255 else 0
  let f := if f.pres.contains (s, 193 + n) then f.claimSrc s (193 + n) else f
  (v, f.set (Reg.ISC_SSTAT_HWD s) 0)

/-- The source leaves CLAIMED by completion (R428). -/
def Fab.afterDone (f : Fab) (s : Nat) : Fab :=
  let en := f.bit (Reg.ISC_SCFG_EN s)
  if f.bit (Reg.ISC_SCFG_KIND s) then
    f.setSrc s (if f.bit (Reg.ISC_SSTAT_LEVEL s) && en then srcPending else srcIdle) none
  else
    let n := f.get (Reg.ISC_SSTAT_COUNT s)
    if n = 0 || !en then (f.set (Reg.ISC_SSTAT_COUNT s) 0).setSrc s srcIdle none
    else f.setSrc s (if f.get (Reg.ISC_SCFG_CCOUNT s) ≤ n then srcPending else srcGather) none

/-- A completion or EOI is discarded (R435, R437). -/
def Fab.completionErr (f : Fab) (src : Option Nat) (t : Nat) : Fab :=
  let f := f.set Reg.ISC_STAT_CERR 1
  let f := match src with
    | some s => f.set Reg.ISC_STAT_CSRC (s % 256)
    | none => f
  f.set Reg.ISC_STAT_CTGT t

/-- Remove a source from a target's record and complete it. -/
def Fab.finish (f : Fab) (s t : Nat) : Fab :=
  let f := if t < 193 then
      ({ f with istk := Store.set [] f.istk t ((f.istack t).filter (· ≠ s)) } : Fab).showStack t else f
  let f := f.afterDone s
  if t < 193 then f.syncTgt t false else f

/-- A completion by target `t` (R435). -/
def Fab.complete (f : Fab) (s t : Nat) : Fab :=
  if !isSource s || (t < 193 && f.bit Reg.ISC_CTL_MAINT) ||
      !(f.get (Reg.ISC_SSTAT_STATE s) == srcClaimed && f.get (Reg.ISC_SSTAT_CLAIMER s) == t) then
    f.completionErr (some s) t
  else f.finish s t

/-- An EOI by an engine or the Damson core (R437); outside maintenance mode there is no stack to pop. -/
def Fab.eoi (f : Fab) (t : Nat) : Fab :=
  match f.istack t with
  | s :: _ => if f.bit Reg.ISC_CTL_MAINT then f.finish s t else f.completionErr none t
  | [] => f.completionErr none t

/-- The coalescing timer of source `s` expires (R428). -/
def Fab.timerExpires (f : Fab) (s : Nat) : Fab :=
  if f.itim.contains s && f.get (Reg.ISC_SSTAT_STATE s) == srcGather then f.setSrc s srcPending none else f

/-- A write of ISC.SCFG(s) (R427, R428): EN, KIND of software sources, CCOUNT (0 stores 1) and CTIME. -/
def Fab.writeScfg (f : Fab) (s : Nat) (v : Word) : Fab :=
  let soft := 113 ≤ s
  let st := f.get (Reg.ISC_SSTAT_STATE s)
  let oldKind := f.get (Reg.ISC_SCFG_KIND s)
  let oldEn := f.get (Reg.ISC_SCFG_EN s)
  let kind := if soft then fget v 1 1 else oldKind
  let en := fget v 0 1
  let f := f.set (Reg.ISC_SCFG_EN s) en
  let f := f.set (Reg.ISC_SCFG_KIND s) kind
  let f := f.set (Reg.ISC_SCFG_CCOUNT s) (if fget v 8 8 = 0 then 1 else fget v 8 8)
  let f := f.set (Reg.ISC_SCFG_CTIME s) (fget v 16 16)
  let f := if fget v 16 16 = 0 then { f with itim := f.itim.filter (· ≠ s) } else f
  if kind ≠ oldKind then
    let f := (f.set (Reg.ISC_SSTAT_COUNT s) 0).set (Reg.ISC_SSTAT_LEVEL s) 0
    if st = srcGather || st = srcPending then f.setSrc s srcIdle none else f
  else if oldEn = 1 && en = 0 && (st = srcGather || st = srcPending) then
    (f.set (Reg.ISC_SSTAT_COUNT s) 0).setSrc s srcIdle none
  else if oldEn = 0 && en = 1 && st = srcIdle && kind = 1 && f.bit (Reg.ISC_SSTAT_LEVEL s) then
    f.setSrc s srcPending none
  else if st = srcGather && f.get (Reg.ISC_SCFG_CCOUNT s) ≤ f.get (Reg.ISC_SSTAT_COUNT s) then
    f.setSrc s srcPending none
  else f

/-- A write of ISC.SMASK(s, i) (R426): bits of targets outside the owner are stored as 0. -/
def Fab.writeSmask (f : Fab) (s i : Nat) (v : Word) : Fab :=
  let keep := (List.range 64).foldl (fun m j =>
    if v.getLsbD j && 64 * i + j < 197 && f.targetOf s (64 * i + j) then m + 2 ^ j else m) 0
  (f.setReg (Reg.ISC_SMASK s i) (w64 keep)).syncSrc s none

/-- A write of ISC.CTL (R438): a change of MAINT while any target holds a source is discarded. -/
def Fab.writeIscCtl (f : Fab) (v : Word) : Fab :=
  if fget v 0 1 = f.get Reg.ISC_CTL_MAINT then f
  else if f.istk ≠ [] then f.set Reg.ISC_STAT_MODEERR 1
  else f.set Reg.ISC_CTL_MAINT (fget v 0 1)

/-- May partition `p` raise source `s` (R423): a software source of its own? -/
def softSourceOf (p s : Nat) : Bool := 113 + 16 * p ≤ s && s < 129 + 16 * p

/-- A message sent by software, with whether its sender may raise the source. -/
def Fab.sendMsg (f : Fab) (s : Nat) (lvl ok : Bool) : Fab := { f with inbox := f.inbox ++ [(s, lvl, ok)] }

/-- Every source owned by partition `p` returns to its reset values, silently (R427). -/
def Fab.resetSources (f : Fab) (own : Nat → Bool) : Fab :=
  let ss := (List.range 255).filter (fun s => isSource s && own s)
  let f := ss.foldl (fun g s =>
    let g := { g with regs := g.regs.filter (fun c => !(Reg.ISC_SCFG s ≤ c.1 && c.1 < Reg.ISC_SCFG s + 0x40))
                      itim := g.itim.filter (· ≠ s) }
    g) f
  let tg := (f.pres.filter (fun x => own x.1)).map (fun x => x.2)
  let held := (f.istk.filter (fun x => x.2.any own)).map (fun x => x.1)
  let f := { f with
    pres := f.pres.filter (fun x => !own x.1)
    msixPend := f.msixPend.filter (fun x => !own x.2)
    istk := (f.istk.map (fun x => (x.1, x.2.filter (fun s => !own s)))).filter (fun x => x.2 ≠ []) }
  let f := tg.foldl (fun g t => g.syncPend t) f
  held.foldl (fun g t => (g.showStack t).syncTgt t true) f

end Sys2Proof.Machine
end

