-- ==== Sys2Proof/Machine/Loop.lean ====
section
/-! DEFINITION. The loop unit and the repeat cache (R190–R198). -/

namespace Sys2Proof.Machine

def LoopRegs.LC (l : LoopRegs) (k : Nat) : Nat := Store.get 0 l.lc k
def LoopRegs.LS (l : LoopRegs) (k : Nat) : Nat := Store.get 0 l.ls k
def LoopRegs.LE (l : LoopRegs) (k : Nat) : Nat := Store.get 0 l.le k
/-- State of loop k: 0 IDLE, 1 ARMED, 2 ACTIVE (R190). -/
def LoopRegs.ST (l : LoopRegs) (k : Nat) : Nat := Store.get 0 l.st k

/-- A write to LCk (R190). -/
def LoopRegs.wrLC (l : LoopRegs) (k v : Nat) : LoopRegs :=
  { l with lc := Store.set 0 l.lc k v, st := Store.set 0 l.st k (if l.ST k = 2 then 2 else 1) }

/-- Apply one event to loop registers (R190, R193). A loop-back takes 1 from the count, modulo 2³² (log 7). -/
def LoopRegs.apply (l : LoopRegs) : LoopEv → LoopRegs
  | .wr _ _ 0 k v => l.wrLC k v
  | .wr _ _ 1 k v => { l with ls := Store.set 0 l.ls k v }
  | .wr _ _ 2 k v => { l with le := Store.set 0 l.le k v }
  | .wr _ _ _ k _ => { l with st := Store.set 0 l.st k 0 }
  | .dec k 0 => { l with lc := Store.set 0 l.lc k ((l.LC k + 2 ^ 32 - 1) % 2 ^ 32) }
  | .dec k 1 => { l with lc := Store.set 0 l.lc k 0, st := Store.set 0 l.st k 0 }
  | .dec k _ => { l with st := Store.set 0 l.st k 2 }

/-- Does an examination in a fetch that begins at `f` see the event (R193)? -/
def LoopEv.seen (f : Nat) : LoopEv → Bool
  | .wr t _ _ _ _ => t < f
  | .dec _ _ => true

/-- The state that an examination in a fetch beginning at `f` works on (R192, R193). -/
def Engine.loopView (e : Engine) (f : Nat) : LoopRegs :=
  (e.loopEvs.filter (LoopEv.seen f)).foldl LoopRegs.apply e.loopBase

/-- Is the event in force for an MVFE in bundle `n` (R79)? -/
def LoopEv.old (n : Nat) : LoopEv → Bool
  | .wr _ q _ _ _ => q ≤ n
  | .dec _ _ => true

/-- The recorded loop registers as an MVFE in bundle `n` reads them (R193). -/
def Engine.loopRead (e : Engine) (n : Nat) : LoopRegs :=
  (e.loopEvs.filter (LoopEv.old n)).foldl LoopRegs.apply e.loopBase

/-- Fold the leading events that every later examination and read sees into the base. -/
def Engine.loopPrune (e : Engine) (f n : Nat) : Engine :=
  let ok (v : LoopEv) : Bool := v.seen f && v.old n
  { e with loopBase := (e.loopEvs.takeWhile ok).foldl LoopRegs.apply e.loopBase, loopEvs := e.loopEvs.dropWhile ok }

/-- Record an event: it acts on the recorded state now and on examinations as they come to see it. -/
def Engine.loopEv (e : Engine) (v : LoopEv) : Engine :=
  { e with loops := e.loops.apply v, loopEvs := e.loopEvs ++ [v] }

/-- What an examination finds (R191, R194): the final address, the decisions, whether an end test was made, and whether
an entry step met LE ≤ LS. -/
structure Exam where
  a    : Nat
  decs : List (Nat × Nat)
  endT : Bool
  bad  : Bool
  deriving DecidableEq, Repr

/-- Offset 0x2_0000 continues at 0 (R199). -/
def wrapIm (a : Nat) : Nat := if a = 0x20000 then 0 else a % 0x20000

/-- End tests of the ACTIVE loops `ks` at a sequential arrival (R191 step 1). The last component says whether the
examination stops. -/
def examEnd (l : LoopRegs) (a : Nat) : List Nat → LoopRegs × Exam × Bool
  | [] => (l, ⟨a, [], false, false⟩, false)
  | k :: t =>
    if l.ST k = 2 && l.LE k == a then
      if 1 < l.LC k then (l.apply (.dec k 0), ⟨l.LS k, [(k, 0)], true, false⟩, true)
      else
        let r := examEnd (l.apply (.dec k 1)) a t
        (r.1, ⟨r.2.1.a, (k, 1) :: r.2.1.decs, true, r.2.1.bad⟩, r.2.2)
    else examEnd l a t

/-- Entries of the ARMED loops `ks` at `a` (R191 step 2): decisions, an address to examine again after a skip, and
whether an entry broke R194. -/
def examEntry (l : LoopRegs) (a : Nat) : List Nat → LoopRegs × List (Nat × Nat) × Option Nat × Bool
  | [] => (l, [], none, false)
  | k :: t =>
    if l.ST k = 1 && l.LS k == a then
      if l.LE k ≤ l.LS k then (l, [], none, true)
      else if l.LC k = 0 then
        let ks := k :: t.filter (fun j => l.ST j == 1 && l.LS j == a)
        (ks.foldl (fun m j => m.apply (.dec j 1)) l, ks.map (fun j => (j, 1)), some (l.LE k), false)
      else
        let r := examEntry (l.apply (.dec k 2)) a t
        (r.1, (k, 2) :: r.2.1, r.2.2.1, r.2.2.2)
    else examEntry l a t

/-- The examination of a successor (R191). `fuel` bounds the skips: each makes a loop IDLE, so 5 suffices. -/
def exam (l : LoopRegs) (a : Nat) (seq : Bool) : Nat → Exam
  | 0 => ⟨wrapIm a, [], false, false⟩
  | fuel + 1 =>
    let r1 := if seq then examEnd l a [0, 1, 2, 3] else (l, ⟨a, [], false, false⟩, false)
    if r1.2.2 then ⟨wrapIm r1.2.1.a, r1.2.1.decs, true, false⟩
    else
      let r2 := examEntry r1.1 (wrapIm r1.2.1.a) [3, 2, 1, 0]
      if r2.2.2.2 then ⟨wrapIm a, [], r1.2.1.endT, true⟩
      else
        match r2.2.2.1 with
        | none => ⟨wrapIm r1.2.1.a, r1.2.1.decs ++ r2.2.1, r1.2.1.endT, false⟩
        | some a' =>
          let r3 := exam r2.1 a' true fuel
          ⟨r3.a, r1.2.1.decs ++ r2.2.1 ++ r3.decs, r1.2.1.endT || r3.endT, r3.bad⟩

/-! ### The repeat cache -/

/-- Invalidate the repeat cache at ECLK `t` (R198): fetches that began earlier may still have been served. -/
def Engine.dropCache (e : Engine) (t : Nat) : Engine :=
  match e.rc with
  | some c => { e with rc := none, rcOld := some (c, t) }
  | none => e

/-- Bytes of the bundle whose header is the low word of `w` (R52). -/
def bundleLen (w : Nat) : Nat := 4 * (1 + popc 7 (natBits w 25 7))

/-- Does a store into IM that is written by ECLK `f` cover part of [off, off + n) (R75)? -/
def Engine.imCovers (e : Engine) (off n f : Nat) : Bool :=
  e.imPend.any (fun s => s.at_ ≤ f && s.off < off + n && off < s.off + s.len)

/-- The bundle that the repeat cache serves to a fetch at IM offset `pc` that begins at `f` (R197). -/
def Engine.cacheHit (e : Engine) (pc f : Nat) : Option Nat :=
  let look (c : RepCache) : Option Nat :=
    match c.doneAt with
    | some d => if d < f then (c.ents.find? (fun x => x.1 == pc)).map (fun x => x.2.toNat) else none
    | none => none
  let hit := match e.rcOld with
    | some (c, t) => if f < t then look c else e.rc.bind look
    | none => e.rc.bind look
  match hit with
  | some w => if e.imCovers pc (bundleLen w) f then none else hit
  | none => none

/-- Record the decisions of the bundle that issues at `t`, and their effect on the repeat cache (R192, R196, R198). -/
def Engine.recordDecs (e : Engine) (t : Nat) : List (Nat × Nat) → Engine
  | [] => e
  | (k, act) :: rest =>
    let e := e.loopEv (.dec k act)
    let e := if act = 2 then { e.dropCache t with rc := some ⟨k, true, [], 0, none⟩ }
      else if act = 1 && e.rc.any (fun c => c.loop == k) then e.dropCache t
      else e
    e.recordDecs t rest

/-- Fill the repeat cache with a bundle that issues at `t` (R196). `taken` is a taken branch; `seqA` the sequential
successor. A bundle whose bytes a store not yet seen by fetches covers is left out of the fill (R73, R75). -/
def Engine.fillCache (e : Engine) (t pc words seqA : Nat) (taken : Bool) : Engine :=
  match e.rc with
  | some c =>
    if !c.fill then e
    else if taken || 32 < c.cnt + 1 then { e with rc := none }
    else
      let ents := if e.imPend.any (fun s => s.off < pc + bundleLen words && pc < s.off + s.len) then c.ents
        else c.ents.put pc (BitVec.ofNat 256 words)
      let done := seqA == e.loops.LE c.loop
      { e with rc := some { c with ents := ents, cnt := c.cnt + 1, fill := !done, doneAt := if done then some t else none } }
  | none => e

end Sys2Proof.Machine
end

