-- ==== Sys2Proof/Machine/Ring.lean ====
section
/-! DEFINITION. The rings of a share (R358–R362, R368): stimulus queue 0, command queue 1, input log 2, capture 3. -/

namespace Sys2Proof.Machine

/-- Device address of a ring's first byte (R370): a DDR offset, or for the capture ring a device address. -/
def Fab.ringBase (f : Fab) (p q : Nat) : Nat :=
  (if q = 3 then 0 else ddrBase) + f.get (Reg.SQ_BASE_BASE p q) * 0x1000

/-- Size of a ring in bytes. -/
def Fab.ringSize (f : Fab) (p q : Nat) : Nat := 2 ^ f.get (Reg.SQ_BASE_LOG2SIZE p q)

/-- Producer and consumer offsets. -/
def Fab.prod (f : Fab) (p q : Nat) : Nat := f.get (Reg.SQ_PTR_PROD p q)
def Fab.cons (f : Fab) (p q : Nat) : Nat := f.get (Reg.SQ_PTR_CONS p q)

/-- Bytes from offset `lo` forward to offset `hi` in a ring. -/
def Fab.ringDist (f : Fab) (p q lo hi : Nat) : Nat :=
  let n := f.ringSize p q
  (hi % n + n - lo % n) % n

/-- Advance an offset in a ring. -/
def Fab.ringAdv (f : Fab) (p q off n : Nat) : Nat := (off + n) % f.ringSize p q

/-- Read `n` bytes at a ring offset; a record may run over the end of its ring. Source 2 is the Square (R295). -/
def Fab.ringRead (f : Fab) (p q off n : Nat) : MemRd :=
  let sz := f.ringSize p q
  let o := off % sz
  if o + n ≤ sz then f.read 2 (f.ringBase p q + o) n
  else
    let r1 := f.read 2 (f.ringBase p q + o) (sz - o)
    let r2 := r1.fab.read 2 (f.ringBase p q) (n - (sz - o))
    ⟨r1.data + 2 ^ (8 * (sz - o)) * r2.data, (if r1.bad.isSome then r1.bad else r2.bad), r2.fab⟩

/-- Write `n` bytes at a ring offset. -/
def Fab.ringWrite (f : Fab) (p q off n v : Nat) : Fab :=
  let sz := f.ringSize p q
  let o := off % sz
  if o + n ≤ sz then (f.write 2 (f.ringBase p q + o) n v).fab
  else
    let f := (f.write 2 (f.ringBase p q + o) (sz - o) (v % 2 ^ (8 * (sz - o)))).fab
    (f.write 2 (f.ringBase p q) (n - (sz - o)) (v / 2 ^ (8 * (sz - o)))).fab

/-- A stimulus record's header (R358) and whether the Square takes it: `mark` for a MARK record. -/
structure StimHdr where
  dcn   : Nat
  eng   : Nat
  row   : Nat
  nrows : Nat
  ok    : Bool
  mark  : Bool
  deriving DecidableEq, Repr

/-- Decode a stimulus header against the share's active engines (R358). `last` is the DCN of the record before. -/
def Fab.stimHdr (f : Fab) (p h last : Nat) : StimHdr :=
  let eng := natBits h 64 8
  let row := natBits h 72 5
  let nr := natBits h 77 6
  let mark := eng == 255
  ⟨natBits h 0 64, eng, row, nr,
    natBits h 120 8 == 1 && natBits h 83 37 == 0 && natBits h 128 128 == 0 &&
      (if mark then nr == 0 else nr != 0 && row + nr ≤ 32 && f.activeIn p eng) && last ≤ natBits h 0 64, mark⟩

/-- Bytes of a record: a header and its rows. A header that names more than 32 rows counts as its header alone. -/
def StimHdr.size (h : StimHdr) : Nat := 32 + (if h.nrows ≤ 32 then 32 * h.nrows else 0)

/-- Is the stimulus for design cycle `n` present (R358): a taken record with a larger DCN, or a MARK with DCN ≥ n,
between `off` and PROD? Also gives the log bytes of the records up to `n` that are not yet consumed. `fuel` bounds the
records looked at. -/
def Fab.stimScan (f : Fab) (p n : Nat) : Nat → Nat → Nat → Nat → Bool × Nat
  | 0, _, _, bytes => (false, bytes)
  | fuel + 1, off, last, bytes =>
    if f.ringDist p 0 off (f.prod p 0) < 32 then (false, bytes)
    else
      let h := f.stimHdr p (f.ringRead p 0 off 32).data last
      if h.ok && (n < h.dcn || (h.mark && n ≤ h.dcn)) then (true, bytes)
      else f.stimScan p n fuel (f.ringAdv p 0 off h.size) (if h.ok then h.dcn else last)
        (bytes + (if h.ok && !h.mark then h.size else 0))

/-- Records that can stand between two offsets, for the scans' bound. -/
def Fab.stimFuel (f : Fab) (p : Nat) : Nat := f.ringDist p 0 (f.cons p 0) (f.prod p 0) / 32 + 1

/-- Free bytes of the input log (R362). -/
def Fab.ilogFree (f : Fab) (p : Nat) : Nat :=
  f.ringSize p 2 - 1 - f.ringDist p 2 (f.cons p 2) ((f.share p).ilogW)

/-- Free bytes of the capture ring. -/
def Fab.capFree (f : Fab) (p : Nat) : Nat :=
  f.ringSize p 3 - 1 - f.ringDist p 3 (f.cons p 3) ((f.share p).capW)

/-- Bytes of one capture record of an engine (R368): a header and W state words. -/
def Fab.capSize (f : Fab) (e : Nat) : Nat := 32 + 32 * (f.engine e).get Ecs.DCFG_WORDS

/-- Is the share ready for the interval up to design cycle `last` (R25, R341, R362): stimulus present, log space for it, and
where capture is on, space for the records of every design cycle up to `last`? -/
def Fab.readyFor (f : Fab) (p last : Nat) : Bool :=
  let r := f.stimScan p last (f.stimFuel p) (f.share p).stRd (f.share p).lastSt 0
  (r.1 || last ≤ (f.share p).lastMk) && r.2 ≤ f.ilogFree p &&
    (!f.bit (Reg.SQ_CTL_CAPEN p) ||
      (last - f.get (Reg.SQ_DCN_DCN p)) * ((f.actives p).map f.capSize).sum ≤ f.capFree p)

/-- Advance STIMQ CONS past the records, discarded ones included, whose DCN is committed (R358). The second part is the DCN of the
last record in order that it passes. -/
def Fab.stimCommit (f : Fab) (p c : Nat) : Nat → Nat → Nat → Nat × Nat
  | 0, off, last => (off, last)
  | fuel + 1, off, last =>
    if off = (f.share p).stRd || f.ringDist p 0 off (f.prod p 0) < 32 then (off, last)
    else
      let h := f.stimHdr p (f.ringRead p 0 off 32).data last
      if h.dcn ≤ c then f.stimCommit p c fuel (f.ringAdv p 0 off h.size) (if h.ok then h.dcn else last) else (off, last)

/-- Append bytes to the input log, tagged with the design cycle they belong to (R362). -/
def Fab.ilogAppend (f : Fab) (p tag n v : Nat) : Fab :=
  let s := f.share p
  let f := f.ringWrite p 2 s.ilogW n v
  let w := f.ringAdv p 2 s.ilogW n
  f.updSh p (fun s => { s with ilogW := w, ilogRecs := s.ilogRecs ++ [(tag, w)] })

/-- The position after the last record tagged `c` or less, or `d` where there is none. -/
def lastPos (l : List (Nat × Nat)) (c d : Nat) : Nat :=
  l.foldl (fun r x => if x.1 ≤ c then x.2 else r) d

/-- A command record of the command queue (R360). -/
structure Cmd where
  raw  : Nat
  nb   : Nat
  kind : Nat
  exact : Bool
  addr : Nat
  ddr  : Bool
  mask : Nat
  data : Nat
  clean : Bool
  deriving DecidableEq, Repr

/-- Decode a command record; `clean` says its TYPE is right and its unlisted bits are 0 (R360). -/
def decodeCmd (r : Nat) : Cmd :=
  ⟨r, natBits r 0 64, natBits r 64 8, r.testBit 72, natBits r 128 40, r.testBit 168, natBits r 192 32, natBits r 256 256,
    natBits r 120 8 == 2 && natBits r 73 7 == 0 && natBits r 104 16 == 0 && natBits r 169 23 == 0 &&
      natBits r 224 32 == 0⟩

/-- Does some EXACT command at the head of the command queue make the interval end at DCN `n` (R361): every command
before it has a NOT_BEFORE no larger than its own? -/
def Fab.exactEnd (f : Fab) (p n : Nat) : Nat → Nat → Bool
  | 0, _ => false
  | fuel + 1, off =>
    if f.ringDist p 1 off (f.prod p 1) < 64 then false
    else
      let c := decodeCmd (f.ringRead p 1 off 64).data
      if n < c.nb then false
      else (c.exact && c.nb == n) || f.exactEnd p n fuel (f.ringAdv p 1 off 64)

end Sys2Proof.Machine
end

