-- ==== Sys2Proof/Machine/Square.lean ====
section
/-! DEFINITION. What the Square does with intervals (spec/11): failing, deciding, committing, rolling back, halting,
early ends and undo journals. Each operation is shared by the commands in which it can come about. -/

namespace Sys2Proof.Machine

/-- Device address of page slot `k` of an engine's Arcade bank (R111). -/
def slotBase (e k : Nat) : Nat := arcBase e + 0x2000 + 0x800 * k

/-- A SQUARE flit (R339): type, SQID, DCN, bits [119:88] and FLAGS. -/
def sqFlit (ty sqid dcn t flags : Nat) : Flit :=
  rsEncode (ty + sqid * 2 ^ 8 + dcn % 2 ^ 64 * 2 ^ 24 + t % 2 ^ 32 * 2 ^ 88 + flags % 2 ^ 8 * 2 ^ 120)

/-- Is this device the root of the share's tree (R338)? -/
def Fab.isRoot (f : Fab) (p : Nat) : Bool := f.get (Reg.SQ_TREE_PARENT p) == 0x1F

/-- The ports to the share's children (R338). -/
def Fab.children (f : Fab) (p : Nat) : List Nat :=
  (List.range 16).filter (fun c => (f.get (Reg.SQ_TREE_CHILD p)).testBit c)

/-- Is a Caluf port ACTIVE (R319)? -/
def Fab.portActive (f : Fab) (c : Nat) : Bool := f.get (Reg.LINK_STAT_STATE c) == 6

/-- Send a SQUARE or TBLSYNC flit on a port; only an ACTIVE port carries SQUARE messages (R338). It follows every scheduled flit
that is still on its way to the port (R317). -/
def Fab.sendFlit (f : Fab) (c : Nat) (w : Flit) : Fab :=
  if !f.portActive c then f
  else if f.puts.any (fun u => u.tgt == 192 + c && u.lost.isNone) then f.updPort c (fun l => { l with sqq := l.sqq ++ [w] })
  else f.emit (.flit c w)

/-- Slot-table entry number `k` of a port: transmit (`rx` false) or receive (R325). -/
def Fab.slotEntry (f : Fab) (c : Nat) (rx : Bool) (k : Nat) : Nat :=
  readN f.mem (0x0300400000 + c * 0x40000 + (if rx then 0x8000 else 0) + 8 * k) 8

/-- Fields of a slot-table entry. -/
def entOff (e : Nat) : Nat := natBits e 0 16
def entEng (e : Nat) : Nat := natBits e 16 8
def entByte (e : Nat) : Nat := 16 * natBits e 24 10
def entNxt (e : Nat) : Bool := e.testBit 62
def entV (e : Nat) : Bool := e.testBit 63

/-- Send a SQUARE message towards the root; the root itself sends none. -/
def Fab.sendUp (f : Fab) (p ty dcn t flags : Nat) : Fab :=
  if f.isRoot p then f
  else f.sendFlit (f.get (Reg.SQ_TREE_PARENT p)) (sqFlit ty (f.get (Reg.SQ_TREE_SQID p)) dcn t flags)

/-- Send a SQUARE message to every child. -/
def Fab.sendDown (f : Fab) (p ty dcn t flags : Nat) : Fab :=
  (f.children p).foldl (fun g c => g.sendFlit c (sqFlit ty (f.get (Reg.SQ_TREE_SQID p)) dcn t flags)) f

/-- Flags of a message from its four bits. -/
def flags4 (b0 b1 b2 b3 : Bool) : Nat := b2n b0 + 2 * b2n b1 + 4 * b2n b2 + 8 * b2n b3

/-! ### Undo journals (R354–R357) -/

/-- Is the row that holds a device address in memory declared journaled (R354)? -/
def Fab.journaled (f : Fab) (a : Nat) : Bool :=
  if a < 0x0C000000 then
    let e := a / 0x100000
    let o := a % 0x100000
    0x40000 ≤ o && o < 0x7C000 && (f.reg (Reg.SQ_JMEM (e / 8) (e % 8))).getLsbD ((o - 0x40000) / 0x4000)
  else if 0x0100000000 ≤ a && a < 0x0103000000 then
    let b := (a - 0x0100000000) / 0x200000
    let o := (a - 0x0100000000) % 0x200000
    o < 0x140000 && (f.reg (Reg.SQ_JMEM0 b)).getLsbD (o / 0x20000)
  else if isDdr a then
    let g := (a - ddrBase) / 0x10000000
    (f.reg (Reg.SQ_JDDR (g / 64))).getLsbD (g % 64)
  else false

/-- The block whose journal covers an SRAM address. -/
def blockOfAddr (a : Nat) : Nat := if a < 0x0C000000 then a / 0x800000 else (a - 0x0100000000) / 0x200000

/-- Entries that a journal holds (R355): 4,096 in banks 10 and 11; the DDR region in 64-byte entries. -/
def blockJCap : Nat := 4096
def Fab.ddrJCap (f : Fab) (p : Nat) : Nat := f.get (Reg.SQ_JCFG_DSIZE p) * 0x100000

/-- The blocks of a partition on this device. -/
def Fab.blocks (f : Fab) (p : Nat) : List Nat := (List.range 24).filter (fun b => f.unitPart b == some p)

/-- Show the journal use in SQ.JSTAT (R370). -/
def Fab.jstat (f : Fab) (p : Nat) : Fab :=
  let s := f.share p
  let f := f.set (Reg.SQ_JSTAT_BMUSE p) ((f.blocks p).foldl (fun m b => max m (Store.get [] s.bj b).length) 0)
  f.set (Reg.SQ_JSTAT_DUSE p) (s.dj.length / 1024)

/-- Does a journal with `n` entries of `cap` pass the watermark (R350)? -/
def Fab.passesHigh (f : Fab) (p n cap : Nat) : Bool := f.get (Reg.SQ_JCFG_HIGH p) * cap < 16 * n

/-- Is any journal of the share above the watermark? -/
def Fab.anyHigh (f : Fab) (p : Nat) : Bool :=
  (f.blocks p).any (fun b => f.passesHigh p (Store.get [] (f.share p).bj b).length blockJCap) ||
    f.passesHigh p (f.share p).dj.length (f.ddrJCap p)

/-- Is a journal entry still kept (R357): its interval uncommitted, or a PRIOR or HELD view below it? -/
def Fab.keepEntry (f : Fab) (p : Nat) (j : JEntry) : Bool :=
  f.get (Reg.SQ_CDCN_DCN p) < j.dcn ||
    ((f.share p).prior.isSome && f.get (Reg.SQ_PRIOR_DCN p) < j.dcn) ||
    ((f.share p).held.isSome && (f.share p).heldDcn < j.dcn)

/-- Free the journal segments that nothing keeps (R357). -/
def Fab.freeSegments (f : Fab) (p : Nat) : Fab :=
  let f := f.updSh p (fun s => { s with
    bj := (s.bj.map (fun x => (x.1, x.2.filter (fun j => f.keepEntry p j)))).filter (fun x => x.2 ≠ [])
    dj := s.dj.filter (fun j => f.keepEntry p j) })
  f.jstat p

/-- Drop the PRIOR view (R336, R357): its slot becomes FREE unless HELD pins it. -/
def Fab.dropPrior (f : Fab) (p : Nat) : Fab :=
  let f := f.updSh p (fun s => { s with prior := none })
  (f.set (Reg.SQ_STAT_PRIORV p) 0).freeSegments p

/-- Copy one code word to another, poison as poison (R278): word numbers. The result names the word that read as poison. -/
def Fab.copyWord (f : Fab) (sw dw : Nat) : Fab × Option Nat :=
  let r := f.read 2 (16 * sw) 16
  match r.bad with
  | some a => (r.fab.poison dw, some a)
  | none => ((r.fab.write 2 (16 * dw) 16 r.data).fab, none)

/-- Write one entry of a journal where it stands in memory: the header, then the old row, a word that reads as poison as
poison (R355, R278, log 6). -/
def Fab.putEntry (f : Fab) (j : JEntry) : Fab :=
  let f := (f.write 2 j.at_ 32 (j.row + j.iv % 256 * 2 ^ 48 + j.dcn * 2 ^ 64)).fab
  let f := (f.copyWord (j.row / 16) (j.at_ / 16 + 2)).1
  (f.copyWord (j.row / 16 + 1) (j.at_ / 16 + 3)).1

/-! ### Rollback, halt and decisions -/

/-- Does a word of a journal entry read UNCORRECTABLE (R356)? Its address. -/
def Fab.entryLost (f : Fab) (j : JEntry) : Option Nat :=
  ((List.range 4).find? (fun i => (f.decodeWord (j.at_ / 16 + i)).out == .uncorrectable)).map (fun i => j.at_ + 16 * i)

/-- Undo one entry (R352): write the old row back. An entry that reads UNCORRECTABLE is a loss (R356, R289), and the row that it
would have restored becomes poison (R38, R345). -/
def Fab.undo (f : Fab) (j : JEntry) : Fab × Option Nat :=
  match f.entryLost j with
  | some a => (((f.read 2 j.at_ 64).fab.poison (j.row / 16)).poison (j.row / 16 + 1), some a)
  | none =>
    let f := (f.copyWord (j.at_ / 16 + 2) (j.row / 16)).1
    ((f.copyWord (j.at_ / 16 + 3) (j.row / 16 + 1)).1, none)

/-- Undo a list of entries, newest first. -/
def Fab.undoAll (f : Fab) : List JEntry → Fab × Option Nat
  | [] => (f, none)
  | j :: t =>
    let r := f.undo j
    let r' := r.1.undoAll t
    (r'.1, if r.2.isSome then r.2 else r'.2)

/-- Copy a page of W words of an engine from one slot to another, poison as poison (R336, R278): the first word that read as
poison. -/
def Fab.copyPage (f : Fab) (e src dst : Nat) : Fab × Option Nat :=
  (List.range (2 * (f.engine e).get Ecs.DCFG_WORDS)).foldl (fun (g : Fab × Option Nat) i =>
    let r := g.1.copyWord (slotBase e src / 16 + i) (slotBase e dst / 16 + i)
    (r.1, if g.2.isSome then g.2 else r.2)) (f, none)

/-- What a rollback does to each engine (R352 steps 1, 5, 6, 7): issue stops, operations in flight are discarded, the
user bank is visible again, PRIV and IE are those of the latest release, caches and reservation are lost. A halted
engine keeps its halt; its ECS.DPC names ENTRY (R532). -/
def Engine.rollback (en : Engine) : Engine :=
  let swap := en.bit Ecs.TRAPSTAT_SH
  let lowA (s : Store Word) := s.filter (fun c => c.1 < 16)
  let en := if swap then { en with
      a := lowA en.shA ++ en.a.filter (fun c => 16 ≤ c.1)
      shA := lowA en.a
      p := (en.p &&& 0xFF01) ||| (en.shP &&& 0xFE)
      shP := en.p &&& 0xFE
      loops := en.shL
      shL := en.loops } else en
  let en := { en with
    quince := none
    parked := none
    far := []
    pend := []
    ecsPend := []
    imPend := []
    loopBase := { en.loops with st := [] }
    loops := { en.loops with st := [] }
    loopEvs := []
    rc := none
    rcOld := none
    btb := []
    btbPtr := 0
    written := 0
    trap := none
    derr := []
    retWait := []
    portA := []
    phase := .unreleased
    pc := en.get Ecs.DCFG_ENTRY * 4 }
  let en := en.set Ecs.TRAPSTAT_SH 0
  let en := en.set Ecs.TRAPSTAT_BUSY 0
  let en := en.set Ecs.QCTX_PEND 0
  let en := en.set Ecs.QCTX_LOST 0
  let en := en.set Ecs.MODE_PRIV (b2n en.relPriv)
  let en := en.set Ecs.MODE_IE (b2n en.relIe)
  let en := en.setEcsReg Ecs.RESV 0
  if en.halted then en.set Ecs.DPC_PC (en.get Ecs.DCFG_ENTRY) else en

/-- The Caluf ports that a partition owns (R257). -/
def Fab.portsOf (f : Fab) (p : Nat) : List Nat := (List.range 16).filter (fun c => f.unitPart (24 + c) == some p)

/-- SQUARE flits that waited behind the scheduled flits of a port leave it (R317). -/
def Fab.drainSq (f : Fab) (c : Nat) : Fab :=
  if f.puts.any (fun u => u.tgt == 192 + c && u.lost.isNone) then f
  else ((f.port c).sqq.foldl (fun g w => if g.portActive c then g.emit (.flit c w) else g) f).updPort c (fun l => { l with sqq := [] })

/-- The ports of a share discard every scheduled flit not yet released, and their counts return to 0 (R330). -/
def Fab.clearPorts (f : Fab) (p : Nat) : Fab :=
  (f.portsOf p).foldl (fun g c => (g.drainSq c).updPort c (fun l => { l with k := 0, rel := 0, held := [], txDcn := 0, txIdx := 0 })) f

/-- R352: restore the share to COMMITTED. Gives the fabric and the address of a loss, if any. -/
def Fab.restore (f : Fab) (p : Nat) : Fab × Option Nat :=
  let act := f.actives p
  let s := f.share p
  let c := f.get (Reg.SQ_CDCN_DCN p)
  -- far stores in flight are performed; those to journaled rows would be undone at once
  let mine := f.farSt.filter (fun x => act.contains x.eng)
  let f := { f with
    puts := f.puts.filter (fun x => match x.src with
      | some e => !act.contains e
      | none => if 192 ≤ x.tgt then f.unitPart (24 + (x.tgt - 192)) ≠ some p else !act.contains x.tgt)
    past := []
    pbT := f.pbT.filter (fun x => !act.contains x.1)
    farSt := f.farSt.filter (fun x => !act.contains x.eng) }
  let f := mine.foldl (fun g x =>
    if g.journaled x.dev then g else (g.write 1 x.dev x.size x.data.toNat).fab) f
  let f := act.foldl (fun g e => g.updEng e Engine.rollback) f
  let undoB := (s.bj.map (fun x => x.2.filter (fun j => c < j.dcn))).flatten
  let r1 := f.undoAll undoB
  let r2 := r1.1.undoAll (s.dj.filter (fun j => c < j.dcn))
  let r3 := act.foldl (fun (g : Fab × Option Nat) e =>
    let r := g.1.copyPage e s.comm s.live
    (r.1, if g.2.isSome then g.2 else r.2)) (r2.1, none)
  let f := r3.1
  let f := f.set (Reg.SQ_DCN_DCN p) c
  let f := f.updSh p (fun s => { s with
    pendS := none
    iStart := c + 1
    ownRep := none
    childRep := []
    sentUp := false
    barOwn := none
    barChild := []
    barSent := false
    relDcn := none
    bWait := false
    holdSent := false
    holdChild := []
    failSent := false
    failAtResume := none
    endSent := false
    waitStop := false
    sBad := false
    jOver := none
    jHigh := false
    ivNum := (s.comIv + 1) % 256
    force := s.forceCom
    forcePend := s.forceCom
    cmdRedo := true
    ilogRecs := s.ilogRecs.filter (fun x => x.1 ≤ c)
    ilogW := lastPos s.ilogRecs c (f.prod p 2)
    capRecs := s.capRecs.filter (fun x => x.1 ≤ c)
    capW := lastPos s.capRecs c (f.prod p 3)
    stRd := f.cons p 0
    lastSt := s.lastStC
    lastMk := 0
    jrows := []
    bj := (s.bj.map (fun x => (x.1, x.2.filter (fun j => j.dcn ≤ c)))).filter (fun x => x.2 ≠ [])
    dj := s.dj.filter (fun j => j.dcn ≤ c) })
  let f := (f.set (Reg.SQ_STAT_WAITING p) 0).clearPorts p
  (f.jstat p, if r1.2.isSome then r1.2 else if r2.2.isSome then r2.2 else r3.2)

/-- Record a loss of design state (R38). -/
def Fab.recordLoss (f : Fab) (p a : Nat) : Fab :=
  if f.bit (Reg.SQ_LOSS_VALID p) then f
  else
    let f := f.set (Reg.SQ_LOSS_ADDR p) a
    let f := f.set (Reg.SQ_LOSS_VALID p) 1
    f.set (Reg.SQ_LOSS_DCN_DCN p) (f.get (Reg.SQ_CDCN_DCN p))

/-- The share halts at its last commit with a cause (R344, R345): restore, HALT sent up and down, SQ_HALT raised. A loss that
the restore meets makes the cause DATA_LOSS. A share that is STOPPED or HALTED does not change. -/
def Fab.halt (f : Fab) (p cause : Nat) : Fab :=
  if f.st p = 0 || f.st p = 5 then f
  else
    let r := f.restore p
    let f := r.1
    let f := match r.2 with
      | some a => f.recordLoss p a
      | none => f
    let cause := if r.2.isSome then 2 else cause
    let f := f.set (Reg.SQ_STAT_STATE p) 5
    let f := f.set (Reg.SQ_STAT_HALTCAUSE p) cause
    let f := f.updSh p (fun s => { s with relT := none, goNext := none, dStop := false, dHold := false, readyChild := [] })
    let c := f.get (Reg.SQ_CDCN_DCN p)
    let f := f.sendUp p 0x28 c cause 0
    let f := f.sendDown p 0x28 c cause 0
    f.raise (25 + p) true

/-- HALT_DATA_LOSS at an address (R38). A share that is STOPPED or HALTED keeps its state; the loss is recorded and marked in
HALTCAUSE all the same. -/
def Fab.dataLoss (f : Fab) (p a : Nat) : Fab :=
  let f := f.recordLoss p a
  if f.st p = 0 || f.st p = 5 then f.set (Reg.SQ_STAT_HALTCAUSE p) 2 else f.halt p 2

/-- The planned end of an interval that starts at design cycle `start` (R20, R23): its length, or an early end ordered for it. -/
def Fab.planEnd (f : Fab) (p start : Nat) : Nat :=
  let e := min (start + f.get (Reg.SQ_INTERVAL_LEN p)) 0xFFFFFFFFFFFFFFFF
  (f.share p).forcedEnd.foldl (fun m x => if start ≤ x then min m x else m) e

/-- Roll the share back (R344, R352): restore, then wait in ROLLBACK until ECLK `at_`, the restart time. A device counts the
rollback as a failure of the interval (R346) unless it reported CAPTURE_FULL or STIM_LATE itself; the root counts in `rootFail`.
A GO for the boundary that ends the restored interval stands where it had come; a STOP that only a discarded REPORT carried is
reported again (R344). -/
def Fab.rollback (f : Fab) (p at_ : Nat) : Fab :=
  let s := f.share p
  let hadPend := s.pendS.isSome
  let counts := !f.isRoot p && !(s.failSent && (s.lastFail == 7 || s.lastFail == 8))
  let r := f.restore p
  match r.2 with
  | some a => ((r.1.set (Reg.SQ_STAT_STATE p) 4).recordLoss p a).halt p 2
  | none =>
    let f := r.1
    let f := f.set (Reg.SQ_STAT_STATE p) 4
    let f := f.stick (Reg.SQ_STAT_ROLLBACKS p) 1
    let f := if counts then f.stick (Reg.SQ_STAT_RETRY p) 1 else f
    f.updSh p (fun s => { s with
      relT := some (.rollback, at_)
      goNext := if hadPend then some at_ else s.goNext
      goSent := s.goSent || hadPend
      stopSent := s.stopSent && s.dStop
      iEnd := f.planEnd p (f.get (Reg.SQ_CDCN_DCN p) + 1) })

/-- END(e): the interval that contains design cycle e ends there, at its re-execution too (R350, R351). Gives whether the device
has already passed e. -/
def Fab.takeEnd (f : Fab) (p e : Nat) : Fab × Bool :=
  let f := f.updSh p (fun s => { s with
    forcedEnd := if s.forcedEnd.contains e then s.forcedEnd else e :: s.forcedEnd
    iEnd := if f.get (Reg.SQ_DCN_DCN p) < e && e ≤ s.iEnd then e else s.iEnd })
  (f, decide (e ≤ f.get (Reg.SQ_DCN_DCN p)))

/-- The STOP and HOLD flags of the REPORTs that no DECIDE has answered (R342). -/
def Share.repFlags (s : Share) : Bool × Bool :=
  let reps := s.ownRep.toList ++ s.childRep.map (fun x => x.2)
  (reps.any (fun r => r.stop), reps.any (fun r => r.hold))

/-- The root orders a rollback (R342, R346): DECIDE with ROLLBACK, or HALT at the retry limit. -/
def Fab.rootRollback (f : Fab) (p cause now : Nat) : Fab :=
  let c := f.get (Reg.SQ_CDCN_DCN p)
  let retry := f.get (Reg.SQ_STAT_RETRY p) + b2n (cause ≠ 7 && cause ≠ 8)
  if f.get (Reg.SQ_TIMING_RETRYMAX p) < retry then f.halt p 1
  else
    let fl := (f.share p).repFlags
    let t := (f.tbAt p now + f.get (Reg.SQ_TIMING_LEAD p)) % 2 ^ 32
    let f := f.set (Reg.SQ_STAT_RETRY p) retry
    let f := f.sendDown p 0x21 c t (flags4 true false fl.1 fl.2)
    let f := f.updSh p (fun s => { s with dStop := s.dStop || fl.1, dHold := s.dHold || fl.2 })
    f.rollback p (f.eclkOf p now t)

/-- The first FAIL for an undecided interval reaches the root (R342, R346, R351): a rollback, followed by END(f − 1) where a
journal filled in design cycle f; HALT when that was the interval's first. -/
def Fab.rootFail (f : Fab) (p cause dcn now : Nat) : Fab :=
  if cause = 6 && (dcn = f.get (Reg.SQ_CDCN_DCN p) + 1 || dcn = (f.share p).iStart) then f.halt p 7
  else
    let f := f.rootRollback p cause now
    if cause = 6 && f.st p = 4 then (f.sendDown p 0x27 (dcn - 1) 0 0).takeEnd p (dcn - 1) |>.1 else f

/-- A failure under R26 in a running share (R341): the cause is recorded and a REPORT with FAIL goes up at once; the root
decides. A failure after one already reported for the undecided interval changes only the cause shown. In a HOLDING
share it fails the interval that begins at the resumption (R223). -/
def Fab.failInterval (f : Fab) (p cause dcn now : Nat) : Fab :=
  if f.st p = 3 then
    (f.set (Reg.SQ_STAT_FAILCAUSE p) cause).updSh p (fun s => { s with failAtResume := some cause })
  else if f.st p ≠ 2 then f
  else
    let f := f.set (Reg.SQ_STAT_FAILCAUSE p) cause
    if (f.share p).failSent then f
    else
      let f := f.updSh p (fun s => { s with
        failSent := !f.isRoot p
        lastFail := cause
        failDcn := dcn
        ownRep := if s.ownRep.any (fun r => dcn ≤ r.dcn) then none else s.ownRep })
      if f.isRoot p then f.rootFail p cause dcn now else f.sendUp p 0x20 dcn cause 1

/-- The design cycle in progress: one more than the DCN of LIVE (R18). -/
def Fab.curDc (f : Fab) (p : Nat) : Nat := f.get (Reg.SQ_DCN_DCN p) + 1

/-- An EARLY reaches the root (R350): at most one END per interval. -/
def Fab.rootEarly (f : Fab) (p : Nat) : Fab :=
  let e := f.get (Reg.SQ_DCN_DCN p) + f.get (Reg.SQ_INTERVAL_EARLY p)
  if e < (f.share p).iEnd && !(f.share p).endSent then
    ((f.updSh p (fun s => { s with endSent := true })).sendDown p 0x27 e 0 0).takeEnd p e |>.1
  else f

/-- A journal passed its watermark (R350): PRIOR views drop and EARLY goes up. -/
def Fab.watermark (f : Fab) (p : Nat) : Fab :=
  let f := f.set (Reg.SQ_JSTAT_HIGHSEEN p) 1
  let f := f.dropPrior p
  if f.isRoot p then f.rootEarly p else f.sendUp p 0x26 (f.get (Reg.SQ_DCN_DCN p)) 0 0

/-- The next free entry address of a journal list whose newest entry is first: entries stand one after another, modulo
the journal's capacity (log 6). -/
def nextEntry (l : List JEntry) (base cap : Nat) : Nat :=
  match l with
  | [] => base
  | j :: _ => base + (j.at_ - base + 64) % (64 * cap)

/-- Write the journal entry that a write to a row needs first (R355): the row's old contents under design cycle `dcn`. The flag
says that the write may be made: a journal that is full takes no entry, and the row then keeps its contents. The journal that
fills and the watermark passed are noted in the share and acted on at the end of the step (`journalEvents`). -/
def Fab.journalRow (f : Fab) (p a dcn : Nat) : Fab × Bool :=
  let row := a / 32 * 32
  let s := f.share p
  let ddr := isDdr a
  let b := blockOfAddr a
  let l := if ddr then s.dj else Store.get [] s.bj b
  let cap := if ddr then f.ddrJCap p else blockJCap
  let base := if ddr then ddrBase + f.get (Reg.SQ_JCFG_DBASE p) * 0x4000000 else bmBase b + 0x140000
  if !ddr && s.jrows.contains row then (f, true)
  else if cap ≤ l.length then (f.updSh p (fun s => { s with jOver := some dcn }), false)
  else
    let j : JEntry := ⟨nextEntry l base cap, row, s.ivNum % 256, dcn⟩
    let high := f.passesHigh p (l.length + 1) cap && !f.passesHigh p l.length cap
    let f := (f.putEntry j).updSh p (fun s => { s with
      dj := if ddr then j :: s.dj else s.dj
      bj := if ddr then s.bj else Store.set [] s.bj b (j :: l)
      jrows := if ddr then s.jrows else row :: s.jrows
      jHigh := s.jHigh || high
      jOver := if l.length + 1 = cap then some dcn else s.jOver })
    (f.jstat p, true)

/-- Act on what the step's accesses brought about: poison read from design state (R26), the watermark (R350), a journal that
filled (R351). -/
def Fab.journalEvents (f : Fab) (p now : Nat) : Fab :=
  let s := f.share p
  if s.jOver.isNone && !s.jHigh && !s.sBad then f
  else
    let f := f.updSh p (fun s => { s with jOver := none, jHigh := false, sBad := false })
    let f := if s.jHigh then f.watermark p else f
    let f := if s.sBad then f.failInterval p 2 (f.curDc p) now else f
    match s.jOver with
    | some dcn => f.failInterval p 6 dcn now
    | none => f

/-- A write by an engine of a share, journaled where the memory is declared journaled and the share runs (R354, R355). A
write whose entry finds the journal full is not made, so that no committed row is lost; its interval fails (R351, R33). -/
def Fab.engWrite (f : Fab) (e a n v : Nat) : MemWr :=
  match f.runPart e with
  | some p =>
    if f.journaled a then
      let r := f.journalRow p a (f.curDc p)
      let r2 := if (a + n - 1) / 32 = a / 32 then (r.1, true) else r.1.journalRow p (a + n - 1) (r.1.curDc p)
      if r.2 && r2.2 then r2.1.write 1 a n v else ⟨false, r2.1⟩
    else f.write 1 a n v
  | none => f.write 1 a n v

/-- Commit PENDING (R336): page roles, COMMITTED DCN, rings, forces, journals, views. -/
def Fab.commit (f : Fab) (p : Nat) : Fab :=
  let s := f.share p
  match s.pendS with
  | none => f
  | some k =>
    let oldC := f.get (Reg.SQ_CDCN_DCN p)
    -- a HELD slot that is not the old COMMITTED stays HELD, and the old COMMITTED becomes FREE
    let pinned := s.held.any (fun h => h ≠ s.comm)
    let newPrior := if pinned then none else some s.comm
    let f := if pinned then f else f.set (Reg.SQ_PRIOR_DCN p) oldC
    let f := f.set (Reg.SQ_STAT_PRIORV p) (b2n (!pinned))
    let c := s.pendDcn
    let f := f.set (Reg.SQ_CDCN_DCN p) c
    let f : Fab := { f with umx := { f.umx with dcyc := Store.upd 0 f.umx.dcyc p (fun n => n + (c - oldC)) } }
    let f := f.set (Reg.SQ_STAT_RETRY p) 0
    let f := f.updSh p (fun s => { s with
      comm := k
      pendS := none
      prior := newPrior
      forceCom := s.forcePend
      cmds := s.cmds.filter (fun x => c ≤ x.m)
      ownRep := none
      childRep := []
      sentUp := false
      comIv := (s.ivNum + 255) % 256
      forcedEnd := s.forcedEnd.filter (fun x => c < x)
      failSent := s.failSent && c < s.failDcn })
    let st := f.stimCommit p c (f.stimFuel p) (f.cons p 0) s.lastStC
    let f := (f.set (Reg.SQ_PTR_CONS p 0) st.1).updSh p (fun s => { s with lastStC := st.2 })
    let f := f.set (Reg.SQ_PTR_PROD p 2) (lastPos (f.share p).ilogRecs c (f.prod p 2))
    let f := f.set (Reg.SQ_PTR_PROD p 3) (lastPos (f.share p).capRecs c (f.prod p 3))
    let f := f.updSh p (fun s => { s with
      ilogRecs := s.ilogRecs.filter (fun x => c < x.1)
      capRecs := s.capRecs.filter (fun x => c < x.1) })
    let f := f.freeSegments p
    -- R357: a journal still above HIGH while HELD keeps a segment revokes the hold
    let heldKeeps := (f.share p).held.isSome &&
      (((f.share p).bj.map (fun x => x.2)).flatten ++ (f.share p).dj).any
        (fun j => (f.share p).heldDcn < j.dcn && j.dcn ≤ c)
    let f := if f.anyHigh p && heldKeeps then
        let f := f.set (Reg.SQ_VIEW_CTL_GRANTED p) 0
        let f := f.set (Reg.SQ_VIEW_CTL_LOST p) 1
        let f := f.updSh p (fun s => { s with held := none })
        (f.freeSegments p).raise (57 + p) true
      else f
    -- R366: a hold that waits for this state is granted
    if f.bit (Reg.SQ_VIEW_CTL_PEND p) && f.get (Reg.SQ_VIEW_HOLD_DCN p) == c then
      let f := f.set (Reg.SQ_VIEW_CTL_PEND p) 0
      let f := f.set (Reg.SQ_VIEW_CTL_GRANTED p) 1
      f.updSh p (fun s => { s with held := some k, heldDcn := c })
    else f

/-- After a commit of a share that waits at its interval's end (R344): STOPPED under STOP, else HOLDING. A DCN at its largest
value halts the share instead (R20). -/
def Fab.settle (f : Fab) (p : Nat) : Fab :=
  let s := f.share p
  if s.waitStop && s.pendS.isNone && f.st p == 2 then
    if f.get (Reg.SQ_CDCN_DCN p) = 0xFFFFFFFFFFFFFFFF then f.halt p 4
    else
    let f := f.set (Reg.SQ_STAT_WAITING p) 0
    if s.dStop then
      let f := f.set (Reg.SQ_STAT_STATE p) 0
      let f := f.updSh p (fun s => { s with
        waitStop := false, dStop := false, dHold := false, stopReq := false, stopSent := false, goNext := none
        readyChild := [] })
      let f := f.clearPorts p
      (f.actives p).foldl (fun g e => g.updEng e (fun en => { en with phase := .unreleased })) f
    else
      let f := f.set (Reg.SQ_STAT_STATE p) 3
      f.updSh p (fun s => { s with waitStop := false, dHold := false, goNext := none, holdSent := false, holdChild := [] })
  else f

/-- Apply a decision that arrives at ECLK `now` (R343): commit when its DCN is above COMMITTED and PENDING holds it, then roll
back, or take GO, STOP and HOLD. A share that waited settles first; STOP and HOLD then concern the interval after it. -/
def Fab.applyDecide (f : Fab) (p dcn t flags now : Nat) : Fab :=
  let c := f.get (Reg.SQ_CDCN_DCN p)
  if c < dcn && !((f.share p).pendS.isSome && (f.share p).pendDcn == dcn) then f.halt p 8
  else
    let f := if c < dcn then (f.commit p).updSh p (fun s => { s with decAt := now }) else f
    if flags.testBit 0 then
      let f := f.updSh p (fun s => { s with dStop := s.dStop || flags.testBit 2, dHold := s.dHold || flags.testBit 3 })
      f.rollback p (f.eclkOf p now t)
    else
      let f := f.settle p
      if f.st p ≠ 2 && f.st p ≠ 3 && f.st p ≠ 4 then f
      else
        f.updSh p (fun s => { s with
          goNext := if flags.testBit 1 then some (f.eclkOf p now t) else s.goNext
          dStop := s.dStop || flags.testBit 2
          dHold := s.dHold || flags.testBit 3 })

/-- Have all children reported (R341)? -/
def Fab.childrenIn (f : Fab) (p : Nat) : Bool :=
  (f.children p).all (fun c => (f.share p).childRep.any (fun x => x.1 == c))

/-- Combine reports when the device's own and all its children's are there and clean (R341, R342): the root decides,
another device reports upward. -/
def Fab.combine (f : Fab) (p now : Nat) : Fab :=
  let s := f.share p
  match s.ownRep with
  | none => f
  | some own =>
    if s.sentUp || !f.childrenIn p then f
    else
      let reps := s.childRep.map (fun x => x.2)
      if reps.any (fun r => r.dcn ≠ own.dcn) then f.halt p 8
      else
        let ready := own.ready && reps.all (fun r => r.ready)
        let stop := s.repFlags.1
        let hold := s.repFlags.2
        let f := f.updSh p (fun s => { s with
          sentUp := true
          readyOwn := own.ready
          goSent := ready
          readyChild := (s.childRep.filter (fun x => x.2.ready)).map (fun x => x.1) })
        if f.isRoot p then
          let t := if ready then (f.tbAt p now + f.get (Reg.SQ_TIMING_LEAD p)) % 2 ^ 32 else 0
          let fl := flags4 false ready stop hold
          (f.sendDown p 0x21 own.dcn t fl).applyDecide p own.dcn t fl now
        else f.sendUp p 0x20 own.dcn 0 (flags4 false ready stop hold)

/-- Has a port of the partition a failed table check (R326)? The Square then releases nothing. -/
def Fab.tblErr (f : Fab) (p : Nat) : Bool := (f.portsOf p).any (fun c => f.bit (Reg.LINK_STAT_TBLERR c))

/-- Does a GO for timed lock-step have no effect, L or FIRST being 0 (R588)? -/
def Fab.goVoid (f : Fab) (p : Nat) : Bool :=
  !f.barrierMode p && (f.get (Reg.SQ_SCHED_L p) == 0 || f.get (Reg.SQ_SCHED_FIRST p) == 0)

/-- A GO for the interval that begins with design cycle `dcn` arrives at ECLK `now` (R337, R344): it fixes the release of a
share that starts or holds at that interval, or lets the boundary before it begin. The GO of a start covers the first two
intervals, for which READY was sent. -/
def Fab.takeGo (f : Fab) (p dcn t now : Nat) : Fab :=
  let at_ := f.eclkOf p now t
  if f.goVoid p then f
  else if f.st p = 1 then f.updSh p (fun s => { s with relT := some (.start, at_), goNext := some at_ })
  else if dcn = f.get (Reg.SQ_DCN_DCN p) + 1 && (f.st p = 3 || (f.share p).waitStop) then
    (if f.st p = 3 then f.updSh p (fun s => { s with relT := some (.hold, at_) }) else f)
  else if f.st p = 2 || f.st p = 3 || f.st p = 4 then f.updSh p (fun s => { s with goNext := some at_ })
  else f

/-- Send READY for the interval that begins with design cycle `dcn` upward; the root sends GO. -/
def Fab.sendReady (f : Fab) (p dcn now : Nat) : Fab :=
  if f.isRoot p then
    let t := (f.tbAt p now + f.get (Reg.SQ_TIMING_LEAD p)) % 2 ^ 32
    (f.sendDown p 0x23 dcn t 0).takeGo p dcn t now
  else f.sendUp p 0x22 dcn 0 0

/-- READY of this device and of every child is there (R342, R344): the root sends GO, another device READY upward.
`dcn` is the first DCN of the interval that is ready. -/
def Fab.combineReady (f : Fab) (p dcn now : Nat) : Fab :=
  let s := f.share p
  if s.readyOwn && !s.goSent && (f.children p).all (fun c => s.readyChild.contains c) then
    (f.updSh p (fun s => { s with goSent := true })).sendReady p dcn now
  else f

/-- Has every handler on the device returned, with HOLDREQ 0 and no engine halted (R223)? An engine that will take an
interrupt at this boundary has not; one stopped by a double fault counts as returned. -/
def Fab.handlersDone (f : Fab) (p : Nat) : Bool :=
  !f.bit (Reg.SQ_CTL_HOLDREQ p) && (f.actives p).all (fun i =>
    let e := f.engine i
    !e.halted && e.haltReq.isNone && (e.phase == .stopped ||
      (e.phase == .waitBoundary && e.trap.isNone && e.derr == [] && !(e.bit Ecs.INTSTAT_PEND && e.bit Ecs.MODE_IE))))

/-- A HOLDING share sends READY once its handlers have returned, the next interval's input is there (R25) and every child has
sent READY (R223, R344); the root sends GO. -/
def Fab.holdCheck (f : Fab) (p now : Nat) : Fab :=
  let s := f.share p
  let m := f.get (Reg.SQ_DCN_DCN p)
  if f.st p = 3 && !s.holdSent && s.relT.isNone && f.handlersDone p && f.readyFor p (f.planEnd p (m + 1)) &&
      (f.children p).all (fun c => s.holdChild.contains c) then
    (f.updSh p (fun s => { s with holdSent := true })).sendReady p (m + 1) now
  else f

/-! ### The barrier (R349) -/

/-- The partition that a transfer on the nets belongs to: that of the port for a link read, of the sender, or of the
target of a link write. -/
def Fab.putPart (f : Fab) (u : Put) : Option Nat :=
  if 192 ≤ u.tgt then f.unitPart (24 + (u.tgt - 192))
  else match u.src with
    | some e => f.engPart e
    | none => f.engPart u.tgt

/-- The design cycle of the next scheduled flit that a port releases (R328). -/
def Fab.nextCycle (f : Fab) (p c : Nat) : Nat :=
  let l := f.port c
  let cnt := f.get (Reg.LINK_TBL_RXCNT c)
  (f.share p).relFirst + l.rel / cnt + b2n (entNxt (f.slotEntry c true (l.rel % cnt)))

/-- Does everything of design cycle `n` stand on this device (R349, R310, R317): engines at its end, transfers and far
stores performed, scheduled flits sent, and those that have come delivered (R329)? -/
def Fab.cycleDone (f : Fab) (p n : Nat) : Bool :=
  (f.actives p).all (fun e => (f.engine e).phase == .waitBoundary && !(f.engine e).halted) &&
    !f.puts.any (fun u => f.putPart u == some p) &&
    !f.farSt.any (fun x => f.activeIn p x.eng) &&
    (f.portsOf p).all (fun c => (f.get (Reg.LINK_TBL_TXCNT c) == 0 ||
      ((f.port c).txDcn == n && (f.port c).txIdx == f.get (Reg.LINK_TBL_TXCNT c))) && ((f.port c).held == [] || n < f.nextCycle p c))

/-- Send BARRIER at ECLK `now` for the design cycle in progress once the device and every child have ended it; the root sends RELEASE
(R349). -/
def Fab.barrierTry (f : Fab) (p now : Nat) : Fab :=
  let n := f.curDc p
  if f.st p ≠ 2 || !f.barrierMode p || (f.share p).waitStop || (f.share p).barSent then f
  else
    let f := if (f.share p).barOwn ≠ some n && f.cycleDone p n then f.updSh p (fun s => { s with barOwn := some n }) else f
    let now := (f.actives p).foldl (fun m e => max m ((f.engine e).lastT + 1)) now
    if (f.share p).barOwn = some n && (f.children p).all (fun c => Store.get 0 (f.share p).barChild c == n) then
      let f := f.updSh p (fun s => { s with barSent := true })
      if f.isRoot p then (f.sendDown p 0x25 n 0 0).updSh p (fun s => { s with relDcn := some n, relAt := now })
      else f.sendUp p 0x24 n 0 0
    else f

/-- The barrier of an engine's partition. -/
def Fab.barrierOf (f : Fab) (e now : Nat) : Fab :=
  match f.engPart e with
  | some p => f.barrierTry p now
  | none => f

end Sys2Proof.Machine
end

