-- ==== Sys2Proof/Machine/Ecs.lean ====
section
/-! DEFINITION. Engine registers: reads, results in flight (R54–R61), the scoreboard (R64), performance counters
(R84–R88) and the engine control and status registers (R78–R83 and the register tables of spec/02–07, 14, 18). -/

namespace Sys2Proof.Machine

/-! ### Register files -/

def Engine.rA (e : Engine) (i : Nat) : Word := Store.get 0 e.a i
def Engine.rN (e : Engine) (i : Nat) : NetWord := Store.get 0 e.n i
def Engine.rAcc (e : Engine) (i : Nat) : AccWord := Store.get 0 e.acc i
def Engine.rX (e : Engine) (i : Nat) : Nat := (Store.get 0 e.x i).toNat
def Engine.rI (e : Engine) (i : Nat) : Int := (Store.get 0 e.inc i).toInt

/-- A predicate; P0 reads as 1 (R42). -/
def Engine.rP (e : Engine) (i : Nat) : Bool := i == 0 || e.p.getLsbD i

/-- The predicate of a slot or header (R46, R48). -/
def Engine.pred (e : Engine) (i : Nat) (inv : Bool) : Bool := e.rP i != inv

def Engine.wA (e : Engine) (i : Nat) (v : Word) : Engine := { e with a := Store.set 0 e.a i v }
def Engine.wN (e : Engine) (i : Nat) (v : NetWord) : Engine := { e with n := Store.set 0 e.n i v }
def Engine.wX (e : Engine) (i v : Nat) : Engine := { e with x := Store.set 0 e.x i (BitVec.ofNat 32 v) }

/-- Write a predicate; a write to P0 is discarded (R42). -/
def Engine.wP (e : Engine) (i : Nat) (v : Bool) : Engine :=
  if i = 0 then e else { e with p := BitVec.ofNat 16 (natSetBits e.p.toNat i 1 (b2n v)) }

/-- Set sticky bits of an ECS register. -/
def Engine.stickBits (e : Engine) (idx mask : Nat) : Engine := e.setEcsReg idx (e.ecsReg idx ||| w64 mask)

/-- Is the shadow bank visible (R219)? -/
def Engine.shadow (e : Engine) : Bool := e.bit Ecs.TRAPSTAT_SH

/-- Write a result to its destination. -/
def Engine.wDst (e : Engine) (d : Dst) (v : NetWord) : Engine :=
  match d with
  | .a i => e.wA i (v.setWidth 64)
  | .n i => e.wN i v
  | .acc i => { e with acc := Store.set 0 e.acc i (v.setWidth 80) }
  | .p i => e.wP i (v.getLsbD 0)
  | .x i => e.wX i v.toNat
  | .inc i => { e with inc := Store.set 0 e.inc i (v.setWidth 32) }
  | .lc i => { e with loops := e.loops.wrLC i (v.toNat % 2 ^ 32) }
  | .ls i => { e with loops := { e.loops with ls := Store.set 0 e.loops.ls i (v.toNat % 2 ^ 32) } }
  | .le i => { e with loops := { e.loops with le := Store.set 0 e.loops.le i (v.toNat % 2 ^ 32) } }
  | .sticky idx mask => e.stickBits idx mask
  | .copyA i sh =>
    if 16 ≤ i || sh = e.shadow then e.wA i (v.setWidth 64) else { e with shA := Store.set 0 e.shA i (v.setWidth 64) }

/-! ### Results in flight -/

/-- The register file of a destination, for R61. -/
def Dst.file : Dst → Nat
  | .a _ | .copyA _ _ => 0
  | .n _ => 1
  | .acc _ => 2
  | .p _ => 3
  | .x _ => 4
  | .inc _ => 5
  | .lc _ | .ls _ | .le _ => 6
  | .sticky _ _ => 7

/-- The register of a destination while bank `sh` is visible: a far load's copy is the register it names only where that copy is
visible (R220). -/
def Dst.reg (sh : Bool) : Dst → Dst
  | .copyA i b => if 16 ≤ i || b = sh then .a i else .copyA i b
  | d => d

/-- The slot of a result in the order of R60: a Quince operation's is M (R137). -/
def PendWr.port (x : PendWr) : Nat := if x.slot = 9 then 4 else x.slot

/-- Do two results go through one slot into one register file at the end of one ECLK, `y` from a bundle that issued
later (R61)? -/
def PendWr.ports (y x : PendWr) : Bool :=
  x.due == y.due && x.port == y.port && x.dst.file == y.dst.file && x.dst.file ≠ 7 && x.iss < y.iss

/-- Do two results go to one register at the end of one ECLK, `y` from a later bundle or a later slot (R60)? -/
def PendWr.beats (sh : Bool) (y x : PendWr) : Bool :=
  x.due == y.due && x.dst.reg sh == y.dst.reg sh && x.dst.file ≠ 7 && (x.iss < y.iss || (x.iss == y.iss && x.port < y.port))

/-- Is the result written (R60, R61)? A result lost to its slot's later one no longer competes for its register. -/
def PendWr.wins (sh : Bool) (x : PendWr) (l : List PendWr) : Bool :=
  !l.any (fun y => y.ports x) && !l.any (fun y => y.beats sh x && !l.any (fun z => z.ports y))

/-- The sticky bits that a result sets, with the ECLK (R123). -/
def PendWr.sets (x : PendWr) : Option (Nat × Nat × Nat) :=
  match x.dst with
  | .sticky idx mask => some (x.due, idx, mask)
  | _ => none

/-- Insert in order of the ECLK of writing, after those of the same ECLK. -/
def insertDue (y : PendWr) : List PendWr → List PendWr
  | [] => [y]
  | x :: t => if x.due ≤ y.due then x :: insertDue y t else y :: x :: t

/-- Enqueue a result (R54). A write of P0 is discarded (R42). -/
def Engine.addPend (e : Engine) (y : PendWr) : Engine :=
  if y.dst = .p 0 then e else { e with pend := insertDue y e.pend }

/-- Write every result that is due by the end of ECLK `t`. Where results meet, the losers are discarded and WCOLL is set
(R60, R61). -/
def Engine.retire (e : Engine) (t : Nat) : Engine :=
  let now := e.pend.filter (fun x => x.due ≤ t)
  let win := now.filter (fun x => x.wins e.shadow now)
  let n := now.length - win.length
  let g := win.foldl (fun g x => g.wDst x.dst x.val) { e with
    pend := e.pend.filter (fun x => t < x.due)
    setRec := e.setRec.filter (fun r => t ≤ r.1 + 1) ++ now.filterMap PendWr.sets }
  if n = 0 then g else { g with wcn := g.wcn + n }.set Ecs.STATUS_WCOLL 1

/-! ### The scoreboard (R64) -/

/-- Destination registers of a Quince operation: file (0 A, 1 N), first register, count. -/
def QOp.dests (q : QOp) : Nat × Nat × Nat :=
  if q.opc = 0x4C then (1, q.dest, 8)
  else if q.opc = 0x40 || q.opc = 0x41 || q.opc = 0x48 || q.opc = 0x49 then (0, q.dest, 2)
  else (0, q.dest, 1)

/-- Is the register (file 0 A, 1 N) scoreboarded by the Quince operation in flight at ECLK `t`? -/
def Engine.busyQ (e : Engine) (file i t : Nat) : Bool :=
  match e.quince with
  | some q => t ≤ q.due && q.dests.1 == file && q.dests.2.1 ≤ i && i < q.dests.2.1 + q.dests.2.2
  | none => false

/-- Is a far load still in flight at ECLK `t`? -/
def FarLd.live (l : FarLd) (t : Nat) : Bool :=
  match l.doneAt with
  | some w => t ≤ w
  | none => true

/-- Does a far load name the register, in the copy that is visible (R220)? -/
def Engine.farNames (e : Engine) (l : FarLd) (file i : Nat) : Bool :=
  match l.dst with
  | .a j | .copyA j _ => file == 0 && i == j && (16 ≤ j || l.copy == e.shadow)
  | .n j => file == 1 && i == j
  | _ => false

/-- Is the register scoreboarded by a far load at ECLK `t`? -/
def Engine.busyF (e : Engine) (file i t : Nat) : Bool := e.far.any (fun l => l.live t && e.farNames l file i)

/-- A scoreboard register (R83). -/
def Engine.scoreboard (e : Engine) (file t : Nat) : Word :=
  w64 ((List.range 64).foldl (fun m i => if e.busyQ file i t || e.busyF file i t then m + 2 ^ i else m) 0)

/-! ### Performance counters -/

/-- Add `n` occurrences to counter `k` (R85): the wrap sets OVF. The flag says whether the wrap raises ENG_PERF. -/
def Engine.perfBump (e : Engine) (k n : Nat) : Engine × Bool :=
  let v := e.get (Ecs.PERF_COUNT k) + n
  let e := e.set (Ecs.PERF_COUNT k) (v % 2 ^ 48)
  if 2 ^ 48 ≤ v then (e.stickBits Ecs.PERFCTL (2 ^ (4 + k)), (e.get Ecs.PERFCTL_OVFIRQ).testBit k) else (e, false)

/-- The event code of counter `k` (R84). -/
def Engine.perfCode (e : Engine) (k : Nat) : Nat := natBits (e.ecsReg Ecs.PERFSEL).toNat (8 * k) 8

/-- Does counter `k` count now (R84, R87, R88)? -/
def Engine.perfOn (e : Engine) (k : Nat) : Bool :=
  !e.halted && (e.get Ecs.PERFCTL_EN).testBit k && 1 ≤ e.perfCode k && e.perfCode k ≤ 0x14 &&
    match e.get Ecs.PERFCTL_MFILT with
    | 0 => true
    | 1 => !e.bit Ecs.MODE_PRIV
    | 2 => e.bit Ecs.MODE_PRIV
    | _ => false

/-- What events, given as (event code, occurrences), add to the four counters (R88). -/
def Engine.perfInc (e : Engine) (evs : List (Nat × Nat)) : List Nat :=
  if fget (e.ecsReg Ecs.PERFCTL) 0 4 = 0 then []
  else (List.range 4).map (fun k =>
    if e.perfOn k then evs.foldl (fun m x => if x.1 = e.perfCode k then m + x.2 else m) 0 else 0)

/-- Add `n` to counter `k`; each wrap that asks for it raises ENG_PERF (R85). -/
def Fab.perfBump (f : Fab) (en k n : Nat) : Fab :=
  let r := (f.engine en).perfBump k n
  let f := f.setEng en r.1
  match r.2, f.engPart en with
  | true, some p => f.raise (73 + p) true
  | _, _ => f

/-- Add to the four counters. -/
def Fab.perfPut (f : Fab) (en : Nat) (inc : List Nat) : Fab :=
  (List.range 4).foldl (fun g k => if inc.getD k 0 = 0 then g else g.perfBump en k (inc.getD k 0)) f

/-- Count what is still to be counted of the ECLK of the last bundle. -/
def Fab.perfFlush (f : Fab) (en : Nat) : Fab :=
  (f.perfPut en (f.engine en).perfDue).updEng en (fun e => { e with perfDue := [] })

/-- ECLK for which far loads were in flight from `lo` + 1 to `hi`, summed (R88). -/
def Engine.farSum (e : Engine) (lo hi : Nat) : Nat :=
  e.far.foldl (fun m l =>
    m + (match l.doneAt with
      | some w => min hi w
      | none => hi) - max lo l.iss) 0

/-- Count every ECLK before `t` that is not yet counted, `hold` of them up to `t` − 1 held on a scoreboard bit, with the events
`more`. A counter of `lost` is written by an MVTE that takes effect at `t`, and loses its increments of ECLK `t` − 1 (R86). -/
def Fab.perfTo (f : Fab) (en t : Nat) (lost : List Nat) (hold : Nat) (more : List (Nat × Nat)) : Fab :=
  let e := f.engine en
  let keep (l l' : List Nat) : List Nat :=
    if lost = [] then l else l.zipIdx.map (fun (x : Nat × Nat) => if lost.contains x.2 then l'.getD x.2 0 else x.1)
  let evs (hi h : Nat) : List (Nat × Nat) := [(0x01, hi - e.cntT), (0x10, e.farSum e.cntT hi), (0x06, h)] ++ more
  let f := f.perfPut en (if t = e.lastT + 1 then keep e.perfDue [] else e.perfDue)
  let f := f.perfPut en (keep (e.perfInc (evs (t - 1) hold)) (e.perfInc (evs (t - 2) (hold - 1))))
  f.updEng en (fun e => { e with perfDue := [], cntT := max e.cntT (t - 1) })

/-- The counters that pending MVTE writes in force from bundle `q` on write (R86). -/
def Engine.perfLost (e : Engine) (q : Nat) : List Nat :=
  (List.range 4).filter (fun k => e.ecsPend.any (fun w => w.idx == Ecs.PERF k && w.seq ≤ q))

/-! ### ECS registers -/

/-- May USER code read the register by MVFE (R78 and the register descriptions)? -/
def userReads (i : Nat) : Bool :=
  i == 1 || i == 3 || i == 4 || (10 ≤ i && i ≤ 13) || (16 ≤ i && i ≤ 20) || (32 ≤ i && i ≤ 73) ||
    (76 ≤ i && i ≤ 88) || i == 103 || (144 ≤ i && i ≤ 152)

/-- May USER code write it by MVTE? -/
def userWrites (i : Nat) : Bool :=
  i == 17 || i == 19 || i == 20 || (32 ≤ i && i ≤ 73) || (76 ≤ i && i ≤ 88)

/-- ECS.LOOPCTL as it reads (R207). -/
def Engine.loopCtl (e : Engine) (l : LoopRegs) : Nat :=
  l.ST 0 + 4 * l.ST 1 + 16 * l.ST 2 + 64 * l.ST 3 +
    match e.rc with
    | some c => if c.doneAt.isSome then 2 ^ 12 + c.loop * 2 ^ 13 else 0
    | none => 0

/-- The value of an ECS register, without side effect, at ECLK `t`; `l` are the loop registers that the reader sees. -/
def Fab.ecsValue (f : Fab) (en i t : Nat) (l : LoopRegs) : Word :=
  let e := f.engine en
  if i = 0 then
    w64 ((e.ecsReg 0).toNat ||| (if f.ctMode en then 2 else 0) ||| (if f.btbOff en then 8 else 0) |||
      (if f.dx48 en then 32 else 0))
  else if i = 1 then
    w64 (e.get Ecs.STATUS_WCOLL + 2 * b2n (e.quince.any (fun q => t ≤ q.due)) +
      4 * (e.far.filter (fun x => x.live t)).length)
  else if i = 3 then e.scoreboard 0 t
  else if i = 4 then e.scoreboard 1 t
  else if i = 18 then
    let q := e.parked
    w64 (natBits (e.ecsReg 18).toNat 0 2 +
      (match q with
        | some q => q.dests.1 * 4 + q.opc * 2 ^ 8 + q.dest * 2 ^ 16
        | none => 0) +
      (match e.quince with
        | some q => (q.due + 1 - t) * 2 ^ 32
        | none => 0))
  else if 32 ≤ i && i < 48 then w64 (e.rX (i - 32))
  else if 48 ≤ i && i < 64 then (Store.get 0 e.inc (i - 48)).setWidth 64
  else if 76 ≤ i && i < 80 then w64 (l.LC (i - 76))
  else if 80 ≤ i && i < 84 then w64 (l.LS (i - 80))
  else if 84 ≤ i && i < 88 then w64 (l.LE (i - 84))
  else if i = 88 then w64 (e.loopCtl l)
  else if i = 103 then
    fset (e.ecsReg 103) 1 1 (b2n (match f.engPart en with
      | some p => f.st p == 2 && !f.barrierMode p
      | none => false))
  else if 112 ≤ i && i < 128 then Store.get 0 e.shA (i - 112)
  else if i = 128 then w64 (e.shP.toNat &&& 0xFE)
  else if i = 160 then w64 (f.peekClaim en)
  else if 161 ≤ i && i ≤ 163 then 0
  else e.ecsReg i

/-- The stored value after a write under the access codes (R8): settable bits taken, 1s clear write-1-to-clear bits. -/
def maskedWrite (old v rw w1c : Nat) : Nat :=
  (v &&& rw) ||| ((old &&& (2 ^ 64 - 1 - rw)) &&& (2 ^ 64 - 1 - (v &&& w1c)))

/-- Invalidate the BTB (R203). -/
def Engine.flushBtb (e : Engine) : Engine := { e with btb := [], btbPtr := 0 }

/-- A write of ECS.MODE (R81, R203): fields that are forced ignore the write; a change of PRIV, BTBOFF or PNT flushes the
BTB. -/
def Fab.writeMode (f : Fab) (en : Nat) (v : Word) : Fab :=
  let e := f.engine en
  let lock := (f.engPart en).any f.lockMode
  let forced := lock || (f.engPart en).any (fun p => f.bit (Reg.HP_PCFG_CT p))
  let old := e.ecsReg 0
  let new := fset old 0 1 (fget v 0 1)
  let new := if forced then new else fset new 1 1 (fget v 1 1)
  let new := fset new 2 1 (fget v 2 1)
  let new := if lock then new else fset new 3 1 (fget v 3 1)
  let new := fset new 4 1 (fget v 4 1)
  let e' := e.setEcsReg 0 new
  f.setEng en (if (old ^^^ new).toNat &&& 0x19 = 0 then e' else e'.flushBtb)

/-- A write to a loop register at ECLK `t` with immediate effect on the recorded state, seen by MVFE from bundle `q` on: `kind` as
in LoopEv. -/
def Engine.wrLoop (e : Engine) (t q kind k v : Nat) : Engine :=
  let e := e.loopEv (.wr t q kind k v)
  if kind ≠ 0 && e.rc.any (fun c => c.loop == k) then e.dropCache t else e

/-- A write of an ECS register taking effect (R8, R79, R118, R177, R190, R206, R231, R435–R441). `now` is the ECLK at
which writes to loop registers act, and `q` the first bundle whose MVFE sees them. -/
def Fab.ecsWrite (f : Fab) (en i now q : Nat) (v : Word) : Fab :=
  let e := f.engine en
  match ecsAt i with
  | none => f
  | some r =>
    if i = 0 then f.writeMode en v
    else if i = 16 then
      if (f.engPart en).any f.runs then f
      else f.setEng en (e.setEcsReg 16 (fset (w64 (v.toNat &&& 0x1FFFC)) 32 7 (min (fget v 32 7) 64)))
    else if i = 19 then
      f.setEng en (e.setEcsReg 19 (w64 ((v.toNat &&& 0x1F8) + (if 5 ≤ fget v 0 3 then 0 else fget v 0 3))))
    else if 32 ≤ i && i < 48 then f.setEng en (e.wX (i - 32) (v.toNat % 2 ^ 32))
    else if 48 ≤ i && i < 64 then f.setEng en { e with inc := Store.set 0 e.inc (i - 48) (v.setWidth 32) }
    else if 76 ≤ i && i < 80 then f.setEng en (e.wrLoop now q 0 (i - 76) (v.toNat % 2 ^ 32))
    else if 80 ≤ i && i < 84 then f.setEng en (e.wrLoop now q 1 (i - 80) (v.toNat &&& 0x1FFFC))
    else if 84 ≤ i && i < 88 then f.setEng en (e.wrLoop now q 2 (i - 84) (min (v.toNat &&& 0x3FFFC) 0x20000))
    else if i = 88 then
      f.setEng en ((List.range 4).foldl (fun g k => if v.getLsbD (8 + k) then g.wrLoop now q 3 k 0 else g) e)
    else if i = 102 then
      let f := f.setEng en (e.setEcsReg 102 (w64 (maskedWrite (e.ecsReg 102).toNat v.toNat r.rw r.w1c)))
      match f.engPart en with
      | some p => if v.getLsbD 8 then f.failInterval p 4 (f.curDc p) now else f
      | none => f
    else if 112 ≤ i && i < 128 then f.setEng en { e with shA := Store.set 0 e.shA (i - 112) v }
    else if i = 128 then f.setEng en { e with shP := BitVec.ofNat 16 ((e.shP.toNat &&& 0xFF01) + (v.toNat &&& 0xFE)) }
    else if i = 161 then f.complete (fget v 0 8) en
    else if i = 162 then f.eoi en
    else if i = 163 then
      f.sendMsg (fget v 0 8) (v.getLsbD 8) (match f.engPart en with
        | some p => softSourceOf p (fget v 0 8)
        | none => false)
    else f.setEng en (e.setEcsReg i (w64 (maskedWrite (e.ecsReg i).toNat v.toNat r.rw r.w1c)))

end Sys2Proof.Machine
end

