-- ==== Sys2Proof/Machine/Float.lean ====
section
/-! DEFINITION. What the floating-point operations of slot M compute (spec/05). Values are exact (a sign, a natural
number and a power of two) until one rounding. Pure functions of operands, rounding mode and subnormal treatment. -/

namespace Sys2Proof.Machine

/-- A format: exponent bits and fraction bits (R153). -/
structure Fmt where
  eb : Nat
  fb : Nat
  deriving DecidableEq, Repr

/-- binary64, binary32, binary16 and bfloat16 (R153). -/
def fmtD : Fmt := ⟨11, 52⟩
def fmtS : Fmt := ⟨8, 23⟩
def fmtH : Fmt := ⟨5, 10⟩
def fmtB : Fmt := ⟨8, 7⟩

/-- Exponent bias, total width, infinity's exponent field, the sign bit's weight. -/
def Fmt.bias (f : Fmt) : Nat := 2 ^ (f.eb - 1) - 1
def Fmt.bits (f : Fmt) : Nat := 1 + f.eb + f.fb
def Fmt.eMax (f : Fmt) : Nat := 2 ^ f.eb - 1
def Fmt.sign (f : Fmt) (s : Bool) : Nat := if s then 2 ^ (f.eb + f.fb) else 0

/-- Infinity, the largest finite number, zero and the default NaN (R153). -/
def Fmt.inf (f : Fmt) (s : Bool) : Nat := f.sign s + f.eMax * 2 ^ f.fb
def Fmt.big (f : Fmt) (s : Bool) : Nat := f.inf s - 1
def Fmt.zero (f : Fmt) (s : Bool) : Nat := f.sign s
def Fmt.nan (f : Fmt) : Nat := f.eMax * 2 ^ f.fb + 2 ^ (f.fb - 1)

/-- What an encoding stands for. A number is (−1)^s · m · 2^e. -/
inductive FVal where
  | nan (s : Bool) (frac : Nat) (quiet : Bool)
  | inf (s : Bool)
  | zero (s : Bool)
  | sub (s : Bool)
  | num (s : Bool) (m : Nat) (e : Int)
  deriving DecidableEq, Repr

/-- Decode the low bits of a register in a format (R153, R154). -/
def Fmt.decode (f : Fmt) (x : Nat) : FVal :=
  let s := x.testBit (f.eb + f.fb)
  let e := natBits x f.fb f.eb
  let m := natBits x 0 f.fb
  if e = f.eMax then (if m = 0 then .inf s else .nan s m (m.testBit (f.fb - 1)))
  else if e = 0 then (if m = 0 then .zero s else .sub s)
  else .num s (2 ^ f.fb + m) ((e : Int) - f.bias - f.fb)

/-- Rounding modes (R161). -/
inductive Rm where
  | rne | rtz | rdn | rup | rna
  deriving DecidableEq, Repr

/-- The rounding mode of ECS.FPCTL.RM (R161, R177). -/
def Rm.ofBits (n : Nat) : Rm :=
  if n = 1 then .rtz else if n = 2 then .rdn else if n = 3 then .rup else if n = 4 then .rna else .rne

/-- Is the magnitude incremented: sign, kept part odd, and the discarded part compared with one half (R161)? -/
def Rm.up (rm : Rm) (s odd : Bool) (rest half : Nat) : Bool :=
  match rm with
  | .rne => half < rest || (rest == half && odd && rest != 0)
  | .rtz => false
  | .rdn => s && rest != 0
  | .rup => !s && rest != 0
  | .rna => half ≤ rest && rest != 0

/-! Exceptions of an operation, one bit each: NV, DZ, OF, UF, IX, FLUSH as in ECS.FPFLAGS (R178), then SUBIN and
SUBOUT (R165, R166). -/
def exNV : Nat := 1
def exDZ : Nat := 2
def exOF : Nat := 4
def exUF : Nat := 8
def exIX : Nat := 16
def exFLUSH : Nat := 32
def exSUBIN : Nat := 64
def exSUBOUT : Nat := 128

/-- A result and the exceptions it raises. -/
structure FRes where
  val : Nat
  ex  : Nat
  deriving DecidableEq, Repr

/-- m · 2^e rounded to `p` significant bits with an unbounded exponent: (significand, exponent, inexact). -/
def roundSig (rm : Rm) (s : Bool) (p m : Nat) (e : Int) : Nat × Int × Bool :=
  let nb := Nat.log2 m + 1
  if nb ≤ p then (m <<< (p - nb), e - (p - nb : Nat), false)
  else
    let sh := nb - p
    let q := m >>> sh
    let rest := m % 2 ^ sh
    let q' := if rm.up s (q % 2 == 1) rest (2 ^ (sh - 1)) then q + 1 else q
    if q' = 2 ^ p then (2 ^ (p - 1), e + sh + 1, rest ≠ 0) else (q', e + sh, rest ≠ 0)

/-- The overflowed result of each rounding mode (R167). -/
def overflowed (f : Fmt) (rm : Rm) (s : Bool) : Nat :=
  match rm with
  | .rne | .rna => f.inf s
  | .rtz => f.big s
  | .rdn => if s then f.inf s else f.big s
  | .rup => if s then f.big s else f.inf s

/-- Round the exact non-zero value (−1)^s · m · 2^e to a format (R161, R166, R167). -/
def fround (f : Fmt) (rm : Rm) (trapSub s : Bool) (m : Nat) (e : Int) : FRes :=
  let r := roundSig rm s (f.fb + 1) m e
  let E : Int := r.2.1 + f.fb + f.bias
  if E < 1 then
    (if trapSub then ⟨f.zero s, exSUBOUT⟩ else ⟨f.zero s, exUF ||| exIX ||| exFLUSH⟩)
  else if (f.eMax : Int) ≤ E then ⟨overflowed f rm s, exOF ||| exIX⟩
  else ⟨f.sign s + E.toNat * 2 ^ f.fb + (r.1 - 2 ^ f.fb), if r.2.2 then exIX else 0⟩

/-- The sign of an exact zero sum of terms that do not share a sign (R156). -/
def zeroSign (rm : Rm) : Bool := rm == .rdn

/-- Round a signed integer times a power of two; an exact zero takes the sign `z`. -/
def froundInt (f : Fmt) (rm : Rm) (trapSub z : Bool) (v : Int) (e : Int) : FRes :=
  if v = 0 then ⟨f.zero z, 0⟩ else fround f rm trapSub (v < 0) v.natAbs e

/-- The operands' check of R165: SUBIN in TRAP mode; in FLUSH mode the FLUSH flag. -/
def subCheck (trapSub : Bool) (l : List FVal) : Nat :=
  if l.any (fun v => match v with | .sub _ => true | _ => false) then (if trapSub then exSUBIN else exFLUSH) else 0

/-- A subnormal operand read as a zero of its sign (R165). -/
def FVal.flush : FVal → FVal
  | .sub s => .zero s
  | v => v

/-- The sign of a value. -/
def FVal.neg : FVal → Bool
  | .nan s _ _ | .inf s | .zero s | .sub s | .num s _ _ => s

/-- The value with its sign inverted (NaNs as they are). -/
def FVal.negate : FVal → FVal
  | .nan s m q => .nan s m q
  | .inf s => .inf !s
  | .zero s => .zero !s
  | .sub s => .sub !s
  | .num s m e => .num (!s) m e

/-- A quiet NaN of the format with a sign and fraction (R162). -/
def Fmt.quiet (f : Fmt) (s : Bool) (frac : Nat) : Nat :=
  f.sign s + f.eMax * 2 ^ f.fb + (frac ||| 2 ^ (f.fb - 1))

/-- The first NaN in operand order made quiet, with NV for any signalling NaN (R162). -/
def nanOf (f : Fmt) (l : List FVal) : Option FRes :=
  let nv := if l.any (fun v => match v with | .nan _ _ q => !q | _ => false) then exNV else 0
  match l.find? (fun v => match v with | .nan .. => true | _ => false) with
  | some (.nan s m _) => some ⟨f.quiet s m, nv⟩
  | _ => none

/-- An invalid operation (R163). -/
def invalid (f : Fmt) : FRes := ⟨f.nan, exNV⟩

/-- a · b + c with one rounding; `c` absent for a plain product (R156, R163). None of the operands is a NaN. -/
def fmaCore (f : Fmt) (rm : Rm) (ts : Bool) (a b : FVal) (c : Option FVal) : FRes :=
  let sp := a.neg != b.neg
  let isInf (v : FVal) : Bool := match v with | .inf _ => true | _ => false
  let isZero (v : FVal) : Bool := match v with | .zero _ => true | _ => false
  if (isInf a && isZero b) || (isZero a && isInf b) then invalid f
  else if isInf a || isInf b then
    match c with
    | some (.inf s) => if s = sp then ⟨f.inf sp, 0⟩ else invalid f
    | _ => ⟨f.inf sp, 0⟩
  else
    match c with
    | some (.inf s) => ⟨f.inf s, 0⟩
    | _ =>
      let pm : Int × Int := match a, b with
        | .num _ m e, .num _ m' e' => ((if sp then -(m * m' : Nat) else (m * m' : Nat)), e + e')
        | _, _ => (0, 0)
      match c with
      | none => froundInt f rm ts sp pm.1 pm.2
      | some cv =>
        let cm : Int × Int := match cv with
          | .num s m e => ((if s then -(m : Int) else m), e)
          | _ => (0, pm.2)
        let pe := if pm.1 = 0 then cm.2 else pm.2
        let lo := min pe cm.2
        let sum := pm.1 * 2 ^ (pe - lo).toNat + cm.1 * 2 ^ (cm.2 - lo).toNat
        let z := if pm.1 = 0 && cm.1 = 0 && sp == cv.neg then sp else zeroSign rm
        froundInt f rm ts z sum lo

/-- The three-operand family (R156). -/
inductive FArith where
  | add | sub | mul | fma | fms | fnma
  deriving DecidableEq, Repr

/-- One scalar or one lane of the add, multiply and FMA family (R156, R162–R167). -/
def farith (f : Fmt) (op : FArith) (rm : Rm) (ts : Bool) (x y c : Nat) : FRes :=
  let a0 := f.decode x
  let b0 := f.decode y
  let c0 := f.decode c
  let three := op == .fma || op == .fms || op == .fnma
  let ops := if three then [a0, b0, c0] else [a0, b0]
  let sub := subCheck ts ops
  if sub = exSUBIN then ⟨f.zero false, exSUBIN⟩
  else
    let a := a0.flush
    let b := b0.flush
    let cc := c0.flush
    let zeroInf := match a, b with
      | .zero _, .inf _ | .inf _, .zero _ => true
      | _, _ => false
    let r : FRes := match nanOf f ops with
      | some r => ⟨r.val, if three && zeroInf then r.ex ||| exNV else r.ex⟩
      | none =>
        match op with
        | .mul => fmaCore f rm ts a b none
        | .add => fmaCore f rm ts a (.num false 1 0) (some b)
        | .sub => fmaCore f rm ts a (.num false 1 0) (some b.negate)
        | .fma => fmaCore f rm ts a b (some cc)
        | .fms => fmaCore f rm ts a b (some cc.negate)
        | .fnma => fmaCore f rm ts a.negate b (some cc)
    ⟨r.val, r.ex ||| sub⟩

/-- Quotient (R155, R163): enough quotient bits and a sticky bit below them, then one rounding. -/
def fdiv (f : Fmt) (rm : Rm) (ts : Bool) (x y : Nat) : FRes :=
  let a0 := f.decode x
  let b0 := f.decode y
  let sub := subCheck ts [a0, b0]
  if sub = exSUBIN then ⟨f.zero false, exSUBIN⟩
  else
    let a := a0.flush
    let b := b0.flush
    let s := a.neg != b.neg
    let r : FRes := match nanOf f [a0, b0] with
      | some r => r
      | none =>
        match a, b with
        | .inf _, .inf _ => invalid f
        | .zero _, .zero _ => invalid f
        | .inf _, _ => ⟨f.inf s, 0⟩
        | _, .inf _ => ⟨f.zero s, 0⟩
        | .zero _, _ => ⟨f.zero s, 0⟩
        | _, .zero _ => ⟨f.inf s, exDZ⟩
        | .num _ m e, .num _ m' e' =>
          let k := 2 * f.fb + 6
          let n := m <<< k
          fround f rm ts s (2 * (n / m') + (if n % m' = 0 then 0 else 1)) (e - e' - k - 1)
        | _, _ => invalid f
    ⟨r.val, r.ex ||| sub⟩

/-- Integer square root, bit by bit from the top: `b` is the number of result bits still to choose. -/
def isqrtGo (n : Nat) : Nat → Nat → Nat
  | 0, r => r
  | b + 1, r => isqrtGo n b (if (r + 2 ^ b) * (r + 2 ^ b) ≤ n then r + 2 ^ b else r)

/-- The largest r with r² ≤ n. -/
def isqrt (n : Nat) : Nat := isqrtGo n (Nat.log2 n / 2 + 1) 0

/-- Square root (R157, R163). -/
def fsqrt (f : Fmt) (rm : Rm) (ts : Bool) (x : Nat) : FRes :=
  let a0 := f.decode x
  let sub := subCheck ts [a0]
  if sub = exSUBIN then ⟨f.zero false, exSUBIN⟩
  else
    let r : FRes := match nanOf f [a0] with
      | some r => r
      | none =>
        match a0.flush with
        | .zero s => ⟨f.zero s, 0⟩
        | .inf s => if s then invalid f else ⟨f.inf false, 0⟩
        | .num s m e =>
          if s then invalid f
          else
            let k := 2 * f.fb + 8 + (if (e % 2 : Int) = 0 then 0 else 1)
            let n := m <<< k
            let q := isqrt n
            fround f rm ts false (2 * q + (if q * q = n then 0 else 1)) ((e - k) / 2 - 1)
        | _ => invalid f
    ⟨r.val, r.ex ||| sub⟩

/-- Order of two values that are no NaNs; −0 equals +0 (R158). -/
def fltVal (a b : FVal) : Bool :=
  let key (v : FVal) : Int × Int := match v with
    | .num s m e => ((if s then -(m : Int) else m), e)
    | _ => (0, 0)
  match a, b with
  | .inf s, .inf s' => s && !s'
  | .inf s, _ => s
  | _, .inf s => !s
  | _, _ =>
    let lo := min (key a).2 (key b).2
    (key a).1 * 2 ^ ((key a).2 - lo).toNat < (key b).1 * 2 ^ ((key b).2 - lo).toNat

/-- The compares (R158). -/
inductive FCmp where
  | eq | lt | le | un
  deriving DecidableEq, Repr

/-- A compare: the predicate (as 0 or 1) and the exceptions (R158, R165). -/
def fcmp (f : Fmt) (op : FCmp) (ts : Bool) (x y : Nat) : FRes :=
  let a0 := f.decode x
  let b0 := f.decode y
  let sub := subCheck ts [a0, b0]
  if sub = exSUBIN then ⟨0, exSUBIN⟩
  else
    let r : FRes := match nanOf f [a0, b0] with
      | some n => ⟨if op == .un then 1 else 0, if op == .lt || op == .le then exNV else n.ex⟩
      | none =>
        let a := a0.flush
        let b := b0.flush
        let v := match op with
          | .eq => !fltVal a b && !fltVal b a
          | .lt => fltVal a b
          | .le => !fltVal b a
          | .un => false
        ⟨if v then 1 else 0, 0⟩
    ⟨r.val, r.ex ||| sub⟩

/-- FMIN and FMAX (R159): −0 below +0; a NaN operand gives a NaN. -/
def fminmax (f : Fmt) (maximum ts : Bool) (x y : Nat) : FRes :=
  let a0 := f.decode x
  let b0 := f.decode y
  let sub := subCheck ts [a0, b0]
  if sub = exSUBIN then ⟨f.zero false, exSUBIN⟩
  else
    let enc (v : FVal) (n : Nat) : Nat := match v with | .zero s => f.zero s | _ => n
    let a := a0.flush
    let b := b0.flush
    let less := fltVal a b || (!fltVal b a && a.neg && !b.neg)
    let r : FRes := match nanOf f [a0, b0] with
      | some r => r
      | none => ⟨if less != maximum then enc a x else enc b y, 0⟩
    ⟨r.val, r.ex ||| sub⟩

/-- FNEG and FABS (R160): non-arithmetic. -/
def fsign (f : Fmt) (abs : Bool) (x : Nat) : Nat :=
  let m := natBits x 0 (f.eb + f.fb)
  if abs || x.testBit (f.eb + f.fb) then m else m + f.sign true

/-- FCLASS (R160). -/
def fclass (f : Fmt) (x : Nat) : Nat :=
  let v := f.decode x
  let o := if v.neg then 1 else 0
  let bit := match v with
    | .zero _ => 0 + o
    | .sub _ => 2 + o
    | .num .. => 4 + o
    | .inf _ => 6 + o
    | .nan _ _ q => if q then 8 else 9
  2 ^ bit + o * 2 ^ 16

/-- Conversion between formats (R164, R173). -/
def fconv (src dst : Fmt) (rm : Rm) (ts : Bool) (x : Nat) : FRes :=
  let a0 := src.decode x
  let sub := subCheck ts [a0]
  if sub = exSUBIN then ⟨dst.zero false, exSUBIN⟩
  else
    let r : FRes := match a0.flush with
      | .nan s m q =>
        ⟨dst.quiet s (if src.fb ≤ dst.fb then m <<< (dst.fb - src.fb) else m >>> (src.fb - dst.fb)),
          if q then 0 else exNV⟩
      | .inf s => ⟨dst.inf s, 0⟩
      | .zero s => ⟨dst.zero s, 0⟩
      | .num s m e => fround dst rm ts s m e
      | .sub s => ⟨dst.zero s, 0⟩
    ⟨r.val, r.ex ||| sub⟩

/-- Integer times 2^e to a format (R174, R175): a zero integer gives +0. -/
def intToF (f : Fmt) (rm : Rm) (ts : Bool) (v : Int) (e : Int) : FRes := froundInt f rm ts false v e

/-- A value times 2^sc rounded to an integer in [lo, hi] (R174, R175). -/
def fToInt (f : Fmt) (rm : Rm) (ts : Bool) (lo hi : Int) (sc : Int) (x : Nat) : Word × Nat :=
  let a0 := f.decode x
  let sub := subCheck ts [a0]
  if sub = exSUBIN then (0, exSUBIN)
  else
    let r : Int × Nat := match a0.flush with
      | .nan _ _ _ => (0, exNV)
      | .inf s => (if s then lo else hi, exNV)
      | .num s m e0 =>
        let e := e0 + sc
        let mag : Nat × Bool :=
          if 0 ≤ e then (m <<< e.toNat, false)
          else
            let sh := (-e).toNat
            let q := m >>> sh
            let rest := m % 2 ^ sh
            (if rm.up s (q % 2 == 1) rest (2 ^ (sh - 1)) then q + 1 else q, rest ≠ 0)
        let v : Int := if s then -(mag.1 : Int) else mag.1
        if v < lo then (lo, exNV) else if hi < v then (hi, exNV)
        else (v, if mag.2 then exIX else 0)
      | _ => (0, 0)
    (BitVec.ofInt 64 r.1, r.2 ||| sub)

end Sys2Proof.Machine
end

