-- ==== Sys2Proof/Machine/Operands.lean ====
section
/-! DEFINITION. Slot words: their fields and operand forms (R48–R51), and the operation that each word names. A decoder
answers `none` where the word raises the decode-class illegal-operation trap. -/

namespace Sys2Proof.Machine

/-! ### Fields of a slot word (R48, R49) -/

def swOp (w : Nat) : Nat := natBits w 24 8
def swPinv (w : Nat) : Bool := w.testBit 23
def swPred (w : Nat) : Nat := natBits w 19 4
def swDst (w : Nat) : Nat := natBits w 13 6
def swS1 (w : Nat) : Nat := natBits w 7 6
def swS2 (w : Nat) : Nat := natBits w 1 6
def swS (w : Nat) : Bool := w.testBit 0
def swL (w : Nat) : Nat := natBits w 1 12

/-- The 6-bit immediate, signed (R120). -/
def swImmS (w : Nat) : Int := (BitVec.ofNat 6 (swS2 w)).toInt

/-- Keep an operation only where a condition holds: a broken rule on its fields is the illegal-operation trap. -/
def need {α : Type} (c : Bool) (x : α) : Option α := if c then some x else none

/-! ### Slots N0 and N1 (spec/03) -/

/-- Operations of the N slots. Numbers name registers; for the pair forms they name the even register. -/
inductive NOp where
  | tlog (tt d a b : Nat)
  | tlx (tt d a b : Nat)
  | mov (d s : Nat)
  | movp (d s : Nat)
  | ldk (d : Nat)
  | shiftI (k : ShiftKind) (d s n : Nat)
  | shiftR (k : ShiftKind) (d s r : Nat)
  | bcI (d s n : Nat)
  | bcR (d s r : Nat)
  | test (k : TestKind) (p a b : Nat)
  | extract (sg : Bool) (d s r : Nat)
  | extb (d s n : Nat)
  | deposit (d s r : Nat)
  | depb (d s n : Nat)
  | concat (d s r : Nat)
  | edge (k : EdgeKind) (d a b : Nat)
  | edgep (k : EdgeKind) (d a b : Nat)
  | sample (d a b : Nat)
  | samplep (d a b : Nat)
  | gather (four : Bool) (d q : Nat) (pat : Option Nat) (r : Nat)
  deriving DecidableEq, Repr

/-- Predicate destination (R98, R119): bits [16:13], with [18:17] zero. -/
def predDst (w : Nat) : Option Nat := need (natBits w 17 2 == 0) (natBits w 13 4)

/-- Decode an N-slot word (R50, R92, R93, R95–R110). -/
def decodeN (n0 : Bool) (w : Nat) : Option NOp :=
  let op := swOp w
  let d := swDst w
  let s1 := swS1 w
  let s2 := swS2 w
  let pair := natBits w 13 1 == 0 && natBits w 7 1 == 0 && natBits w 1 1 == 0
  if 0x80 ≤ op then some (.tlog (2 * (op - 0x80) + b2 (swS w)) d s1 s2)
  else if 0x40 ≤ op then
    need (natBits w 7 1 == 0 && natBits w 1 1 == 0)
      (.tlx (4 * (op - 0x40) + 2 * natBits w 13 1 + b2 (swS w)) (d / 2 * 2) s1 s2)
  else if swS w then none
  else
    match op with
    | 0x00 => need (s2 == 0) (.mov d s1)
    | 0x01 => need (pair && s2 == 0) (.movp d s1)
    | 0x02 => need (s1 == 0 && s2 == 0) (.ldk d)
    | 0x04 => some (.shiftI .left d s1 s2)
    | 0x05 => some (.shiftI .right d s1 s2)
    | 0x06 => some (.shiftI .rotate d s1 s2)
    | 0x07 => some (.shiftR .left d s1 s2)
    | 0x08 => some (.shiftR .right d s1 s2)
    | 0x09 => some (.shiftR .rotate d s1 s2)
    | 0x0C => some (.bcI d s1 s2)
    | 0x0D => some (.bcR d s1 s2)
    | 0x10 => (predDst w).map (fun p => .test .any p s1 s2)
    | 0x11 => (predDst w).map (fun p => .test .all p s1 s2)
    | 0x12 => (predDst w).map (fun p => .test .eq p s1 s2)
    | 0x18 => some (.extract false d s1 s2)
    | 0x19 => some (.extract true d s1 s2)
    | 0x1A => need (s2 ≤ 24) (.extb d s1 s2)
    | 0x1B => some (.deposit d s1 s2)
    | 0x1C => need (s2 ≤ 24) (.depb d s1 s2)
    | 0x1D => some (.concat d s1 s2)
    | 0x20 => some (.edge .pos d s1 s2)
    | 0x21 => some (.edge .neg d s1 s2)
    | 0x22 => some (.edge .both d s1 s2)
    | 0x24 => need pair (.edgep .pos d s1 s2)
    | 0x25 => need pair (.edgep .neg d s1 s2)
    | 0x26 => need pair (.edgep .both d s1 s2)
    | 0x28 => some (.sample d s1 s2)
    | 0x29 => need pair (.samplep d s1 s2)
    | 0x30 => need (n0 && swL w % 256 ≤ 203) (.gather false d (swL w / 256) (some (swL w % 256)) 0)
    | 0x31 => need (n0 && swL w % 256 ≤ 203 && d % 2 == 0) (.gather true d (swL w / 256) (some (swL w % 256)) 0)
    | 0x32 => need (n0 && s1 % 4 == 0) (.gather false d (s1 / 4) none s2)
    | 0x33 => need (n0 && s1 % 4 == 0 && d % 2 == 0) (.gather true d (s1 / 4) none s2)
    | _ => none
where
  b2 (b : Bool) : Nat := if b then 1 else 0

/-- Latency of an N-slot operation (R58). -/
def NOp.lat : NOp → Nat
  | .tlx .. | .extract .. | .extb .. | .deposit .. | .depb .. | .concat .. => 2
  | .gather .. => 3
  | _ => 1

/-- Is the operation four-state, and so gated by feature FOURSTATE and absent from DX48 programs (R379, R382)? -/
def NOp.fourState : NOp → Bool
  | .tlx .. | .edgep .. | .samplep .. => true
  | .gather f .. => f
  | _ => false

/-! ### Slots A0 and A1 (spec/04) -/

/-- Source 2 of an A-slot operation: a register, an immediate already widened, or the K latch. -/
inductive ASrc where
  | reg (r : Nat)
  | imm (v : Word)
  | k
  deriving DecidableEq, Repr

/-- Operations of the A slots. -/
inductive AOp where
  | alu (f : Alu) (s : Bool) (d s1 : Nat) (src : ASrc)
  | ldi (d : Nat) (v : Word)
  | ldk (d : Nat)
  | chain (sub start : Bool) (d s1 s2 : Nat)
  | insk (d s1 : Nat)
  | cmpP (c : Cmp) (p s1 : Nat) (src : ASrc)
  | cmpA (c : Cmp) (d s1 s2 : Nat)
  | plogic (f : PLogic) (p a b : Nat)
  | mvfe (d idx : Nat)
  | mvte (idx src : Nat)
  deriving DecidableEq, Repr

/-- Predicate sources (R119): low four bits, upper two zero. -/
def predSrcs (w : Nat) : Bool := swS1 w < 16 && swS2 w < 16

/-- Decode an A-slot word (R124–R131). -/
def decodeA (a0 : Bool) (w : Nat) : Option AOp :=
  let op := swOp w
  let d := swDst w
  let s1 := swS1 w
  let s2 := swS2 w
  let s := swS w
  let r := ASrc.reg s2
  let immS := ASrc.imm (BitVec.ofInt 64 (swImmS w))
  let immU := ASrc.imm (w64 s2)
  let rr (f : Alu) : Option AOp := need (!s) (.alu f false d s1 r)
  let one (f : Alu) : Option AOp := need (!s && s2 == 0) (.alu f false d s1 (.imm 0))
  let kk (f : Alu) : Option AOp := need (!s && s2 == 0) (.alu f false d s1 .k)
  let cp (c : Cmp) (src : ASrc) : Option AOp := if s then none else (predDst w).map (fun p => .cmpP c p s1 src)
  let pl (f : PLogic) : Option AOp :=
    if s || !predSrcs w then none else (predDst w).map (fun p => .plogic f p s1 s2)
  match op with
  | 0x00 => one .mov
  | 0x01 => need (!s) (.ldi d (BitVec.ofInt 64 (BitVec.ofNat 12 (swL w)).toInt))
  | 0x02 => need (!s && s1 == 0 && s2 == 0) (.ldk d)
  | 0x08 => some (.alu .add s d s1 r)
  | 0x09 => some (.alu .add s d s1 immS)
  | 0x0A => need (s2 == 0) (.alu .add s d s1 .k)
  | 0x0B => some (.alu .addu s d s1 r)
  | 0x0C => some (.alu .sub s d s1 r)
  | 0x0D => need (s2 == 0) (.alu .sub s d s1 .k)
  | 0x0E => some (.alu .subu s d s1 r)
  | 0x0F => need (s2 == 0) (.alu .neg s d s1 (.imm 0))
  | 0x10 => need (s2 == 0) (.alu .abs s d s1 (.imm 0))
  | 0x11 => need (!s) (.chain false false d s1 s2)
  | 0x12 => need (!s) (.chain false true d s1 s2)
  | 0x13 => need (!s) (.chain true false d s1 s2)
  | 0x14 => need (!s) (.chain true true d s1 s2)
  | 0x15 => rr .min
  | 0x16 => rr .max
  | 0x17 => rr .minu
  | 0x18 => rr .maxu
  | 0x19 => rr .and
  | 0x1A => rr .or
  | 0x1B => rr .xor
  | 0x1C => rr .andn
  | 0x1D => kk .and
  | 0x1E => kk .or
  | 0x1F => kk .xor
  | 0x20 => some (.alu .shl s d s1 r)
  | 0x21 => some (.alu .shl s d s1 immU)
  | 0x22 => rr .shr
  | 0x23 => need (!s) (.alu .shr false d s1 immU)
  | 0x24 => rr .sar
  | 0x25 => need (!s) (.alu .sar false d s1 immU)
  | 0x26 => rr .rol
  | 0x27 => need (!s) (.alu .rol false d s1 immU)
  | 0x28 => rr .rsar
  | 0x29 => need (!s) (.alu .rsar false d s1 immU)
  | 0x2A => rr .xtr
  | 0x2B => rr .xtrs
  | 0x2C => need (!s && s2 == 0) (.insk d s1)
  | 0x2D => need (!s) (.alu .zext false d s1 immU)
  | 0x2E => need (!s) (.alu .sext false d s1 immU)
  | 0x2F => one .brev
  | 0x30 => cp .eq r
  | 0x31 => cp .ne r
  | 0x32 => cp .lt r
  | 0x33 => cp .le r
  | 0x34 => cp .ltu r
  | 0x35 => cp .leu r
  | 0x36 => cp .eq immS
  | 0x37 => cp .lt immS
  | 0x38 => cp .le immS
  | 0x39 => cp .ltu immU
  | 0x3A => cp .leu immU
  | 0x40 => need (!s) (.cmpA .eq d s1 s2)
  | 0x41 => need (!s) (.cmpA .ne d s1 s2)
  | 0x42 => need (!s) (.cmpA .lt d s1 s2)
  | 0x43 => need (!s) (.cmpA .le d s1 s2)
  | 0x44 => need (!s) (.cmpA .ltu d s1 s2)
  | 0x45 => need (!s) (.cmpA .leu d s1 s2)
  | 0x48 => pl .and
  | 0x49 => pl .or
  | 0x4A => pl .xor
  | 0x4B => pl .andn
  | 0x50 => one .clz
  | 0x51 => one .ctz
  | 0x52 => one .popc
  | 0x53 => one .norm
  | 0x54 => one .exp
  | 0x7E => need (a0 && !s) (.mvfe d (swL w))
  | 0x7F => need (a0 && !s) (.mvte (swL w) d)
  | _ => none

/-- Latency of an A-slot operation (R58, R124). -/
def AOp.lat : AOp → Nat
  | .alu f .. => match f with
    | .clz | .ctz | .popc | .norm | .exp => 2
    | _ => 1
  | .mvfe .. => 2
  | _ => 1

/-! ### Slot M (spec/04, spec/05) -/

/-- Operations of slot M. -/
inductive MOp where
  | mul32 (unsigned : Bool) (d s1 s2 : Nat)
  | mac (f : Mac) (s : Bool) (d s1 s2 : Nat)
  | extr (s : Bool) (d acc : Nat) (sh : ASrc) (w : Nat)
  | acchi (d acc : Nat)
  | accnorm (d acc : Nat)
  | quince (opc : Nat) (s : Bool) (d s1 s2 : Nat)
  | farith (f : Fmt) (packed : Bool) (op : FArith) (d s1 s2 : Nat)
  | fcmp (f : Fmt) (op : FCmp) (p s1 s2 : Nat)
  | fminmax (f : Fmt) (maximum : Bool) (d s1 s2 : Nat)
  | fsign (f : Fmt) (abs : Bool) (d s1 : Nat)
  | fclass (f : Fmt) (d s1 : Nat)
  | fconv (src dst : Fmt) (d s1 : Nat)
  | itof (f : Fmt) (unsigned : Bool) (d s1 frac : Nat)
  | ftoi (f : Fmt) (unsigned rtz : Bool) (d s1 frac : Nat)
  deriving DecidableEq, Repr

/-- The add, multiply and FMA family by the low three opcode bits (R155). -/
def farithOf (n : Nat) : Option FArith :=
  match n with
  | 0 => some .add
  | 1 => some .sub
  | 2 => some .mul
  | 3 => some .fma
  | 4 => some .fms
  | 5 => some .fnma
  | _ => none

/-- Decode a slot-M word (R133, R138, R155). -/
def decodeM (w : Nat) : Option MOp :=
  let op := swOp w
  let d := swDst w
  let s1 := swS1 w
  let s2 := swS2 w
  let s := swS w
  let accD := d < 8
  let accS := s1 < 8
  let even := d % 2 == 0
  let mac (f : Mac) (sat : Bool) : Option MOp := need (accD && (sat || !s)) (.mac f s d s1 s2)
  let q (ok : Bool) : Option MOp := need ok (.quince op s d s1 s2)
  let fam (f : Fmt) (packed : Bool) : Option MOp :=
    if s then none else (farithOf (op % 8)).map (fun o => .farith f packed o d s1 s2)
  let fc (f : Fmt) (c : FCmp) : Option MOp := if s then none else (predDst w).map (fun p => .fcmp f c p s1 s2)
  let un (x : MOp) : Option MOp := need (!s && s2 == 0) x
  if 0x80 ≤ op && op < 0xA8 then
    (if op < 0x88 then fam fmtD false else if op < 0x90 then fam fmtS false else if op < 0x98 then fam fmtS true
     else if op < 0xA0 then fam fmtH false else fam fmtB false)
  else
    match op with
    | 0x00 => need (!s) (.mul32 false d s1 s2)
    | 0x01 => need (!s) (.mul32 true d s1 s2)
    | 0x08 => mac .mac32 true
    | 0x09 => mac .msu32 true
    | 0x0A => mac .mac32u true
    | 0x0B => mac .mpy32 false
    | 0x0C => mac .mac16x2 true
    | 0x0D => mac .msu16x2 true
    | 0x0E => mac .mpy16x2 false
    | 0x10 => if s1 = 0 && s2 = 0 then mac .aclr false else none
    | 0x11 => if s2 = 0 then mac .accld false else none
    | 0x12 => if s2 = 0 then mac .accseth false else none
    | 0x13 => if s2 = 0 && accS then mac .accadd true else none
    | 0x18 => need accS (.extr s d s1 (.imm (w64 s2)) 64)
    | 0x19 => need accS (.extr s d s1 (.reg s2) 64)
    | 0x1A => need accS (.extr s d s1 (.imm (w64 s2)) 32)
    | 0x1B => need (!s && accS && s2 == 0) (.acchi d s1)
    | 0x1C => need (!s && accS && s2 == 0) (.accnorm d s1)
    | 0x40 => q (!s && even)
    | 0x41 => q (!s && even)
    | 0x44 => q true
    | 0x45 => q (!s)
    | 0x46 => q (!s)
    | 0x47 => q (!s)
    | 0x48 => q even
    | 0x49 => q (!s && even)
    | 0x4C => q (!s && s2 == 0 && d % 8 == 0)
    | 0xB0 => fc fmtD .eq
    | 0xB1 => fc fmtD .lt
    | 0xB2 => fc fmtD .le
    | 0xB3 => fc fmtD .un
    | 0xB4 => fc fmtS .eq
    | 0xB5 => fc fmtS .lt
    | 0xB6 => fc fmtS .le
    | 0xB7 => fc fmtS .un
    | 0xB8 => need (!s) (.fminmax fmtD false d s1 s2)
    | 0xB9 => need (!s) (.fminmax fmtD true d s1 s2)
    | 0xBA => need (!s) (.fminmax fmtS false d s1 s2)
    | 0xBB => need (!s) (.fminmax fmtS true d s1 s2)
    | 0xBC => un (.fsign fmtD false d s1)
    | 0xBD => un (.fsign fmtD true d s1)
    | 0xBE => un (.fsign fmtS false d s1)
    | 0xBF => un (.fsign fmtS true d s1)
    | 0xC0 => un (.fclass fmtD d s1)
    | 0xC1 => un (.fclass fmtS d s1)
    | 0xC8 => un (.fconv fmtS fmtD d s1)
    | 0xC9 => un (.fconv fmtD fmtS d s1)
    | 0xCA => un (.fconv fmtH fmtS d s1)
    | 0xCB => un (.fconv fmtS fmtH d s1)
    | 0xCC => un (.fconv fmtB fmtS d s1)
    | 0xCD => un (.fconv fmtS fmtB d s1)
    | 0xD0 => un (.itof fmtD false d s1 0)
    | 0xD1 => un (.itof fmtD true d s1 0)
    | 0xD2 => un (.itof fmtS false d s1 0)
    | 0xD3 => un (.itof fmtS true d s1 0)
    | 0xD4 => un (.ftoi fmtD false false d s1 0)
    | 0xD5 => un (.ftoi fmtD true false d s1 0)
    | 0xD6 => un (.ftoi fmtS false false d s1 0)
    | 0xD7 => un (.ftoi fmtS true false d s1 0)
    | 0xD8 => un (.ftoi fmtD false true d s1 0)
    | 0xD9 => un (.ftoi fmtS false true d s1 0)
    | 0xE0 => need (!s) (.itof fmtD false d s1 s2)
    | 0xE1 => need (!s) (.itof fmtS false d s1 s2)
    | 0xE2 => need (!s) (.ftoi fmtD false false d s1 s2)
    | 0xE3 => need (!s) (.ftoi fmtS false false d s1 s2)
    | 0xF0 => q (!s)
    | 0xF1 => q (!s)
    | 0xF2 => q (!s && s2 == 0)
    | 0xF3 => q (!s && s2 == 0)
    | _ => none

/-- Is the operation a pipelined floating-point operation (R170)? -/
def MOp.isFp : MOp → Bool
  | .farith .. | .fcmp .. | .fminmax .. | .fsign .. | .fclass .. | .fconv .. | .itof .. | .ftoi .. => true
  | _ => false

/-- Latency of a slot-M operation (R58); a Quince operation has its own count. -/
def MOp.lat : MOp → Nat
  | .extr .. | .acchi .. | .accnorm .. => 2
  | .farith f _ _ _ _ _ => if f = fmtD then 4 else 3
  | .fcmp .. | .fminmax .. | .fsign .. | .fclass .. => 2
  | _ => 3

/-- Does the operation use the binary16 or bfloat16 format (feature HALF, R379)? -/
def MOp.half : MOp → Bool
  | .farith f _ _ _ _ _ => f = fmtH || f = fmtB
  | .fconv s d _ _ => s = fmtH || d = fmtH || s = fmtB || d = fmtB
  | _ => false

/-! ### Slots D0 and D1 (spec/06, spec/07, spec/10) -/

/-- The offset of an address: an immediate in bytes, or an increment register (R181). -/
inductive XOff where
  | imm (v : Int)
  | inc (i : Nat)
  deriving DecidableEq, Repr

/-- An address operand (R181): register, mode 0 offset, 1 post-modify, 2 pre-modify, and offset. -/
structure Addr where
  x    : Nat
  mode : Nat
  off  : XOff
  deriving DecidableEq, Repr

/-- Operations of the D slots. `toN` says whether the register is of the N-file. -/
inductive DOp where
  | load (size : Nat) (sg toN rot : Bool) (d : Nat) (am : Addr)
  | store (size : Nat) (toN rot : Bool) (d : Nat) (am : Addr)
  | xset (x s1 : Nat)
  | xget (d x : Nat)
  | xmod (x : Nat) (off : XOff)
  | imsync
  | qput (k s1 : Nat)
  | qget (d k : Nat)
  | ldrd (d : Nat) (am : Addr)
  | stcd (d : Nat) (am : Addr)
  | put (size : Nat) (toN : Bool) (d : Nat) (am : Addr)
  | farLoad (size : Nat) (toN : Bool) (d : Nat) (am : Addr)
  | farStore (size : Nat) (toN : Bool) (d : Nat) (am : Addr)
  deriving DecidableEq, Repr

/-- The address operand in I form, with the immediate scaled by the size, or in R form (R181). Mode 3 and a non-zero
[6:5] in R form are illegal. -/
def decodeAddr (rForm : Bool) (size w : Nat) : Option Addr :=
  let mode := natBits w 11 2
  if rForm then need (mode ≠ 3 && natBits w 5 2 == 0) ⟨natBits w 7 4, mode, .inc (natBits w 1 4)⟩
  else need (mode ≠ 3) ⟨natBits w 7 4, mode, .imm (swImmS w * size)⟩

/-- Size, sign extension and file of a load's base opcode (R184). -/
def loadOf (b : Nat) : Option (Nat × Bool × Bool) :=
  match b with
  | 0 => some (1, true, false)
  | 1 => some (1, false, false)
  | 2 => some (2, true, false)
  | 3 => some (2, false, false)
  | 4 => some (4, true, false)
  | 5 => some (4, false, false)
  | 6 => some (8, false, false)
  | 7 => some (32, false, true)
  | _ => none

/-- Size and file of a store's base opcode less 0x40 (R184). -/
def storeOf (b : Nat) : Option (Nat × Bool) :=
  match b with
  | 0 => some (1, false)
  | 2 => some (2, false)
  | 4 => some (4, false)
  | 6 => some (8, false)
  | 7 => some (32, true)
  | _ => none

/-- Decode a D-slot word (R184, R185, R141, R227, R297). None has a saturating form. -/
def decodeD (d0 : Bool) (w : Nat) : Option DOp :=
  let op := swOp w
  let d := swDst w
  let s1 := swS1 w
  let s2 := swS2 w
  let plainX := natBits w 11 2 == 0
  let far (rForm : Bool) (size : Nat) (mk : Addr → DOp) : Option DOp :=
    if d0 then none else (decodeAddr rForm size w).map mk
  if swS w then none
  else
    match op with
    | 0x08 => need (natBits w 17 2 == 0 && s2 == 0) (.xset (natBits w 13 4) s1)
    | 0x09 => need (plainX && s2 == 0) (.xget d (natBits w 7 4))
    | 0x0A => need (plainX && d == 0) (.xmod (natBits w 7 4) (.imm (swImmS w)))
    | 0x0B => need (plainX && d == 0 && natBits w 5 2 == 0) (.xmod (natBits w 7 4) (.inc (natBits w 1 4)))
    | 0x80 => far false 8 (.put 8 false d)
    | 0x81 => far false 32 (.put 32 true d)
    | 0x84 => far true 8 (.put 8 false d)
    | 0x85 => far true 32 (.put 32 true d)
    | 0x90 => (decodeAddr false 8 w).map (.ldrd d)
    | 0x91 => (decodeAddr false 8 w).map (.stcd d)
    | 0xA0 => far false 8 (.farLoad 8 false d)
    | 0xA1 => far false 32 (.farLoad 32 true d)
    | 0xA2 => far false 8 (.farStore 8 false d)
    | 0xA3 => far false 32 (.farStore 32 true d)
    | 0xB0 => far true 8 (.farLoad 8 false d)
    | 0xB1 => far true 32 (.farLoad 32 true d)
    | 0xB2 => far true 8 (.farStore 8 false d)
    | 0xB3 => far true 32 (.farStore 32 true d)
    | 0xF8 => need (d < 8 && s2 == 0) (.qput d s1)
    | 0xF9 => need (s1 < 8 && s2 == 0) (.qget d s1)
    | 0xFA => need (d0 && d == 0 && s1 == 0 && s2 == 0) .imsync
    | _ =>
      if op < 0x40 then
        match loadOf (op % 16) with
        | some (sz, sg, n) =>
          (decodeAddr ((op / 16) % 2 == 1) sz w).map (fun am => .load sz sg n ((op / 32) % 2 == 1) d am)
        | none => none
      else if op < 0x80 then
        match storeOf (op % 16) with
        | some (sz, n) =>
          (decodeAddr ((op / 16) % 2 == 1) sz w).map (fun am => .store sz n ((op / 32) % 2 == 1) d am)
        | none => none
      else none

/-! ### Whole slots -/

/-- A decoded slot operation. -/
inductive SOp where
  | n (o : NOp)
  | a (o : AOp)
  | m (o : MOp)
  | d (o : DOp)
  deriving DecidableEq, Repr

/-- Decode the word of slot `i` (N0 = 0, N1, A0, A1, M, D0, D1 = 6). -/
def decodeSlot (i w : Nat) : Option SOp :=
  if i = 0 then (decodeN true w).map .n
  else if i = 1 then (decodeN false w).map .n
  else if i = 2 then (decodeA true w).map .a
  else if i = 3 then (decodeA false w).map .a
  else if i = 4 then (decodeM w).map .m
  else if i = 5 then (decodeD true w).map .d
  else (decodeD false w).map .d

/-- Is the operation unassigned on an engine with these features (R379, R380, R382)? -/
def SOp.refused (dx48 four wide half : Bool) : SOp → Bool
  | .n o => o.fourState && (dx48 || !four)
  | .m (.quince 0x4C _ _ _ _) => dx48 || !wide
  | .m o => o.half && !half
  | .d (.qput ..) | .d (.qget ..) => dx48 || !wide
  | _ => false

end Sys2Proof.Machine
end

