-- ==== Sys2Proof/Machine/Fetch.lean ====
section
/-! DEFINITION. Fetching bundles and constants: timing (R53, R56, R69–R76), the BTB (R202, R203) and bytes of IM. -/

namespace Sys2Proof.Machine

/-- The IM bank of an offset (R71). -/
def imBank (off : Nat) : Nat := (off / 32) % 3

/-- Lay the `len` bytes `old` that stood at `off'` over the value `v` of the `n` bytes at `off`. -/
def overlay (v off n off' len old : Nat) : Nat :=
  let lo := max off off'
  let hi := min (off + n) (off' + len)
  if lo < hi then natSetBits v (8 * (lo - off)) (8 * (hi - lo)) (natBits old (8 * (lo - off')) (8 * (hi - lo))) else v

/-- The bytes of `v`, the `n` bytes at `off`, that lie in the `len` bytes at `off'`, laid over `w`. -/
def carry (w v off n off' len : Nat) : Nat :=
  let lo := max off off'
  let hi := min (off + n) (off' + len)
  if lo < hi then natSetBits w (8 * (lo - off)) (8 * (hi - lo)) (natBits v (8 * (lo - off)) (8 * (hi - lo))) else w

/-- The `n` bytes at `off` as they would stand without the stores of the list that are not seen, newest first: (offset, length,
bytes replaced, seen). `v` is what stands there now; what a seen store wrote stays. -/
def undoStores (off n : Nat) : List (Nat × Nat × Nat × Bool) → Nat → Nat
  | [], v => v
  | (o, len, old, seen) :: older, v =>
    let w := undoStores off n older (overlay v off n o len old)
    if seen then carry w v off n o len else w

/-- `n` bytes of an engine's IM as the fetch of bundle number `q` sees them (R73, R199): stores not yet seen are undone. -/
def Fab.imRead (f : Fab) (en off n q : Nat) : MemRd :=
  let e := f.engine en
  let r := if off + n ≤ 0x20000 then f.read 1 (engBase en + off) n
    else
      let r1 := f.read 1 (engBase en + off) (0x20000 - off)
      let r2 := r1.fab.read 1 (engBase en) (n - (0x20000 - off))
      ⟨r1.data + 2 ^ (8 * (0x20000 - off)) * r2.data, if r1.bad.isSome then r1.bad else r2.bad, r2.fab⟩
  ⟨undoStores off n (e.imPend.reverse.map (fun s => (s.off, s.len, s.old, s.seq ≤ q))) r.data, r.bad, r.fab⟩

/-- The first ECLK from `t` at which the bank is free for a fetch, with the ECLK lost to constant fetches and to IM
stores (R71, R74, R245). The uses are (ECLK, bank, kind): kind 0 constant fetch, 1 load, 2 store. -/
def freeAt (busy : List (Nat × Nat × Nat)) (bank : Nat) : Nat → Nat → Nat × Nat × Nat
  | 0, t => (t, 0, 0)
  | fuel + 1, t =>
    match busy.find? (fun x => x.1 == t && x.2.1 == bank) with
    | none => (t, 0, 0)
    | some x =>
      let r := freeAt busy bank fuel (t + 1)
      (r.1, r.2.1 + (if x.2.2 = 0 then 1 else 0), r.2.2 + (if x.2.2 = 2 then 1 else 0))

/-- A fetched bundle: when its fetch began, the first ECLK in which it is in D, its words, how it was served, the first
poisoned code word, whether a bank was not ON, whether its header could be read, and ECLK lost to straddling, constant fetches
and IM stores. -/
structure Fetched where
  f0    : Nat
  d     : Nat
  words : Nat
  cached : Bool
  bad   : Option Nat
  off   : Bool
  hdrOk : Bool
  strad : Nat
  lostC : Nat
  lostS : Nat
  fab   : Fab

/-- Fetch the engine's next bundle (R52, R53, R71, R72, R197). The first bundle after a release, a boundary, an entry or a
return issues without a fetch bubble (R114, R217, R226, R588). -/
def Fab.fetchBundle (f : Fab) (en : Nat) : Fetched :=
  let e := f.engine en
  let pc := e.pc
  match e.cacheHit pc e.fetchAt with
  | some w => ⟨e.fetchAt, max (e.fetchAt + 1) e.lastT, w, true, none, false, true, 0, 0, 0, f⟩
  | none =>
    let h := f.imRead en pc 4 (e.seq + 1)
    let len := bundleLen h.data
    let r := f.imRead en pc len (e.seq + 1)
    let strad := pc / 32 ≠ (pc + len - 1) / 32
    let off := !f.addrOn (engBase en + pc) || !f.addrOn (engBase en + (pc + len - 1) % 0x20000)
    let hdrOk := h.bad.isNone && f.addrOn (engBase en + pc)
    if e.first then ⟨e.issueAt - 2, e.issueAt - 1, r.data, false, r.bad, off, hdrOk, 0, 0, 0, r.fab⟩
    else
      let fuel := e.imBusy.length + 1
      let g1 := freeAt e.imBusy (imBank pc) fuel e.fetchAt
      let g2 := if strad then freeAt e.imBusy (imBank ((pc + len - 1) % 0x20000)) fuel (g1.1 + 1) else (g1.1, 0, 0)
      ⟨e.fetchAt, max (g2.1 + 1) e.lastT, r.data, false, r.bad, off, hdrOk, b2n strad, g1.2.1 + g2.2.1, g1.2.2 + g2.2.2, r.fab⟩

/-- The constant of a bundle in D from ECLK `d` (R69, R74): the value, the ECLK of its fetch, the first poisoned code
word, whether its bank is not ON. -/
def Fab.fetchConst (f : Fab) (en ksel d : Nat) (first : Bool) : Word × Nat × Option Nat × Bool × Fab :=
  let e := f.engine en
  let off := (e.get Ecs.KBASE_BASE * 8 + 8 * ksel) % 0x20000
  let r := f.imRead en off 8 (e.seq + 1)
  let dc := if first then d else (freeAt (e.imBusy.filter (fun x => x.2.2 ≠ 0)) (imBank off) (e.imBusy.length + 1) d).1
  (w64 r.data, dc, r.bad, !f.addrOn (engBase en + off), r.fab)

/-! ### The BTB -/

/-- Does a store into IM written by ECLK `at_` ≤ `f` after `since` touch the line of the tag (R203)? -/
def Engine.btbHurt (e : Engine) (tag since f : Nat) : Bool :=
  e.imPend.any (fun s => s.at_ ≤ f && since < s.at_ && s.off / 32 ≤ tag / 32 && tag / 32 ≤ (s.off + s.len - 1) / 32)

/-- The target that the BTB supplies to a fetch of `pc` beginning at `f` (R202). A fetch sees the allocations of earlier
ECLK: key k + 16 holds what entry k held before its last allocation. -/
def Engine.btbLook (e : Engine) (pc f : Nat) : Option Nat :=
  (e.btb.find? (fun x => x.2.1 == pc && x.2.2.2 < f && !e.btbHurt pc x.2.2.2 f &&
    (x.1 < 16 || f ≤ (Store.get (0, 0, 0) e.btb (x.1 - 16)).2.2))).map (fun x => x.2.2.1)

/-- Allocate or update an entry at ECLK `t` (R202). An entry of the same tag that an IM store has invalidated is none (R203). -/
def Engine.btbAlloc (e : Engine) (pc target t : Nat) : Engine :=
  let put (k : Nat) : Store (Nat × Nat × Nat) :=
    let old := match e.btb.find? (fun x => x.1 == k) with
      | some x => e.btb.put (k + 16) x.2
      | none => e.btb.del (k + 16)
    old.put k (pc, target, t)
  match e.btb.find? (fun x => x.1 < 16 && x.2.1 == pc && !e.btbHurt pc x.2.2.2 t) with
  | some x => if x.2.2.1 = target then e else { e with btb := put x.1 }
  | none => { e with btb := put e.btbPtr, btbPtr := (e.btbPtr + 1) % 16 }

/-- Forget the IM stores that every later fetch sees, dropping what they invalidated (R73, R75, R203). -/
def Engine.imPrune (e : Engine) : Engine :=
  let gone := e.imPend.filter (fun s => s.seq ≤ e.seq + 1)
  if gone = [] then e
  else
    let hurt (c : RepCache) : RepCache :=
      { c with ents := c.ents.filter (fun x =>
          !gone.any (fun s => s.off < x.1 + bundleLen x.2.toNat && x.1 < s.off + s.len)) }
    { e with
      imPend := e.imPend.filter (fun s => e.seq + 1 < s.seq)
      rc := e.rc.map hurt
      rcOld := e.rcOld.map (fun x => (hurt x.1, x.2))
      btb := e.btb.filter (fun x => !gone.any (fun s =>
        x.2.2.2 < s.at_ && s.off / 32 ≤ x.2.1 / 32 && x.2.1 / 32 ≤ (s.off + s.len - 1) / 32)) }

/-! ### Starting an engine -/

/-- The engine's next bundle, at IM offset `pc`, issues at ECLK `t` without a fetch bubble. IM uses still to come delay the fetches
behind it (R74). -/
def Engine.startAt (e : Engine) (pc t : Nat) : Engine :=
  { e with
    pc := pc
    issueAt := t
    fetchAt := t - 2
    lastT := t - 1
    imBusy := e.imBusy.filter (fun x => t - 2 ≤ x.1)
    first := true }

/-- All loops become IDLE, counts unchanged (R195). -/
def Engine.idleLoops (e : Engine) : Engine :=
  { e with loops := { e.loops with st := [] }, loopBase := { e.loops with st := [] }, loopEvs := [] }

end Sys2Proof.Machine
end

