-- ==== Sys2Proof/Machine/Slots.lean ====
section
/-! DEFINITION. What the operations of slots N0, N1, A0, A1 and M do at X1 of their bundle. Every slot reads the engine as
it stood before the bundle (R55) and hands its results to the list of results in flight (R54). -/

namespace Sys2Proof.Machine

/-- What one bundle has done so far. Traps are (slot, code, address, FP record). `fpx` is the issue cost of FP serialisation, `hold`
the ECLK for which a Quince floating-point operation holds the next bundle (R170). `d0` are the bank halves that D0 uses. -/
structure Run where
  fab   : Fab
  traps : List (Nat × Nat × Nat × Option (Nat × Nat × Nat × Nat))
  fails : List Nat
  unal  : Bool
  conf  : Bool
  fpx   : Nat
  sync  : Bool
  hold  : Nat
  d0    : List Nat
  qn    : Nat
  fn    : Nat

/-- The bundle that a slot belongs to: engine, its state before the bundle, issue ECLK, bundle number, IM offset, timed
lock-step. -/
structure Ctx where
  en   : Nat
  e0   : Engine
  t    : Nat
  q    : Nat
  pc   : Nat
  lock : Bool

/-- A result of latency `n` (R54). -/
def Run.put (r : Run) (c : Ctx) (slot n : Nat) (d : Dst) (v : NetWord) : Run :=
  { r with fab := r.fab.updEng c.en (fun e => e.addPend ⟨c.t + n - 1, c.t, slot, d, v⟩) }

/-- A result in the A-file. -/
def Run.putA (r : Run) (c : Ctx) (slot n i : Nat) (v : Word) : Run := r.put c slot n (.a i) (v.setWidth 256)

/-- A predicate result. -/
def Run.putP (r : Run) (c : Ctx) (slot n i : Nat) (v : Bool) : Run := r.put c slot n (.p i) (if v then 1 else 0)

/-- Sticky flags, set in the ECLK in which the result is written (R123, R168). -/
def Run.flags (r : Run) (c : Ctx) (slot n idx mask : Nat) : Run :=
  if mask = 0 then r else r.put c slot n (.sticky idx mask) 0

/-- An execute-class trap of a slot (R213, R214). -/
def Run.trap (r : Run) (slot code addr : Nat) : Run := { r with traps := r.traps ++ [(slot, code, addr, none)] }

/-- A failure of the interval, acted on once the bundle is complete. -/
def Run.fail (r : Run) (cause : Nat) : Run := { r with fails := r.fails ++ [cause] }

/-! ### Slots N0 and N1 -/

/-- Read a gather pattern (R103, R106): 320 bytes at PM offset 320·p. -/
def Run.pattern (r : Run) (c : Ctx) (p : Nat) : MemRd := r.fab.read 1 (engBase c.en + 0x20000 + 320 * p) 320

/-- What a gather does with the pattern it read (R104–R107). -/
def Run.gatherPut (r : Run) (c : Ctx) (slot : Nat) (four : Bool) (d q p : Nat) (m : MemRd) : Run :=
  let reg (k : Nat) : NetWord := c.e0.rN (4 * q + k)
  if m.bad.isSome then
    { r with fab := r.fab.updEng c.en (fun e =>
        { e with derr := e.derr ++ [⟨c.t + 3, m.bad.getD 0 - engBase c.en, c.pc, slot⟩] }) }
  else if (r.fab.engine c.en).pmHost.any (fun x => x.1 < 320 * p + 320 && 320 * p < x.1 + x.2) then
    let v := r.fab.free 512
    let r := { r with fab := v.2 }
    let r := r.put c slot 3 (.n d) (BitVec.ofNat 256 v.1)
    if four then r.put c slot 3 (.n (d + 1)) (BitVec.ofNat 256 (v.1 / 2 ^ 256)) else r
  else if four then
    (r.put c slot 3 (.n d) (Machine.gatherPlane reg m.data 0)).put c slot 3 (.n (d + 1))
      (Machine.gatherPlane reg m.data 1)
  else r.put c slot 3 (.n d) (Machine.gather reg m.data)

/-- GATHER and its variants (R102–R106). A pattern that another master wrote since the release gathers an undefined word
(R107). -/
def Run.gather (r : Run) (c : Ctx) (slot : Nat) (four : Bool) (d q p : Nat) : Run :=
  if 203 < p then r.trap slot 3 0
  else if !r.fab.addrOn (engBase c.en + 0x20000) then r.trap slot 5 (0x20000 + 320 * p)
  else { r with fab := (r.pattern c p).fab }.gatherPut c slot four d q p (r.pattern c p)

/-- Execute an N-slot operation (spec/03). -/
def Run.execN (r : Run) (c : Ctx) (slot : Nat) (o : NOp) : Run :=
  let N := c.e0.rN
  let A := c.e0.rA
  let four (i : Nat) : Four := ⟨N i, N (i + 1)⟩
  let one (n d : Nat) (v : NetWord) : Run := r.put c slot n (.n d) v
  let two (n d : Nat) (v : Four) : Run := (r.put c slot n (.n d) v.v).put c slot n (.n (d + 1)) v.u
  match o with
  | .tlog tt d a b => one 1 d (Machine.tlog tt (N a) (N b) (N d))
  | .tlx tt d a b => two 2 d (Machine.tlx tt (four a) (four b) (four d))
  | .mov d s => one 1 d (N s)
  | .movp d s => two 1 d (four s)
  | .ldk d => one 1 d (nk c.e0.k)
  | .shiftI k d s n => one 1 d (nshift k (N s) n)
  | .shiftR k d s a => one 1 d (nshift k (N s) ((A a).toNat % 256))
  | .bcI d s n => one 1 d (nbroadcast (N s) n)
  | .bcR d s a => one 1 d (nbroadcast (N s) ((A a).toNat % 256))
  | .test k p a b => r.putP c slot 1 p (ntest k (N a) (N b))
  | .extract sg d s a => r.putA c slot 2 d (Machine.extract sg (N s) (A a))
  | .extb d s n => r.putA c slot 2 d (Machine.extb (N s) n)
  | .deposit d s a => one 2 d (Machine.deposit (N d) (A s) (A a))
  | .depb d s n => one 2 d (Machine.depb (N d) (A s) n)
  | .concat d s a => one 2 d (Machine.concat (N d) (A s) (A a))
  | .edge k d a b => one 1 d (Machine.edge k (N a) (N b))
  | .edgep k d a b => two 1 d (Machine.edgep k (four a) (four b))
  | .sample d a b => one 1 d (Machine.sample (N a) (N b) (N d))
  | .samplep d a b => two 1 d (Machine.samplep (four a) (four b) (four d))
  | .gather f d q pat a => r.gather c slot f d q (pat.getD ((A a).toNat % 256))

/-! ### Slots A0 and A1 -/

/-- The value of source 2. -/
def ASrc.val (s : ASrc) (e : Engine) : Word :=
  match s with
  | .reg i => e.rA i
  | .imm v => v
  | .k => e.k

/-- MVTE (R79, R193): loop registers take the write at once; the others from bundle q + 2, MODE and KBASE from q + 3. -/
def Run.mvte (r : Run) (c : Ctx) (idx : Nat) (v : Word) : Run :=
  if 76 ≤ idx && idx ≤ 88 then { r with fab := r.fab.ecsWrite c.en idx c.t (c.q + 2) v }
  else
    let s := c.q + (if idx = 0 || idx = 2 then 3 else 2)
    { r with fab := r.fab.updEng c.en (fun e => { e with ecsPend := e.ecsPend ++ [⟨idx, v, s⟩] }) }

/-- Execute an A-slot operation (R124–R131, R78, R79, R434). -/
def Run.execA (r : Run) (c : Ctx) (slot : Nat) (o : AOp) : Run :=
  let A := c.e0.rA
  let pcar := if slot = 2 then 14 else 15
  match o with
  | .alu f s d s1 src =>
    let v := alu f s (A s1) (src.val c.e0)
    (r.putA c slot o.lat d v.1).flags c slot o.lat Ecs.IFLAGS (b2n v.2)
  | .ldi d v => r.putA c slot 1 d v
  | .ldk d => r.putA c slot 1 d c.e0.k
  | .chain sub start d s1 s2 =>
    let v := Machine.chain sub (A s1) (A s2) (!start && c.e0.rP pcar)
    (r.putA c slot 1 d v.1).putP c slot 1 pcar v.2
  | .insk d s1 => r.putA c slot 1 d (Machine.insk (A d) (A s1) c.e0.k)
  | .cmpP k p s1 src => r.putP c slot 1 p (cmp k (A s1) (src.val c.e0))
  | .cmpA k d s1 s2 => r.putA c slot 1 d (if cmp k (A s1) (A s2) then 1 else 0)
  | .plogic f p a b => r.putP c slot 1 p (Machine.plogic f (c.e0.rP a) (c.e0.rP b))
  | .mvfe d idx =>
    if idx = 160 then
      let v := r.fab.claim c.en
      ({ r with fab := v.2 } : Run).putA c slot 2 d (w64 v.1)
    else r.putA c slot 2 d (r.fab.ecsValue c.en idx c.t (c.e0.loopRead c.q))
  | .mvte idx src => r.mvte c idx (A src)

/-! ### Slot M -/

/-- The accumulate input of a MAC-class operation: the newest value of the accumulator, written or still in flight from
an earlier bundle (R134). -/
def Engine.accIn (e : Engine) (i t : Nat) : AccWord :=
  (e.pend.filter (fun x => x.dst == .acc i && x.iss < t)).foldl (fun _ x => x.val.setWidth 80) (e.rAcc i)

/-- The trap-enable bits of ECS.FPCTL as exception bits, with SUBIN and SUBOUT always enabled (R169). -/
def fpMask (fpctl : Nat) : Nat := natBits fpctl 4 5 + exSUBIN + exSUBOUT

/-- Is an FP trap enabled (R169)? -/
def fpTrapOn (fpctl : Nat) : Bool := natBits fpctl 3 6 ≠ 0

/-- The flags that a non-trapping operation sets in ECS.FPFLAGS (R168). -/
def fpFlags (ex : Nat) : Nat := ex % 64

/-- ECS.FPTRAP of a trapping operation (R179). EXC is zero with SUBIN or SUBOUT. -/
def fpRecord (opc dest : Nat) (lanes : List Nat) (mask : Nat) : Nat :=
  let any (b : Nat) : Nat := b2n (lanes.any (fun x => x &&& b ≠ 0))
  let exc := if any (exSUBIN + exSUBOUT) = 1 then 0 else lanes.foldl (fun m x => m ||| x % 32) 0
  let lane := if lanes.length = 1 then 1
    else b2n ((lanes.getD 0 0) &&& mask ≠ 0) + 2 * b2n ((lanes.getD 1 0) &&& mask ≠ 0)
  exc + any exSUBIN * 32 + any exSUBOUT * 64 + lane * 2 ^ 8 + opc * 2 ^ 16 + dest * 2 ^ 24

/-- Deliver a pipelined floating-point result: a trap (R169, R171) or the result with its flags (R168). `lanes` are the
exceptions of each lane; `cc` the addend register's value for the FMA family. -/
def Run.fpOut (r : Run) (c : Ctx) (lat opc dest : Nat) (d : Dst) (v : NetWord) (lanes : List Nat) (a b cc : Word) :
    Run :=
  let fpctl := (c.e0.ecsReg Ecs.FPCTL).toNat
  let mask := fpMask fpctl
  let ex := lanes.foldl (· ||| ·) 0
  let r := if fpTrapOn fpctl then { r with fpx := lat - 1 } else r
  if ex &&& mask ≠ 0 then
    { r with traps := r.traps ++
        [(4, 6, 0, some (fpRecord opc dest lanes mask, a.toNat, b.toNat, cc.toNat))] }
  else (r.put c 4 lat d v).flags c 4 lat Ecs.FPFLAGS (fpFlags ex)

/-- The results of a Quince operation: values for its destinations from the first on, the IFLAGS and FPFLAGS bits. -/
structure QRes where
  vals  : List NetWord
  ifl   : Nat
  fex   : Nat
  deriving DecidableEq, Repr

/-- What a Quince operation computes from its captured operands (R139–R142, R157). -/
def QOp.result (q : QOp) : QRes :=
  let w (x : Word) : NetWord := x.setWidth 256
  let rm := Rm.ofBits (natBits q.fpctl 0 3)
  let ts := q.fpctl.testBit 3
  let fp (x : FRes) : QRes := ⟨[BitVec.ofNat 256 x.val], 0, x.ex⟩
  let dv (sg : Bool) : Word × Word × Nat := divRem sg q.s q.s1 q.s2
  if q.opc = 0x40 then
    let v := BitVec.ofInt 128 (q.s1.toInt * q.s2.toInt)
    ⟨[(v.setWidth 64).setWidth 256, ((v >>> 64).setWidth 64).setWidth 256], 0, 0⟩
  else if q.opc = 0x41 then
    let v := q.s1.toNat * q.s2.toNat
    ⟨[w (w64 v), w (w64 (v / 2 ^ 64))], 0, 0⟩
  else if q.opc = 0x44 then ⟨[w (dv true).1], (dv true).2.2, 0⟩
  else if q.opc = 0x45 then ⟨[w (dv false).1], (dv false).2.2, 0⟩
  else if q.opc = 0x46 then ⟨[w (dv true).2.1], (dv true).2.2 &&& 8, 0⟩
  else if q.opc = 0x47 then ⟨[w (dv false).2.1], (dv false).2.2 &&& 8, 0⟩
  else if q.opc = 0x48 then ⟨[w (dv true).1, w (dv true).2.1], (dv true).2.2, 0⟩
  else if q.opc = 0x49 then ⟨[w (dv false).1, w (dv false).2.1], (dv false).2.2, 0⟩
  else if q.opc = 0x4C then
    let v := mulw q.s1 q.ql
    ⟨(List.range 8).map (fun i => (v >>> (256 * i)).setWidth 256), 0, 0⟩
  else if q.opc = 0xF0 then fp (fdiv fmtD rm ts q.s1.toNat q.s2.toNat)
  else if q.opc = 0xF1 then fp (fdiv fmtS rm ts (natBits q.s1.toNat 0 32) (natBits q.s2.toNat 0 32))
  else if q.opc = 0xF2 then fp (fsqrt fmtD rm ts q.s1.toNat)
  else fp (fsqrt fmtS rm ts (natBits q.s1.toNat 0 32))

/-- The count of a Quince operation (R138, R139, R149). -/
def QOp.count (q : QOp) (ct : Bool) : Nat :=
  if q.opc = 0x40 then mulCount ct false q.s2
  else if q.opc = 0x41 then mulCount ct true q.s2
  else if q.opc < 0x4C then 18
  else if q.opc = 0x4C then mulwCount q.s1
  else if q.opc = 0xF0 then 22
  else if q.opc = 0xF1 then 12
  else if q.opc = 0xF2 then 26
  else 14

/-- Put the results of the Quince operation `q` in flight (R137). -/
def Engine.quinceStart (e : Engine) (q : QOp) : Engine :=
  let res := q.result
  let ds := q.dests
  let e := { e with quince := some q }
  let mk (i : Nat) : Dst := if ds.1 = 1 then .n i else .a i
  let e := (List.range ds.2.2).foldl (fun g i =>
    if q.trap.isSome then g else g.addPend ⟨q.due, q.iss, 9, mk (ds.2.1 + i), res.vals.getD i 0⟩) e
  let e := if res.ifl = 0 then e else e.addPend ⟨q.due, q.iss, 9, .sticky Ecs.IFLAGS res.ifl, 0⟩
  if fpFlags res.fex = 0 || q.trap.isSome then e
  else e.addPend ⟨q.due, q.iss, 9, .sticky Ecs.FPFLAGS (fpFlags res.fex), 0⟩

/-- The operand latch as one value, QL0 lowest (R141). -/
def Engine.qlAll (e : Engine) : BitVec 2048 :=
  BitVec.ofNat 2048 ((List.range 8).foldl (fun m i => m + (Store.get 0 e.ql i).toNat * 2 ^ (256 * i)) 0)

/-- Issue a Quince operation (R136, R67, R169, R170, R172). In timed lock-step a second one is not taken; elsewhere a floating-point
one holds the next bundle while an FP trap is enabled. -/
def Run.quince (r : Run) (c : Ctx) (opc : Nat) (s : Bool) (d s1 s2 : Nat) : Run :=
  let fpctl := (c.e0.ecsReg Ecs.FPCTL).toNat
  let a := c.e0.rA s1
  let b := c.e0.rA s2
  let q0 : QOp := ⟨opc, s, a, b, c.e0.qlAll, d, c.t, 0, fpctl, c.pc, none, 0xF0 ≤ opc && fpTrapOn fpctl && !c.lock⟩
  let n := q0.count (r.fab.ctMode c.en)
  let res := q0.result
  let fp := 0xF0 ≤ opc
  let r := if q0.hold then { r with hold := n } else r
  let r := { r with qn := r.qn + 1 }
  let trap := fp && res.fex &&& fpMask fpctl ≠ 0
  let rec_ := (fpRecord opc d [res.fex] (fpMask fpctl), a.toNat, b.toNat, 0)
  if c.lock && c.e0.quince.any (fun q => c.t ≤ q.due) then r.fail 3
  else if trap && !c.lock then { r with traps := r.traps ++ [(4, 6, 0, some rec_)] }
  else
    let q := { q0 with due := c.t + n - 1, trap := if trap then some rec_ else none }
    { r with fab := r.fab.updEng c.en (fun e => e.quinceStart q) }

/-- Two binary32 lanes of a packed operation. A subnormal operand of either lane in TRAP mode raises SUBIN and nothing else
(R165). -/
def packed (op : FArith) (rm : Rm) (ts : Bool) (x y z : Word) : Nat × List Nat :=
  let l (i : Nat) : FRes :=
    farith fmtS op rm ts (natBits x.toNat (32 * i) 32) (natBits y.toNat (32 * i) 32) (natBits z.toNat (32 * i) 32)
  let sub := ((l 0).ex ||| (l 1).ex) &&& exSUBIN ≠ 0
  let ex (i : Nat) : Nat := if sub then (l i).ex &&& exSUBIN else (l i).ex
  ((l 0).val + (l 1).val * 2 ^ 32, [ex 0, ex 1])

/-- Is the operation of the FMA family, whose addend is Ad (R156)? -/
def FArith.three : FArith → Bool
  | .fma | .fms | .fnma => true
  | _ => false

/-- Execute a slot-M operation (R132–R142, R153–R175). `opc` is the opcode, for ECS.FPTRAP. -/
def Run.execM (r : Run) (c : Ctx) (opc : Nat) (o : MOp) : Run :=
  let A := c.e0.rA
  let fpctl := (c.e0.ecsReg Ecs.FPCTL).toNat
  let rm := Rm.ofBits (natBits fpctl 0 3)
  let ts := fpctl.testBit 3
  let bitsOf (f : Fmt) (x : Word) : Nat := natBits x.toNat 0 f.bits
  let n := o.lat
  let outA (d : Nat) (v : Nat) (l : List Nat) (a b cc : Word) : Run :=
    r.fpOut c n opc d (.a d) (BitVec.ofNat 256 (v % 2 ^ 64)) l a b cc
  match o with
  | .mul32 u d s1 s2 =>
    r.putA c 4 3 d (if u then w64 (natBits (A s1).toNat 0 32 * natBits (A s2).toNat 0 32)
      else BitVec.ofInt 64 (sField (A s1) 0 32 * sField (A s2) 0 32))
  | .mac f s d s1 s2 =>
    let v := macResult f s (c.e0.accIn d c.t) (c.e0.rAcc (s1 % 8)) (A s1) (A s2)
    (r.put c 4 3 (.acc d) (v.1.setWidth 256)).flags c 4 3 Ecs.IFLAGS v.2
  | .extr s d a sh w =>
    let k := match sh with
      | .reg _ => min ((sh.val c.e0).toNat % 256) 79
      | _ => (sh.val c.e0).toNat
    let v := Machine.extr s (c.e0.rAcc a) k w
    (r.putA c 4 2 d v.1).flags c 4 2 Ecs.IFLAGS (2 * b2n v.2)
  | .acchi d a => r.putA c 4 2 d (extendField true 16 (natBits (c.e0.rAcc a).toNat 64 16))
  | .accnorm d a => r.putA c 4 2 d (w64 (normBits 80 (c.e0.rAcc a).toNat))
  | .quince q s d s1 s2 => r.quince c q s d s1 s2
  | .farith f pk op d s1 s2 =>
    let z := A d
    let cc := if op.three then z else 0
    if pk then
      let v := packed op rm ts (A s1) (A s2) z
      outA d v.1 v.2 (A s1) (A s2) cc
    else
      let v := Machine.farith f op rm ts (bitsOf f (A s1)) (bitsOf f (A s2)) (bitsOf f z)
      outA d v.val [v.ex] (A s1) (A s2) cc
  | .fcmp f op p s1 s2 =>
    let v := Machine.fcmp f op ts (bitsOf f (A s1)) (bitsOf f (A s2))
    r.fpOut c n opc p (.p p) (BitVec.ofNat 256 v.val) [v.ex] (A s1) (A s2) 0
  | .fminmax f mx d s1 s2 =>
    let v := Machine.fminmax f mx ts (bitsOf f (A s1)) (bitsOf f (A s2))
    outA d v.val [v.ex] (A s1) (A s2) 0
  | .fsign f ab d s1 => outA d (Machine.fsign f ab (bitsOf f (A s1))) [0] (A s1) 0 0
  | .fclass f d s1 => outA d (Machine.fclass f (bitsOf f (A s1))) [0] (A s1) 0 0
  | .fconv sf df d s1 =>
    let v := Machine.fconv sf df rm ts (bitsOf sf (A s1))
    outA d v.val [v.ex] (A s1) (A 0) 0
  | .itof f u d s1 fr =>
    let v := intToF f rm ts (if u then ((A s1).toNat : Int) else (A s1).toInt) (-(fr : Int))
    outA d v.val [v.ex] (A s1) (A 0) 0
  | .ftoi f u rtz d s1 fr =>
    let lo : Int := if u then 0 else sMin 64
    let hi : Int := if u then 2 ^ 64 - 1 else sMax 64
    let v := fToInt f (if rtz then .rtz else rm) ts lo hi fr (bitsOf f (A s1))
    outA d v.1.toNat [v.2] (A s1) (A 0) 0

end Sys2Proof.Machine
end

