-- ==== Sys2Proof/Machine/DSlot.lean ====
section
/-! DEFINITION. Slots D0 and D1 (spec/06, 08, 10): addresses, regions, loads, stores, reservations, PUT and far access. -/

namespace Sys2Proof.Machine

/-! ### Addresses (R181, R187) -/

/-- The wrapped sum of R187 for address register `n`, and whether it sets OOB. An unbound register adds modulo 2³². -/
def Engine.wrapSum (e : Engine) (n : Nat) (off : Int) : Nat × Bool :=
  let x : Int := e.rX n
  let v0 := x + off
  if !e.bit (Ecs.CIRCBIND_EN n) then ((v0 % 2 ^ 32).toNat, false)
  else
    let m := e.get (Ecs.CIRCBIND_SEL n)
    let b : Int := e.get (Ecs.CIRC_BASE m)
    let len : Int := e.get (Ecs.CIRC_LENGTH m)
    let inside := b ≤ x && x < b + len
    let v := if inside then (if b + len ≤ v0 then v0 - len else if v0 < b then v0 + len else v0) else v0
    ((v % 2 ^ 32).toNat, !inside || !(b ≤ v && v < b + len))

/-- The offset of an address operand in bytes. -/
def XOff.val (o : XOff) (e : Engine) : Int :=
  match o with
  | .imm v => v
  | .inc i => e.rI i

/-- Effective address, new value of the address register if it is updated, and OOB (R181). -/
def Engine.formEA (e : Engine) (am : Addr) : Nat × Option Nat × Bool :=
  let s := e.wrapSum am.x (am.off.val e)
  if am.mode = 1 then (e.rX am.x, some s.1, s.2)
  else (s.1, if am.mode = 2 then some s.1 else none, s.2)

/-- The address operand's effects: the update of Xn with latency 1 (R182) and CIRC_OOB (R187). -/
def Run.xEffects (r : Run) (c : Ctx) (slot x : Nat) (new : Option Nat) (oob : Bool) : Run :=
  let r := match new with
    | some v => r.put c slot 1 (.x x) (BitVec.ofNat 256 v)
    | none => r
  if oob then r.flags c slot 1 Ecs.CIRC_OOB (2 ^ x) else r

/-! ### Regions (R238) -/

/-- The regions of the engine-local map, with the offset in them. -/
inductive Region where
  | im (o : Nat) | pm (o : Nat) | dm (o : Nat) | arc (o : Nat) | bm (o : Nat)
  | arcOf (e o : Nat) | bmOf (b o : Nat) | ddr (w o : Nat)
  | none
  deriving DecidableEq, Repr

/-- The region of an engine-local address (R238). -/
def region (a : Nat) : Region :=
  if a < 0x20000 then .im a
  else if a < 0x30000 then .pm (a - 0x20000)
  else if 0x40000 ≤ a && a < 0x7C000 then .dm (a - 0x40000)
  else if 0x7C000 ≤ a && a < 0x80000 then .arc (a - 0x7C000)
  else if 0x100000 ≤ a && a < 0x240000 then .bm (a - 0x100000)
  else if 0x1000000 ≤ a && a < 0x1300000 then .arcOf ((a - 0x1000000) / 0x4000) ((a - 0x1000000) % 0x4000)
  else if 0x2000000 ≤ a && a < 0x5000000 then .bmOf ((a - 0x2000000) / 0x200000) ((a - 0x2000000) % 0x200000)
  else if 0x80000000 ≤ a && a < 0x100000000 then .ddr ((a - 0x80000000) / 0x10000000) ((a - 0x80000000) % 0x10000000)
  else .none

/-- A number for each region that loads and stores reach, 0 for none. -/
def Region.tag : Region → Nat
  | .im _ => 1
  | .pm _ => 2
  | .dm _ => 3
  | .arc _ => 4
  | .bm _ => 5
  | _ => 0

/-- Does a load or store reach an Arcade offset (R112)? `w` is DCFG.WORDS. -/
def arcOk (w o : Nat) : Bool :=
  o < 0x1400 || (0x1800 ≤ o && o < 0x2000 && o - 0x1800 < 32 * w) || (0x2000 ≤ o && o < 0x2800 && o - 0x2000 < 32 * w)

/-- The half of the stimulus window of design cycle n (R359). -/
def stimHalf (n : Nat) : Nat := 0x1000 + 0x400 * (n % 2)

/-- Where a load or store of the engine at an Arcade offset lands in the bank (R111, R336, R359). -/
def Fab.arcPhys (f : Fab) (en o : Nat) : Nat :=
  let p := (f.engPart en).getD 0
  let own := (f.engPart en).isSome
  if 0x1000 ≤ o && o < 0x1400 then (if own then stimHalf (f.curDc p) else 0x1000) + (o - 0x1000)
  else if 0x2000 ≤ o && o < 0x2800 then 0x2000 + 0x800 * (if own then (f.share p).live else 0) + (o - 0x2000)
  else o

/-- The device address behind an engine-local address of an own region. -/
def Fab.devOf (f : Fab) (en a : Nat) : Nat :=
  match region a with
  | .arc o => arcBase en + f.arcPhys en o
  | .bm o => bmBase (en / 8) + o
  | _ => engBase en + a

/-- The access cut at its row boundary (R186): at most two pieces of (address, length). -/
def pieces (a n : Nat) : List (Nat × Nat) :=
  let k := 32 - a % 32
  if n ≤ k then [(a, n)] else [(a, k), (a + k, n - k)]

/-- Does a load of engine `en` issuing at `t` see the store (R54, R58)? Over the Avenue it sees one of its own ECLK by an engine of
a lower local index (R246), but none of its own bundle (R55, R62). -/
def StVis.seen (s : StVis) (en t : Nat) : Bool :=
  s.vis ≤ t || (s.iss == t && 0x0100000000 ≤ s.addr && s.eng < en)

/-- Undo the stores that a load of engine `en` issuing at `t` does not see. -/
def Fab.unseen (f : Fab) (en t dev n v : Nat) : Nat :=
  undoStores dev n (f.stq.reverse.map (fun s => (s.addr, s.len, s.old, s.seen en t))) v

/-- Read `n` bytes at an engine-local address of an own region, as a load that issues at `t`. -/
def Fab.ldRead (f : Fab) (en a n t : Nat) : MemRd :=
  (pieces a n).foldr (fun (x : Nat × Nat) (rest : MemRd) =>
    let d := rest.fab.devOf en x.1
    let r := rest.fab.read 1 d x.2
    MemRd.mk (r.fab.unseen en t d x.2 r.data + 2 ^ (8 * x.2) * rest.data) (if r.bad.isSome then r.bad else rest.bad) r.fab)
    (MemRd.mk 0 none f)

/-- Write at an engine-local address of an own region; loads see it from `vis`. -/
def Fab.stWrite (f : Fab) (en a n v t vis : Nat) : MemWr :=
  (pieces a n).foldl (fun (m : MemWr) (x : Nat × Nat) =>
    let d := m.fab.devOf en x.1
    let sv : StVis := ⟨en, d, x.2, readN m.fab.mem d x.2, t, vis⟩
    let g : Fab := { m.fab with stq := m.fab.stq ++ [sv] }
    let w := g.engWrite en d x.2 (natBits v (8 * (x.1 - a)) (8 * x.2))
    MemWr.mk (m.dropped || w.dropped) w.fab) (MemWr.mk false f)

/-- Set the written bits of the NEXT area for the bytes stored (R113). -/
def Engine.markWritten (e : Engine) (o n : Nat) : Engine :=
  { e with written := (List.range n).foldl (fun (w : BitVec 2048) i =>
      if 0x1800 ≤ o + i && o + i < 0x2000 then w ||| BitVec.ofNat 2048 (2 ^ (o + i - 0x1800)) else w) e.written }

/-! ### Loads and stores -/

/-- Bank halves and IM banks that a D access uses (R242, R244): rows are engine-local row numbers. -/
def bankUse (a : Nat) (rot : Bool) : List Nat :=
  let rows := if rot then [a / 32, a / 32 + 1] else [a / 32]
  match region a with
  | .im _ => rows.map (fun k => 1000 + k % 3)
  | .dm _ | .arc _ => rows.map (fun k => (k * 32 - 0x40000) / 0x4000 * 2 + k % 2)
  | _ => []

/-- Does the access raise the address trap (R112, R183, R186, R238, R253)? -/
def Fab.badAccess (f : Fab) (en a n : Nat) (rot : Bool) : Bool :=
  let tag := (region a).tag
  let w := (f.engine en).get Ecs.DCFG_WORDS
  tag = 0 || (!rot && 32 < a % 32 + n) || (rot && (region (a / 32 * 32 + 32)).tag ≠ tag) ||
    (match region a with
      | .arc o => (List.range n).any (fun i => !arcOk w (o + i))
      | _ => false) ||
    !f.addrOn (f.devOf en a) || (rot && !f.addrOn (f.devOf en (a / 32 * 32 + 32)))





/-- Resolve the conflict of D0 and D1 (R244): the bundle so far, the extra latency of this access, and whether it is
dropped. -/
def Run.conflict (r : Run) (c : Ctx) (slot : Nat) (use : List Nat) : Run × Nat × Bool :=
  if slot = 5 then ({ r with d0 := use }, 0, false)
  else if use.any r.d0.contains then
    let r := { r with fab := r.fab.confAt (c.en / 8) 1 (c.t + 1) }
    if c.lock then (r.fail 3, 0, true) else ({ r with conf := true }, 1, false)
  else (r, 0, false)

/-- Is the device address design state of a running share: a state page, or journaled memory (R26)? -/
def Fab.inDesign (f : Fab) (dev : Nat) : Bool :=
  (dev < 0x0C000000 && 0x7E000 ≤ dev % 0x100000 && dev % 0x100000 < 0x80000) || f.journaled dev

/-- A load that read poison in the word at device address `dev` (R215): the trap falls due `n` ECLK after issue. Poison in design
state fails the interval (R26). -/
def Run.dataErr (r : Run) (c : Ctx) (slot n a dev : Nat) : Run :=
  let r := if r.fab.inDesign dev then r.fail 2 else r
  { r with fab := r.fab.updEng c.en (fun e => { e with derr := e.derr ++ [⟨c.t + n, a, c.pc, slot⟩] }) }

/-- Note an access of the Arcade bank through port A, `late` ECLK after its normal time (R251, R244). -/
def Run.portA (r : Run) (c : Ctx) (a n late : Nat) (ld : Bool) (d : Dst) (ext : Nat) : Run :=
  match region a with
  | .arc o => { r with fab := r.fab.updEng c.en (fun e =>
      { e with portA := e.portA.filter (fun x => c.t ≤ x.iss + 4) ++
          [⟨c.t, c.t + 1 + late, r.fab.arcPhys c.en o, n, ld, d, ext⟩] }) }
  | _ => r

/-- A value from memory in an A register (R184). -/
def loadExt (n : Nat) (sg : Bool) (v : Nat) : Word := extendField sg (8 * n) v

/-- Hold the IM banks that a load uses in X2 (R245). -/
def Run.imUse (r : Run) (c : Ctx) (use : List Nat) (at_ kind : Nat) : Run :=
  { r with fab := r.fab.updEng c.en (fun e =>
      { e with imBusy := e.imBusy ++ (use.filter (1000 ≤ ·)).map (fun b => (at_, b - 1000, kind)) }) }

/-- A load (R183–R186, R244–R246). -/
def Run.load (r : Run) (c : Ctx) (slot n : Nat) (sg toN rot : Bool) (d : Nat) (am : Addr) : Run :=
  let ea := c.e0.formEA am
  let a := ea.1
  let r := { r with unal := r.unal || rot }
  if r.fab.badAccess c.en a n rot then r.trap slot 5 a
  else
    let r := r.xEffects c slot am.x ea.2.1 ea.2.2
    let use := bankUse a rot
    let k := r.conflict c slot use
    let r := k.1
    if k.2.2 then r
    else
      let lat := (if (region a).tag = 5 then 8 else 3) + b2n rot + k.2.1
      let m := r.fab.ldRead c.en a n c.t
      let r := { r with fab := m.fab }
      let dst : Dst := if toN then .n d else .a d
      let r := (r.portA c a n k.2.1 true dst (if toN then 0 else if sg then 2 else 1)).imUse c use (c.t + 1 + k.2.1) 1
      match m.bad with
      | some w => r.dataErr c slot lat a w
      | none => r.put c slot lat dst (if toN then BitVec.ofNat 256 m.data else (loadExt n sg m.data).setWidth 256)

/-- Note a store of the bundle at `t` into the NEXT area, written in ECLK `at_` (R113, R116). -/
def Engine.noteNext (e : Engine) (t at_ o n old : Nat) : Engine :=
  let g := e.markWritten o n
  if o + n ≤ 0x1800 || 0x2000 ≤ o then g
  else
    let x : NextSt := ⟨at_, o, n, old, g.written &&& ~~~e.written⟩
    { g with nextSt := g.nextSt.filter (fun y => t ≤ y.at_) ++ [x] }

/-- A store (R183–R186, R73, R74, R113, R116, R244). A NEXT byte that R279 does not store still gets its written bit (log 88). -/
def Run.store (r : Run) (c : Ctx) (slot n : Nat) (toN rot : Bool) (d : Nat) (am : Addr) : Run :=
  let ea := c.e0.formEA am
  let a := ea.1
  let r := { r with unal := r.unal || rot }
  if r.fab.badAccess c.en a n rot then r.trap slot 5 a
  else
    let r := r.xEffects c slot am.x ea.2.1 ea.2.2
    let use := bankUse a rot
    let k := r.conflict c slot use
    let r := k.1
    if k.2.2 then r
    else
      let v := if toN then (c.e0.rN d).toNat else (c.e0.rA d).toNat
      let vis := c.t + (if (region a).tag = 5 then 4 else 1) + b2n rot + k.2.1
      let r := match region a with
        | .im o =>
          let at_ := c.t + 2 + k.2.1
          let old := readN r.fab.mem (engBase c.en + o) n
          { r with fab := r.fab.updEng c.en (fun e => { e with
              imBusy := e.imBusy ++ use.map (fun b => (at_, b - 1000, 2))
              imPend := e.imPend ++ [ImSt.mk o n old (c.q + 4) at_] }) }
        | .arc o =>
          let old := readN r.fab.mem (arcBase c.en + o) n
          { r with fab := r.fab.updEng c.en (fun e => e.noteNext c.t (vis - 1) o n old) }
        | _ => r
      let r := r.portA c a n k.2.1 false (.p 0) 0
      { r with fab := (r.fab.stWrite c.en a n v c.t vis).fab }

/-! ### Load-reserve and store-conditional (R227) -/

/-- Is the address one that LDRD and STCD reach? -/
def Fab.badResv (f : Fab) (en a : Nat) : Bool := (region a).tag ≠ 5 || a % 8 ≠ 0 || !f.addrOn (f.devOf en a)

/-- LDRD. -/
def Run.ldrd (r : Run) (c : Ctx) (slot d : Nat) (am : Addr) : Run :=
  let ea := c.e0.formEA am
  let a := ea.1
  if r.fab.badResv c.en a then r.trap slot 5 a
  else
    let r := r.xEffects c slot am.x ea.2.1 ea.2.2
    let m := r.fab.ldRead c.en a 8 c.t
    let r := { r with fab := m.fab.updEng c.en (fun e => e.setEcsReg Ecs.RESV (w64 (1 + a / 32 * 32))) }
    match m.bad with
    | some w => r.dataErr c slot 8 a w
    | none => r.putA c slot 8 d (w64 m.data)

/-- STCD: the reservation is read as the stores before it in Avenue order left it (R229). -/
def Run.stcd (r : Run) (c : Ctx) (slot d : Nat) (am : Addr) : Run :=
  let ea := c.e0.formEA am
  let a := ea.1
  if r.fab.badResv c.en a then r.trap slot 5 a
  else
    let r := r.xEffects c slot am.x ea.2.1 ea.2.2
    let e := r.fab.engine c.en
    let ok := e.bit Ecs.RESV_VALID && e.get Ecs.RESV_ROW == a / 32
    let r := { r with fab := r.fab.setEng c.en (e.setEcsReg Ecs.RESV 0) }
    if ok then
      let m := r.fab.stWrite c.en a 8 (c.e0.rA d).toNat c.t (c.t + 4)
      let r := { r with fab := m.fab }
      if m.dropped then r.dataErr c slot 8 a (r.fab.devOf c.en a) else r.putA c slot 8 d 0
    else r.putA c slot 8 d 1

/-! ### PUT and far access (R297–R310, R384) -/

/-- The lowest-numbered block and the number of blocks of a partition (R383). -/
def Fab.dxBase (f : Fab) (p : Nat) : Nat × Nat := ((f.blocks p).headD 0, (f.blocks p).length)

/-- The engine that a PUT names (R298, R384), if the address names one. -/
def Fab.putEngine (f : Fab) (en e : Nat) : Option Nat :=
  match f.engPart en with
  | some p => if f.dx48 en then
      (if e < 8 * (f.dxBase p).2 then some (8 * ((f.dxBase p).1 + e / 8) + e % 8) else none) else some e
  | none => some e

/-- The block that a far access names (R239, R384), if it may. -/
def Fab.farBlock (f : Fab) (en b : Nat) : Option Nat :=
  match f.engPart en with
  | some p =>
    let b' := if f.dx48 en then (if b < (f.dxBase p).2 then some ((f.dxBase p).1 + b) else none) else some b
    match b' with
    | some x => if x ≠ en / 8 && f.unitPart x == some p then some x else none
    | none => none
  | none => none

/-- Hops between two blocks in the 6 × 4 mesh (R4, R300). -/
def dist (x y : Nat) : Nat := max x y - min x y
def hops (b1 b2 : Nat) : Nat := dist (b1 % 6) (b2 % 6) + dist (b1 / 6) (b2 / 6)

/-- The route of a scheduled transfer (R303): along the row, then the column. Each entry is (router, output, input,
ECLK); outputs and inputs are 0 west, 1 east, 2 north, 3 south, 4 the router's own block. The i-th router passes the
transfer at ECLK `t` + 2i; a PUT enters its own router 4 ECLK after it issues. -/
def routeGo (dst : Nat) : Nat → Nat → Nat → Nat → List (Nat × Nat × Nat × Nat)
  | 0, b, inp, t => [(b, 4, inp, t)]
  | fuel + 1, b, inp, t =>
    if b = dst then [(b, 4, inp, t)]
    else if b % 6 < dst % 6 then (b, 1, inp, t) :: routeGo dst fuel (b + 1) 0 (t + 2)
    else if dst % 6 < b % 6 then (b, 0, inp, t) :: routeGo dst fuel (b - 1) 1 (t + 2)
    else if b < dst then (b, 3, inp, t) :: routeGo dst fuel (b + 6) 2 (t + 2)
    else (b, 2, inp, t) :: routeGo dst fuel (b - 6) 3 (t + 2)

def routeOf (b1 b2 t : Nat) : List (Nat × Nat × Nat × Nat) := routeGo b2 10 b1 4 t

/-- The first router of the route that no transfer of partition `p` may enter (R306). -/
def Fab.routeStop (f : Fab) (p : Nat) (r : List (Nat × Nat × Nat × Nat)) : Option (Nat × Nat × Nat) :=
  (r.find? (fun x => f.unitPart x.1 ≠ some p)).map (fun x => (x.1, x.2.2.1, x.2.2.2))

/-- Does the transfer take part at ECLK `x`: it has not been discarded by then? -/
def Put.going (u : Put) (x : Nat) : Bool :=
  match u.lost with
  | some l => x < l.2.2
  | none => true

/-- The router output that the transfer needs at ECLK `x`, and the input it comes from. -/
def Put.needs (u : Put) (x : Nat) : Option (Nat × Nat × Nat) :=
  if u.going x then (u.route.find? (fun y => y.2.2.2 == x)).map (fun y => (y.1, y.2.1, y.2.2.1)) else none



/-- Local index of a transfer at its own router: its engine's, or beyond the engines for a link's. -/
def Put.local_ (u : Put) : Nat := match u.src with
  | some e => e % 8
  | none => 8

/-- Does the transfer `v` take at ECLK `x` the router output that `u` needs (R305)? Equal inputs and local indexes fall back on the
order of issue. -/
def Put.beats (v u : Put) (x : Nat) (first : Bool) : Bool :=
  match v.needs x, u.needs x with
  | some a, some b => a.1 == b.1 && a.2.1 == b.2.1 &&
      (a.2.2 < b.2.2 || (a.2.2 == b.2.2 && (v.local_ < u.local_ || (v.local_ == u.local_ && first))))
  | _, _ => false

/-- The losers of ECLK `x` among the transfers under way; `past` are those that have ended. -/
def arbitrate (past : List Put) (l : List Put) (x : Nat) : List Put :=
  l.zipIdx.map (fun (u : Put × Nat) =>
    if past.any (fun v => v.beats u.1 x true) || l.zipIdx.any (fun (v : Put × Nat) => v.1.beats u.1 x (v.2 < u.2)) then
      { u.1 with lost := (u.1.needs x).map (fun n => (n.1, n.2.2, x)) }
    else u.1)

/-- Put a scheduled transfer under way (R305, R306): what every transfer under way meets is decided anew, ECLK by ECLK. A loser goes
no further and meets nothing behind. -/
def Fab.launch (f : Fab) (p : Nat) (u : Put) : Fab :=
  let fresh (g : Fab) (q : Nat) (v : Put) : Put := { v with lost := if v.brd then g.routeStop q v.route else none }
  let owner (v : Put) : Nat := match v.src with
    | some e => (f.engPart e).getD p
    | none => if 192 ≤ v.tgt then (f.unitPart (24 + (v.tgt - 192))).getD p else (f.engPart v.tgt).getD p
  let l := f.puts.map (fun v => fresh f (owner v) v) ++ [fresh f p u]
  let clocks := (l.map (fun v => v.route.map (fun y => y.2.2.2))).flatten
  let lo := clocks.foldl min (clocks.headD 0)
  let hi := clocks.foldl max 0
  let start := (u.route.map (fun y => y.2.2.2)).foldl min u.vis
  { f with
    puts := (List.range (hi + 1 - lo)).foldl (fun m i => arbitrate f.past m (lo + i)) l
    past := f.past.filter (fun v => start ≤ v.vis || f.puts.any (fun w => w.route.any (fun y => v.route.any (fun z =>
      y.1 == z.1 && y.2.1 == z.2.1 && y.2.2.2 == z.2.2.2)))) }

/-- PUTD and PUTN (R297–R300, R239). -/
def Run.putOp (r : Run) (c : Ctx) (slot n : Nat) (toN : Bool) (d : Nat) (am : Addr) : Run :=
  let ea := c.e0.formEA am
  let a := ea.1
  let f := r.fab
  let tgt := match region a with
    | .arcOf e o => (f.putEngine c.en e).map (fun x => (x, o))
    | _ => none
  match tgt, f.engPart c.en with
  | some (x, o), some p =>
    if a % n ≠ 0 || x = c.en || f.unitPart (x / 8) ≠ some p || !f.activeIn p x || !f.addrOn (arcBase x) then r.trap slot 5 a
    else
      let r := r.xEffects c slot am.x ea.2.1 ea.2.2
      let v := if toN then c.e0.rN d else (c.e0.rA d).setWidth 256
      let far := x / 8 ≠ c.en / 8
      let vis := if far then c.t + 6 + 2 * hops (c.en / 8) (x / 8) else c.t + 4
      let u : Put := ⟨some c.en, x, o, n, v, vis, far, if far then routeOf (c.en / 8) (x / 8) (c.t + 4) else [], none, false⟩
      { r with fab := r.fab.launch p u }
  | _, _ => r.trap slot 5 a

/-- The device address of a far access (R238–R240), or none where it raises the address trap. -/
def Fab.farTarget (f : Fab) (en : Nat) (e0 : Engine) (a n : Nat) : Option Nat :=
  if a % n ≠ 0 then none
  else
    match region a with
    | .bmOf b o =>
      match f.farBlock en b with
      | some x => if o < 0x140000 && f.addrOn (bmBase x + o) then some (bmBase x + o) else none
      | none => none
    | .ddr w o =>
      let g := e0.get (Ecs.DWIN_GRAN w)
      if e0.bit (Ecs.DWIN_EN w) && f.engPart en ≠ none && f.granPart g == f.engPart en then
        some (ddrBase + g * 0x10000000 + o) else none
    | _ => none

/-- FLDD and FLDN (R297, R308): in flight until FAR_LOAD_RESULT. In timed lock-step a ninth one is not taken (R67). -/
def Run.farLoad (r : Run) (c : Ctx) (slot n : Nat) (toN : Bool) (d : Nat) (am : Addr) : Run :=
  let ea := c.e0.formEA am
  let a := ea.1
  match r.fab.farTarget c.en c.e0 a n with
  | none => r.trap slot 5 a
  | some dev =>
    let r := r.xEffects c slot am.x ea.2.1 ea.2.2
    if 8 ≤ (c.e0.far.filter (fun l => l.live c.t)).length then r.fail 3
    else
      let l : FarLd := ⟨a, dev, n, if toN then .n d else .copyA d c.e0.shadow, c.e0.shadow, c.t, c.pc, none⟩
      { r with fn := r.fn + 1, fab := r.fab.updEng c.en (fun e => { e with far := e.far ++ [l] }) }

/-- FSTD and FSTN (R297, R309): posted until FAR_STORE_PERFORMED. -/
def Run.farStore (r : Run) (c : Ctx) (slot n : Nat) (toN : Bool) (d : Nat) (am : Addr) : Run :=
  let ea := c.e0.formEA am
  let a := ea.1
  match r.fab.farTarget c.en c.e0 a n with
  | none => r.trap slot 5 a
  | some dev =>
    let r := r.xEffects c slot am.x ea.2.1 ea.2.2
    let v := if toN then c.e0.rN d else (c.e0.rA d).setWidth 256
    { r with fab := { r.fab with farSt := r.fab.farSt ++ [⟨c.en, dev, n, v, c.t⟩] } }

/-- Execute a D-slot operation (spec/06, 07, 10; R76, R141). -/
def Run.execD (r : Run) (c : Ctx) (slot : Nat) (o : DOp) : Run :=
  match o with
  | .load n sg toN rot d am => r.load c slot n sg toN rot d am
  | .store n toN rot d am => r.store c slot n toN rot d am
  | .xset x s1 => r.put c slot 1 (.x x) (((c.e0.rA s1).setWidth 32).setWidth 256)
  | .xget d x => r.putA c slot 1 d (w64 (c.e0.rX x))
  | .xmod x off =>
    let s := c.e0.wrapSum x (off.val c.e0)
    r.xEffects c slot x (some s.1) s.2
  | .imsync =>
    { r with sync := true, fab := r.fab.updEng c.en (fun e =>
        { (e.dropCache c.t).flushBtb with imPend := e.imPend.filter (fun s => s.seq == c.q + 4 && s.at_ ≠ 0) }) }
  | .qput k s1 =>
    { r with fab := r.fab.updEng c.en (fun e => { e with ql := Store.set 0 e.ql k (c.e0.rN s1) }) }
  | .qget d k => r.put c slot 3 (.n d) (Store.get 0 c.e0.ql k)
  | .ldrd d am => r.ldrd c slot d am
  | .stcd d am => r.stcd c slot d am
  | .put n toN d am => r.putOp c slot n toN d am
  | .farLoad n toN d am => r.farLoad c slot n toN d am
  | .farStore n toN d am => r.farStore c slot n toN d am

end Sys2Proof.Machine
end

