-- ==== Sys2Proof/Machine/Bundle.lean ====
section
/-! DEFINITION. BUNDLE_ISSUE: when a bundle issues, what it traps on, what it does and what the next bundle costs
(spec/02, spec/06, spec/07). -/

namespace Sys2Proof.Machine

/-! ### Registers that a slot reads or names (R65) -/

/-- A pair of N registers. -/
def nPair (i : Nat) : List (Nat × Nat) := [(1, i), (1, i + 1)]

def NOp.touch : NOp → List (Nat × Nat)
  | .tlog _ d a b | .edge _ d a b | .sample d a b => [(1, d), (1, a), (1, b)]
  | .tlx _ d a b | .edgep _ d a b | .samplep d a b => nPair d ++ nPair a ++ nPair b
  | .mov d s | .shiftI _ d s _ | .bcI d s _ => [(1, d), (1, s)]
  | .movp d s => nPair d ++ nPair s
  | .ldk d => [(1, d)]
  | .shiftR _ d s r | .bcR d s r => [(1, d), (1, s), (0, r)]
  | .test _ _ a b => [(1, a), (1, b)]
  | .extract _ d s r => [(0, d), (1, s), (0, r)]
  | .extb d s _ => [(0, d), (1, s)]
  | .deposit d s r | .concat d s r => [(1, d), (0, s), (0, r)]
  | .depb d s _ => [(1, d), (0, s)]
  | .gather four d q pat r =>
    (if four then nPair d else [(1, d)]) ++ [(1, 4 * q), (1, 4 * q + 1), (1, 4 * q + 2), (1, 4 * q + 3)] ++
      (if pat.isSome then [] else [(0, r)])

def ASrc.touch : ASrc → List (Nat × Nat)
  | .reg r => [(0, r)]
  | _ => []

def AOp.touch : AOp → List (Nat × Nat)
  | .alu _ _ d s1 src => [(0, d), (0, s1)] ++ src.touch
  | .ldi d _ | .ldk d | .mvfe d _ => [(0, d)]
  | .chain _ _ d s1 s2 | .cmpA _ d s1 s2 => [(0, d), (0, s1), (0, s2)]
  | .insk d s1 => [(0, d), (0, s1)]
  | .cmpP _ _ s1 src => (0, s1) :: src.touch
  | .plogic .. => []
  | .mvte _ s => [(0, s)]

def MOp.touch : MOp → List (Nat × Nat)
  | .mul32 _ d s1 s2 | .farith _ _ _ d s1 s2 | .fminmax _ _ d s1 s2 => [(0, d), (0, s1), (0, s2)]
  | .mac f _ _ s1 s2 =>
    match f with
    | .aclr | .accadd => []
    | .accld | .accseth => [(0, s1)]
    | _ => [(0, s1), (0, s2)]
  | .fcmp _ _ _ s1 s2 => [(0, s1), (0, s2)]
  | .extr _ d _ sh _ => (0, d) :: sh.touch
  | .acchi d _ | .accnorm d _ => [(0, d)]
  | .quince opc _ d s1 s2 =>
    (if opc = 0x4C then (List.range 8).map (fun i => (1, d + i))
      else if opc = 0x40 || opc = 0x41 || opc = 0x48 || opc = 0x49 then [(0, d), (0, d + 1)] else [(0, d)]) ++
      (if opc = 0x4C || opc = 0xF2 || opc = 0xF3 then [(0, s1)] else [(0, s1), (0, s2)])
  | .fsign _ _ d s1 | .fclass _ d s1 | .fconv _ _ d s1 | .itof _ _ d s1 _ | .ftoi _ _ _ d s1 _ => [(0, d), (0, s1)]

def DOp.touch : DOp → List (Nat × Nat)
  | .load _ _ n _ d _ | .store _ n _ d _ | .put _ n d _ | .farLoad _ n d _ | .farStore _ n d _ =>
    [(if n then 1 else 0, d)]
  | .xset _ s1 => [(0, s1)]
  | .xget d _ => [(0, d)]
  | .xmod .. | .imsync => []
  | .qput _ s1 => [(1, s1)]
  | .qget d _ => [(1, d)]
  | .ldrd d _ | .stcd d _ => [(0, d)]

def SOp.touch : SOp → List (Nat × Nat)
  | .n o => o.touch
  | .a o => o.touch
  | .m o => o.touch
  | .d o => o.touch

/-- Is it a Quince operation? -/
def SOp.isQuince : SOp → Bool
  | .m (.quince ..) => true
  | _ => false

/-- Is it a far load? -/
def SOp.isFar : SOp → Bool
  | .d (.farLoad ..) => true
  | _ => false

/-! ### The decoded bundle -/

/-- A slot of a bundle: its number, its word, its operation. -/
structure Slot where
  i  : Nat
  w  : Nat
  op : SOp

/-- A decoded bundle: header fields, slots, and the mask of slots whose word is illegal (N0 = bit 6 to D1 = bit 0). -/
structure Bundle where
  spm   : Nat
  ksel  : Nat
  bk    : Nat
  ba    : Nat
  hpred : Nat
  hinv  : Bool
  slots : List Slot
  bad   : Nat
  len   : Nat

/-- Decode a bundle (R44, R45, R50–R52) against the engine's features (R379, R382). -/
def Fab.decodeBundle (f : Fab) (en words : Nat) : Bundle :=
  let h := natBits words 0 32
  let present := (List.range 7).filter (fun i => h.testBit (31 - i))
  let dec := present.zipIdx.map (fun (x : Nat × Nat) =>
    let w := natBits words (32 * (x.2 + 1)) 32
    let o := match decodeSlot x.1 w with
      | some o => if o.refused (f.dx48 en) (f.engFeat en 3) (f.engFeat en 4) (f.engFeat en 5) then none else some o
      | none => none
    (x.1, w, o))
  { spm := natBits h 25 7
    ksel := natBits h 11 9
    bk := natBits h 8 3
    ba := natBits h 0 8
    hpred := natBits h 20 4
    hinv := h.testBit 24
    slots := dec.filterMap (fun (x : Nat × Nat × Option SOp) => x.2.2.map (fun o => Slot.mk x.1 x.2.1 o))
    bad := dec.foldl (fun (m : Nat) (x : Nat × Nat × Option SOp) =>
      if x.2.2.isNone then m + 2 ^ (6 - x.1) else m) 0
    len := bundleLen h }

/-- Does BARG break the rule of its encoded BKIND (R47)? -/
def Bundle.bargBad (b : Bundle) : Bool :=
  if b.bk = 0 || b.bk = 2 || b.bk = 6 || b.bk = 7 then b.ba ≠ 0
  else if b.bk = 3 || b.bk = 4 then 16 ≤ b.ba
  else false

/-- BARG of a BR as a signed byte offset. -/
def Bundle.brOff (b : Bundle) : Int := 4 * (BitVec.ofNat 8 b.ba).toInt

/-- The target of a branch (R47, R199). -/
def Bundle.target (b : Bundle) (e : Engine) (k : Word) (pc : Nat) : Nat :=
  if b.bk = 1 then (((pc : Int) + b.brOff) % 0x20000).toNat
  else if b.bk = 3 then fget (w64 (e.rX (b.ba % 16))) 2 15 * 4
  else fget k 2 15 * 4

/-- Is the encoded branch of a kind that is predicted taken (R200)? -/
def Bundle.predTaken (b : Bundle) (pnt : Bool) : Bool :=
  !pnt && ((b.bk == 1 && b.brOff ≤ 0) || b.bk == 2 || b.bk == 3 || b.bk == 4)

/-- The predicate of a slot. -/
def Slot.pred (s : Slot) (e : Engine) : Bool := e.pred (swPred s.w) (swPinv s.w)

/-! ### The scoreboard hold (R65, R67, R146, R170) -/

/-- The ECLK at whose end each thing that holds the bundle at ECLK `t` ends; none where that is not yet known. -/
def Engine.blockers (e : Engine) (b : Bundle) (lock : Bool) (t : Nat) : List (Option Nat) :=
  let on := b.slots.filter (fun s => s.pred e)
  let touched := (on.map (fun s => s.op.touch)).flatten
  let rte := b.bk == 7 && e.pred b.hpred b.hinv
  let q := match e.quince with
    | some q =>
      if t ≤ q.due && (rte || q.hold || (!lock && (on.any (fun s => s.op.isQuince) ||
          touched.any (fun x => e.busyQ x.1 x.2 t)))) then [some q.due] else []
    | none => []
  let live := e.far.filter (fun l => l.live t)
  let named := if lock then [] else
    (live.filter (fun l => touched.any (fun x => e.farNames l x.1 x.2))).map (fun l => l.doneAt)
  let full := if !lock && on.any (fun s => s.op.isFar) && 8 ≤ live.length then
      (match live.filterMap (fun l => l.doneAt) with
        | [] => [none]
        | w :: ws => [some (ws.foldl min w)])
    else []
  q ++ named ++ full

/-- The first ECLK from `t` at which nothing holds the bundle; none where that is not yet known. -/
def Engine.freeFrom (e : Engine) (b : Bundle) (lock : Bool) : Nat → Nat → Option Nat
  | 0, t => some t
  | fuel + 1, t =>
    let bl := (e.retire (t - 1)).blockers b lock t
    if bl = [] then some t
    else
      let ends := bl.filterMap id ++ (e.pend.filter (fun x => t ≤ x.due)).map (fun x => x.due)
      match ends with
      | [] => none
      | w :: ws => e.freeFrom b lock fuel (ws.foldl min w + 1)

/-! ### Engine control register writes in flight (R79) -/

/-- Apply the pending ECS writes that `ok` picks, in order. A write to an X or I register that meets a result due at the
end of ECLK `now` − 1 loses to it (R60); a sticky bit set at the end of that ECLK stays set (R123). -/
def Fab.applyEcs (f : Fab) (en now : Nat) (ok : EcsWr → Bool) : Fab :=
  let e := f.engine en
  let ws := e.ecsPend.filter ok
  let meets_ (w : EcsWr) : Bool := e.pend.any (fun x => x.due + 1 == now &&
    (x.dst == .x (w.idx - 32) && 32 ≤ w.idx && w.idx < 48))
  let e := { e with ecsPend := e.ecsPend.filter (fun w => !ok w) }
  let e := if ws.any meets_ then { e with wcn := e.wcn + 1 }.set Ecs.STATUS_WCOLL 1 else e
  let f := ws.foldl (fun g w => g.ecsWrite en w.idx now 0 w.val) (f.setEng en e)
  let again := e.setRec.filter (fun r => r.1 + 1 == now && ws.any (fun w => w.idx == r.2.1))
  if again = [] then f else f.updEng en (fun e => again.foldl (fun g r => g.stickBits r.2.1 r.2.2) e)

/-! ### Halts (R530–R536) -/

/-- The last ECLK at whose end a fixed-latency result is written, or of the last bundle. -/
def Engine.drainT (e : Engine) : Nat :=
  (e.pend.filter (fun x => x.slot < 8)).foldl (fun (m : Nat) (x : PendWr) => max m x.due) e.lastT

/-- Write every fixed-latency result in flight (R57). A Quince operation and far loads run on (R143). -/
def Engine.drain (e : Engine) : Engine := { e.retire e.drainT with lastT := e.drainT }

/-- The engine halts with its next bundle at IM offset `pc` (R530): results drain, the reservation is lost. -/
def Engine.doHalt (e : Engine) (cause brk pc : Nat) : Engine :=
  let e := e.drain
  let e := { e with halted := true, haltReq := none, stepReq := false, pc := pc }
  let e := e.setEcsReg Ecs.RESV 0
  let e := ((e.set Ecs.DBGSTAT_HALTED 1).set Ecs.DBGSTAT_CAUSE cause).set Ecs.DBGSTAT_BRK brk
  e.set Ecs.DPC_PC (pc / 4)

/-- The cross-trigger of a breakpoint halt of engine `en` (R536): engines of the row get a halt request of cause 3, and
the Damson core when XTRIG(3) says so. -/
def Fab.crossTrigger (f : Fab) (en : Nat) : Fab :=
  let inRow (j : Nat) : Bool := (f.reg (Reg.DBG_XTRIG (j / 64))).getLsbD (j % 64)
  if !inRow en then f
  else
    let f := ((List.range 192).filter (fun j => j ≠ en && inRow j)).foldl (fun g j =>
      g.updEng j (fun e => if e.halted then e else { e with haltReq := some (e.haltReq.getD 3) })) f
    if f.bit Reg.DBG_XTRIG3_DAMSON then { f with dhalt := true } else f

/-- Count up to now before a write through the ECS area of a register that says what is counted (R84, R86). -/
def Fab.perfSync (f : Fab) (en i : Nat) : Fab :=
  if i = 0 || (8 ≤ i && i < 14) then f.perfTo en (f.eclkNow en + 1) [] 0 [] else f

/-- Count up to the halt of an engine, after which its counters stand (R87). -/
def Fab.perfHalt (f : Fab) (en : Nat) : Fab :=
  f.perfTo en (max (f.engine en).drainT (f.eclkNow en) + 1) [] 0 []

/-- Halt an engine, with its bit in DBG.EHALTED; a breakpoint (cause 1 or 2) cross-triggers. -/
def Fab.haltEng (f : Fab) (en cause brk pc : Nat) : Fab :=
  let f := f.perfHalt en
  let f := f.updEng en (fun e => e.doHalt cause brk pc)
  let f := f.set ⟨Reg.DBG_EHALTED (en / 64), en % 64, 1⟩ 1
  if cause = 1 || cause = 2 then f.crossTrigger en else f

/-- The breakpoint that matches the engine's next bundle. -/
def Engine.brkHit (e : Engine) : Option Nat :=
  if e.brkSkip then none
  else (List.range 4).find? (fun k => e.bit (Ecs.BRK_EN k) && e.get (Ecs.BRK_PC k) * 4 == e.pc)

/-! ### Trap records -/

/-- Write the trap registers of an entry (R218, R179, R231). `derr` is the address of a data error found during entry. -/
def Engine.recordTrap (e : Engine) (x : Trap) (derr : Option Nat) : Engine :=
  let e := e.setEcsReg Ecs.TRAPCAUSE (w64 (x.code + x.slots * 2 ^ 8 + b2n derr.isSome * 2 ^ 15 + x.svc * 2 ^ 16 +
    b2n x.sysp * 2 ^ 24 + b2n x.exe * 2 ^ 25))
  let e := e.setEcsReg Ecs.TRAPPC (w64 x.ret)
  let e := e.setEcsReg Ecs.TRAPBPC (w64 x.bpc)
  let e := e.setEcsReg Ecs.TRAPADDR (w64 (x.addr % 2 ^ 32))
  let e := match derr with
    | some a => e.setEcsReg Ecs.DERRADDR (w64 (a % 2 ^ 32))
    | none => e
  match x.fp with
  | some r => (((e.setEcsReg Ecs.FPTRAP (w64 r.1)).setEcsReg (Ecs.FPOP 0) (w64 r.2.1)).setEcsReg (Ecs.FPOP 1)
      (w64 r.2.2.1)).setEcsReg (Ecs.FPOP 2) (w64 r.2.2.2)
  | none => e

/-- A trap in timed lock-step (R225): the registers are written when LSF is 0, and LSF is set. The interval fails with
cause engine trap. -/
def Fab.lockTrap (f : Fab) (en : Nat) (x : Trap) (now : Nat) : Fab :=
  let f := f.updEng en (fun e => (if e.bit Ecs.TRAPSTAT_LSF then e else e.recordTrap x none).set Ecs.TRAPSTAT_LSF 1)
  match f.engPart en with
  | some p => f.failInterval p 4 (f.curDc p) now
  | none => f

/-- The data-error trap of a poisoned load (R215, R231), taken at boundary `b`. -/
def Engine.dataTrap (e : Engine) (d : DataErr) (b : Nat) : Trap where
  code := 8
  slots := 2 ^ (6 - d.slot)
  exe := true
  ret := e.pc
  retWait := e.phase == .waitBoundary
  bpc := d.bpc
  addr := d.addr
  svc := 0
  sysp := false
  b := b
  fp := none

/-- The first data error, by the ECLK at which it falls due. -/
def Engine.firstErr (e : Engine) : Option DataErr :=
  e.derr.foldl (fun (m : Option DataErr) x =>
    match m with
    | some y => if x.at_ < y.at_ then some x else some y
    | none => some x) none

/-- In timed lock-step, act on the data errors due by ECLK `t`. -/
def Fab.lockDataErrs (f : Fab) (en t : Nat) : Fab :=
  let e := f.engine en
  let now := e.derr.filter (fun d => d.at_ ≤ t)
  let f := f.setEng en { e with derr := e.derr.filter (fun d => t < d.at_) }
  now.foldl (fun g d => g.lockTrap en (e.dataTrap d (max d.at_ e.issueAt)) t) f

/-! ### Issue -/

/-- What is known of the next bundle before it issues: the fabric with what came before, the fetched bundle, the
constant, the first ECLK in which it could issue but for a hold, and the ECLK in which it issues. -/
structure Plan where
  fab  : Fab
  fx   : Fetched
  b    : Bundle
  k    : Word
  dc   : Nat
  kbad : Option Nat
  koff : Bool
  btb  : Option Nat
  t0   : Nat
  t    : Option Nat

/-- Is ECS.MODE or ECS.KBASE the target of the write? They act on fetches (R79). -/
def EcsWr.early (w : EcsWr) (q : Nat) : Bool := w.seq ≤ q && (w.idx == 0 || w.idx == 2)

/-- Plan the engine's next bundle (R53–R72, R197, R202). -/
def Fab.plan (f : Fab) (en : Nat) : Plan :=
  let f := f.updEng en Engine.imPrune
  let f := f.applyEcs en (f.engine en).issueAt (fun w => w.early ((f.engine en).seq + 1))
  let e := f.engine en
  let fx := f.fetchBundle en
  let b := fx.fab.decodeBundle en fx.words
  let c := if b.ksel = 0 then (e.k, fx.d, none, false, fx.fab) else fx.fab.fetchConst en b.ksel fx.d e.first
  let g := c.2.2.2.2
  let t0 := if e.first then e.issueAt else max (c.2.1 + 1) e.issueAt
  { fab := g
    fx := fx
    b := b
    k := c.1
    dc := c.2.1
    kbad := c.2.2.1
    koff := c.2.2.2.1
    btb := if f.btbOff en || e.bit Ecs.MODE_PNT then none else e.btbLook e.pc fx.f0
    t0 := t0
    t := e.freeFrom b (f.lockStep en) (e.pend.length + e.far.length + 4) t0 }

/-- Is ECLK `b` in a hold at which nothing is entered: an RTE that waits for a Quince operation (R146), or a bundle behind a
Quince floating-point operation while an FP trap is enabled (R170, R222)? -/
def Plan.shut (p : Plan) (e : Engine) (b : Nat) : Bool :=
  p.t0 ≤ b && e.quince.any (fun q => b ≤ q.due && (q.hold || (p.b.bk == 7 && e.pred p.b.hpred p.b.hinv)))

/-- The boundary at which a data error is taken before the planned bundle (R215): the first that is none of a hold of R146 or
R170. -/
def Plan.errAt (p : Plan) (e : Engine) (d : DataErr) : Nat :=
  let b := max d.at_ e.issueAt
  if p.shut e b then (match e.quince with
    | some q => q.due + 1
    | none => b) else b

/-- The successor as the loop unit and the branch field give it (R191, R201). -/
structure Succ where
  a     : Nat
  decs  : List (Nat × Nat)
  bad   : Bool
  cost  : Nat
  x1    : Bool
  taken : Bool
  hit   : Bool
  mis   : Bool

/-- The successor of a bundle (R191–R194, R199–R204, R213). `e` is the engine after the slots ran; `e0` as the bundle reads it. A
decision of the bundle's own successor applies to the count that the bundle writes, and a fetch that IMSYNC repeats keeps the
examination already made (log 89). -/
def Plan.succ (p : Plan) (e0 e : Engine) (t : Nat) : Succ :=
  let pc := e0.pc
  let b := p.b
  let seqA := if pc + b.len ≤ 0x20000 then pc + b.len else pc + b.len - 0x20000
  let hdr := e0.pred b.hpred b.hinv
  let taken := hdr && 1 ≤ b.bk && b.bk ≤ 4
  let tgt := b.target e0 p.k pc
  let pk := b.predTaken (e0.bit Ecs.MODE_PNT)
  let hit := pk && p.btb == some tgt
  let stale := !pk && p.btb.isSome
  let f0 := p.fx.d
  let fPred := if hit || (!pk && !stale) then f0 else f0 + 1
  -- the examination of the predicted successor
  let pred : Option Exam :=
    if !pk then some (exam (e.loopView fPred) seqA true 5)
    else if b.bk = 3 then p.btb.map (fun x => exam (e.loopView f0) x false 5)
    else some (exam (e.loopView fPred) tgt false 5)
  let early := if taken then pk && (b.bk ≠ 3 || hit) else !pk
  let act := if early then pred.getD ⟨wrapIm seqA, [], false, false⟩
    else if taken then exam (e.loopView (t + 1)) tgt false 5 else exam (e.loopView (t + 1)) seqA true 5
  let broke (x : Exam) : Bool := x.bad || (x.endT && b.bk ≠ 0)
  { a := act.a
    decs := act.decs
    bad := broke act || pred.any broke
    cost := if taken then
        (if !pk then 2 else if hit then 0 else if b.bk = 3 then 2 else 1)
      else if pk then 2 else if stale then 1 else 0
    x1 := (taken && (!pk || (b.bk == 3 && !hit))) || (!taken && pk)
    taken := taken
    hit := hit
    mis := (taken && !pk) || (!taken && pk) }

/-- Decode-class traps of a bundle that the engine reads as `e0` (R211, R212): code, slots, address. `bad` says whether
the successor's examination broke R194. -/
def Plan.decodeTrap (p : Plan) (en : Nat) (e0 : Engine) (bad : Bool) : Option (Nat × Nat × Nat) :=
  let user := !e0.bit Ecs.MODE_PRIV
  let privMask := p.b.slots.foldl (fun (m : Nat) (s : Slot) =>
    match s.op with
    | .a (.mvfe _ i) => if user && !userReads i then m + 2 ^ (6 - s.i) else m
    | .a (.mvte i _) => if user && !userWrites i then m + 2 ^ (6 - s.i) else m
    | _ => m) 0
  if p.fx.hdrOk && (p.b.spm = 0 || p.b.bargBad || bad) then some (1, 0, 0)
  else if p.fx.off then some (5, 0, 0)
  else
    match p.fx.bad.or p.kbad with
    | some a => some (2, 0, a - engBase en)
    | none =>
      if p.b.bad ≠ 0 then some (3, p.b.bad, 0)
      else if privMask ≠ 0 || (user && p.b.bk == 7 && e0.pred p.b.hpred p.b.hinv) then some (4, privMask, 0)
      else if p.koff then some (5, 0, 0)
      else none

/-- Run the slots whose predicate is true, in slot order (R48, R55). -/
def Run.slots (r : Run) (c : Ctx) (l : List Slot) : Run :=
  (l.filter (fun s => s.pred c.e0)).foldl (fun (r : Run) (s : Slot) =>
    match s.op with
    | .n o => r.execN c s.i o
    | .a o => r.execA c s.i o
    | .m o => r.execM c (swOp s.w) o
    | .d o => r.execD c s.i o) r

/-- The header's CALL write (R47). -/
def Run.callWrite (r : Run) (c : Ctx) (b : Bundle) : Run :=
  if b.bk = 4 && c.e0.pred b.hpred b.hinv then
    r.put c 7 1 (.x (b.ba % 16)) (BitVec.ofNat 256 (wrapIm (c.pc + b.len)))
  else r

/-- The execute-class trap of a bundle, if there is one (R213, R214, R216). -/
def Run.trapOf (r : Run) (p : Plan) (e0 : Engine) (s : Succ) (b svc : Nat) (sys dc : Bool) : Option Trap :=
  if r.traps = [] && !sys then none
  else
    let code := if r.traps = [] then 7 else r.traps.foldl (fun (m : Nat) x => min m x.2.1) 8
    let mask := r.traps.foldl (fun (m : Nat) x => m ||| 2 ^ (6 - x.1)) 0
    some {
      code := code
      slots := mask
      exe := true
      ret := if sys then wrapIm (e0.pc + p.b.len) else if dc then e0.get Ecs.DCFG_ENTRY * 4
        else if p.b.bk == 7 && e0.pred p.b.hpred p.b.hinv then e0.get Ecs.TRAPPC_PC * 4 else s.a
      retWait := dc
      bpc := e0.pc
      addr := ((r.traps.find? (fun x => x.2.1 == code)).map (fun x => x.2.2.1)).getD 0
      svc := if sys then svc else 0
      sysp := sys && r.traps ≠ []
      b := b
      fp := (r.traps.find? (fun x => x.2.2.2.isSome)).bind (fun x => x.2.2.2) }

/-- What a decode-class trap does (R212, R225). -/
def Plan.trapDecode (p : Plan) (f : Fab) (en t : Nat) (lock : Bool) (d : Nat × Nat × Nat) : Fab :=
  let e := f.engine en
  let x : Trap := ⟨d.1, d.2.1, false, e.pc, false, e.pc, d.2.2, 0, false, t, none⟩
  if lock then
    let f := f.updEng en (fun e => { e with
      pc := wrapIm (e.pc + p.b.len), fetchAt := p.fx.d, issueAt := t + 1, lastT := t, first := false
      cntT := t, perfDue := e.perfInc [(0x01, 1), (0x03, 1), (0x10, e.farSum (t - 1) t)] })
    f.lockTrap en x t
  else f.updEng en (fun e => { e with trap := some x, lastT := t })

/-- The engine as the planned bundle reads it at ECLK `t`. -/
def Plan.reads (p : Plan) (e : Engine) (t : Nat) : Engine := { e with k := p.k, far := e.far.filter (fun l => l.live t) }

/-- The planned bundle and its place. -/
def Plan.ctx (p : Plan) (f : Fab) (en t : Nat) (lock : Bool) : Ctx :=
  let e0 := p.reads (f.engine en) t
  ⟨en, e0, t, e0.seq + 1, e0.pc, lock⟩

/-- What the slots and the header of the planned bundle do at ECLK `t`. -/
def Plan.run (p : Plan) (f : Fab) (en t : Nat) (lock : Bool) : Run :=
  let c := p.ctx f en t lock
  ((⟨f.setEng en c.e0, [], [], false, false, 0, false, 0, [], 0, 0⟩ : Run).slots c p.b.slots).callWrite c p.b

/-- The decode-class trap that stands in the way of the planned bundle at ECLK `t` (R211, R212). -/
def Plan.found (p : Plan) (f : Fab) (en t : Nat) (lock : Bool) : Option (Nat × Nat × Nat) :=
  let e0 := (p.ctx f en t lock).e0
  p.decodeTrap en e0 (p.succ e0 ((p.run f en t lock).fab.engine en) t).bad

/-- Issue the planned bundle at ECLK `t` (spec/02, 06, 07). `f` has every result and ECS write that it sees. -/
def Plan.issue (p : Plan) (f : Fab) (en t : Nat) (lock : Bool) : Fab :=
  let c := p.ctx f en t lock
  let e0 := c.e0
  let b := p.b
  let r := p.run f en t lock
  let s := p.succ e0 (r.fab.engine en) t
  match p.decodeTrap en e0 s.bad with
  | some d => p.trapDecode f en t lock d
  | none =>
    let hdr := e0.pred b.hpred b.hinv
    let swbrk := hdr && b.bk == 5 && b.ba == 0xFF && e0.bit Ecs.DBGCTL_SWBRK
    let sys := hdr && b.bk == 5 && !(swbrk && !lock)
    let dcend := hdr && b.bk == 6
    let rte := hdr && b.bk == 7
    let extra := b2n r.unal + b2n r.conf + r.fpx + 2 * b2n r.sync
    let nextT := t + 1 + extra + s.cost
    -- registers scoreboarded in timed lock-step (R66)
    let on := b.slots.filter (fun x => x.pred e0)
    let touched := (on.map (fun x => x.op.touch)).flatten
    let fails := r.fails ++
      (if lock && touched.any (fun x => e0.busyF x.1 x.2 t) then [5] else []) ++
      (if lock && touched.any (fun x => e0.busyQ x.1 x.2 t) then [3] else [])
    let trap := r.trapOf p e0 s (if rte then t + 8 else max nextT (t + r.hold)) b.ba sys dcend
    let f := r.fab.updEng en (fun e =>
      let seqA := if e0.pc + b.len ≤ 0x20000 then e0.pc + b.len else e0.pc + b.len - 0x20000
      let e := if s.taken && b.predTaken (e0.bit Ecs.MODE_PNT) && !f.btbOff en then
          e.btbAlloc e0.pc (b.target e0 p.k e0.pc) t else e
      let e := e.fillCache t e0.pc p.fx.words seqA s.taken
      let e := e.recordDecs t s.decs
      let nf := if s.x1 || r.sync then nextT - 2 else p.fx.d + s.cost + extra
      let e := { e with
        pc := s.a
        seq := e0.seq + 1
        first := false
        brkSkip := false
        lastT := t
        fetchAt := nf
        issueAt := nextT
        imBusy := (e.imBusy ++ (if b.ksel = 0 then [] else
          [(p.dc, imBank ((e0.get Ecs.KBASE_BASE * 8 + 8 * b.ksel) % 0x20000), 0)])).filter (fun x => nf ≤ x.1)
        wcn := 0
        cntT := t
        perfDue := e.perfInc [(0x01, 1), (0x02, 1),
          (0x03, 1 + (if s.x1 then 2 else s.cost) + (if r.sync || dcend || rte then 2 else 0)),
          (0x04, on.length), (0x05, b.slots.length - on.length),
          (0x06, if r.traps = [] then 0 else t + r.hold - nextT), (0x0A, b2n s.mis), (0x0B, b2n (s.taken && s.hit)),
          (0x0C, b2n (s.taken && !s.hit)), (0x0D, b2n p.fx.cached), (0x0E, r.qn), (0x0F, r.fn),
          (0x10, e.farSum (t - 1) t), (0x11, e.wcn), (0x12, r.fpx), (0x13, b2n r.unal)] }
      let e := e.loopPrune nf (e0.seq + 2)
      if dcend then { e with phase := .waitBoundary }
      else if rte then { e with phase := .returning, rteAt := t } else e)
    let f := if lock then
        (match trap with
          | some x => f.lockTrap en x t
          | none => f)
      else f.updEng en (fun e => { e with trap := trap })
    let f := if swbrk then
        (if lock then (f.updEng en (fun e => { e with haltReq := some (e.haltReq.getD 2) })).crossTrigger en
         else f.haltEng en 2 0 (wrapIm (e0.pc + b.len)))
      else f
    let f := if e0.stepReq && lock then f.updEng en (fun e => { e with stepReq := false, haltReq := some (e.haltReq.getD 3) })
      else if e0.stepReq && !swbrk && trap.isNone && !rte then
        f.haltEng en 3 0 (if dcend then e0.get Ecs.DCFG_ENTRY * 4 else (f.engine en).pc)
      else f
    match f.engPart en with
    | some q => (fails.foldl (fun g x => g.failInterval q x (g.curDc q) t) f).journalEvents q t
    | none => f

/-- Bring the engine to ECLK `t`: ECLK lost are counted, results due are written, ECS writes due take effect (R54, R79). -/
def Plan.arrive (p : Plan) (en t : Nat) : Fab :=
  let f := p.fab
  let e := f.engine en
  let f := f.perfTo en t (e.perfLost (e.seq + 1)) (t - p.t0) (if e.first then [] else
    [(0x07, p.fx.strad), (0x08, p.fx.lostC), (0x09, p.fx.lostS + (p.dc - p.fx.d))])
  let f := { f with stq := f.stq.filter (fun s => t < s.vis) }
  let f := f.updEng en (fun e => e.retire (t - 2))
  let f := f.applyEcs en t (fun w => w.seq ≤ (f.engine en).seq + 1)
  f.updEng en (fun e => e.retire (t - 1))

/-- Does the operation access block memory over the Avenue (R246)? -/
def DOp.avenue (o : DOp) (e : Engine) : Bool :=
  match o with
  | .load _ _ _ _ _ am | .store _ _ _ _ am | .ldrd _ am | .stcd _ am => (region (e.formEA am).1).tag == 5
  | _ => false

/-- Does the planned bundle, read by `e`, access the Avenue? -/
def Plan.avenue (p : Plan) (e : Engine) : Bool :=
  (p.b.slots.filter (fun s => s.pred e)).any (fun s =>
    match s.op with
    | .d o => o.avenue e
    | _ => false)

/-- Is it the engine's turn on the Avenue at ECLK `t`: does no engine of its block still have to issue a bundle before it, in the
order of ECLK and local index (R229, R246)? -/
def Fab.avenueTurn (f : Fab) (en t : Nat) : Bool :=
  (List.range 8).all (fun i =>
    let j := 8 * (en / 8) + i
    let x := f.engine j
    !(j ≠ en && x.phase == .running && !x.halted && x.trap.isNone &&
      (match (f.plan j).t with
        | some u => u < t || (u == t && j < en)
        | none => false)))

/-- Fail the interval of an engine's partition. -/
def Fab.failOf (f : Fab) (en cause now : Nat) : Fab :=
  match f.engPart en with
  | some p => f.failInterval p cause (f.curDc p) now
  | none => f

/-- The conflict counter of an access of the operation that meets a borrowed bank (R247, R248). -/
def DOp.meets (o : DOp) (f : Fab) (en slot : Nat) (e : Engine) : List Nat :=
  let hit (a n : Nat) : List Nat :=
    if (pieces a n).any (fun x => f.borrowed (f.devOf en x.1)) then [if (region a).tag = 5 then 2 else slot - 5] else []
  match o with
  | .load n _ _ rot _ am | .store n _ rot _ am =>
    if f.badAccess en (e.formEA am).1 n rot then [] else hit (e.formEA am).1 n
  | .ldrd _ am | .stcd _ am => if f.badResv en (e.formEA am).1 then [] else hit (e.formEA am).1 8
  | _ => []

/-- Does a bundle's fetch, constant fetch or gather meet a borrowed bank, and which conflict counters do its D accesses count
(R243, R247)? -/
def Plan.meets (p : Plan) (f : Fab) (en : Nat) (e : Engine) : Bool × List Nat :=
  let base := engBase en
  let on := p.b.slots.filter (fun s => s.pred e)
  let fetch := !p.fx.cached && (f.borrowed (base + e.pc) || f.borrowed (base + (e.pc + p.b.len - 1) % 0x20000))
  let const := p.b.ksel ≠ 0 && f.borrowed (base + (e.get Ecs.KBASE_BASE * 8 + 8 * p.b.ksel) % 0x20000)
  let pm := f.borrowed (base + 0x20000) && on.any (fun s =>
    match s.op with
    | .n (.gather ..) => true
    | _ => false)
  let d := (on.map (fun s =>
    match s.op with
    | .d o => o.meets f en s.i e
    | _ => [])).flatten
  (fetch || const || pm || d ≠ [], d.eraseDups)

/-- The bundle that would issue at ECLK `t` meets a borrowed bank: the tester yields, and the bundle is held for at most 96 ECLK
(R247, R291; log 97). -/
def Fab.holdYield (f : Fab) (en t : Nat) (ms : List Nat) : Fab :=
  let d := 1 + (f.free 96).1 % 96
  let f := ms.foldl (fun g m => g.confBump (en / 8) m d) (f.free 96).2.testYield
  (f.perfPut en ((f.engine en).perfInc [(0x06, d)])).updEng en (fun e => { e with issueAt := t + d })

/-- In timed lock-step a bundle that meets a borrowed bank fails the interval (R247). -/
def Fab.lockYield (f : Fab) (en t : Nat) (hit : Bool) : Fab := if hit then f.testYield.failOf en 3 t else f

/-- The engine's next bundle issues, or what stands in its way happens (R45). A bundle with an Avenue access waits its turn. -/
def Fab.bundleIssue (f : Fab) (en : Nat) : Fab :=
  let e := f.engine en
  let lock := f.lockStep en
  if e.phase ≠ .running || e.halted || e.trap.isSome || (e.haltReq.isSome && !lock) then f
  else
    match (if lock then none else e.brkHit) with
    | some k => f.haltEng en 1 k e.pc
    | none =>
      let f0 := f
      let f := if lock && e.brkHit.isSome then
          (f.updEng en (fun e => { e with haltReq := some (e.haltReq.getD (1 + 4 * (e.brkHit.getD 0))), brkSkip := true })).crossTrigger en
        else f
      let p := f.plan en
      match (if lock then none else e.firstErr), p.t with
      | some d, none => f.updEng en (fun e => { e with trap := some (e.dataTrap d (p.errAt e d)), derr := e.derr.erase d })
      | none, none => f
      | de, some t =>
        if de.any (fun d => p.errAt e d < t) then
          match de with
          | some d => f.updEng en (fun e => { e with trap := some (e.dataTrap d (p.errAt e d)), derr := e.derr.erase d })
          | none => f
        else
          let g := p.arrive en t
          if (g.engine en).phase ≠ .running then g
          else
            let g := if lock then g.lockDataErrs en t else g
            if (g.engine en).phase ≠ .running then g
            else if p.avenue (g.engine en) && !f.avenueTurn en t then f0
            else if !lock && (p.meets g en (p.reads (g.engine en) t)).1 then
              f.holdYield en t (p.meets g en (p.reads (g.engine en) t)).2
            else
              let g := g.lockYield en t (lock && (p.meets g en (p.reads (g.engine en) t)).1)
              match de with
              | some d =>
                if p.errAt e d = t && (p.found g en t lock).isNone then
                  g.updEng en (fun e => { e with trap := some (e.dataTrap d t), derr := e.derr.erase d })
                else p.issue g en t lock
              | none => p.issue g en t lock

/-- After a bundle of engine `e`: time has come as far as its issue, and the barrier it may close is sent (R349). -/
def Fab.issued (f : Fab) (e : Nat) : Fab :=
  let f := match f.engPart e with
    | some p => f.seen p (f.engine e).lastT
    | none => f
  f.barrierOf e ((f.engine e).lastT + 1)

/-- BUNDLE_ISSUE. -/
def execBundleIssue (e : Nat) (s : State) : Host.Outcome State Fault Refusal :=
  if e < 192 then .next { s with fab := s.fab.clocked e (fun f => (f.bundleIssue e).issued e) } else .refused .noSuchUnit

end Sys2Proof.Machine
end

