-- ==== Sys2Proof/Machine/Trap.lean ====
section
/-! DEFINITION. Entry into handlers and return from them (spec/07), and what returns to an engine or reaches it from
outside: Quince results, far accesses, PUTs (spec/04, spec/10). -/

namespace Sys2Proof.Machine

/-! ### Entry -/

/-- Swap the visible and the shadow copies of A0–A15, P1–P7 and the loop registers (R219). -/
def Engine.swapBank (e : Engine) : Engine :=
  let low (s : Store Word) := s.filter (fun c => c.1 < 16)
  { e with
    a := low e.shA ++ e.a.filter (fun c => 16 ≤ c.1)
    shA := low e.a
    p := (e.p &&& 0xFF01) ||| (e.shP &&& 0xFE)
    shP := e.p &&& 0xFE
    loops := e.shL
    shL := e.loops
    loopBase := e.shL
    loopEvs := [] }

/-- Drop the BTB, the repeat cache and the reservation (R198, R203, R228). -/
def Engine.dropCaches (e : Engine) : Engine :=
  ({ e.flushBtb with rc := none, rcOld := none }).setEcsReg Ecs.RESV 0

/-- What entry does to a Quince operation that is not written by the end of ECLK `h` − 1 (R144). The flag says whether
it was parked. -/
def Engine.abandon (e : Engine) (h : Nat) : Engine × Bool :=
  match e.quince with
  | none => (e, false)
  | some q =>
    if q.due < h then ({ e with quince := none }, false)
    else
      let e := { e with
        quince := none
        pend := e.pend.filter (fun x => x.slot ≠ 9) }
      if e.bit Ecs.QCTX_PEND then (e.set Ecs.QCTX_LOST 1, false)
      else ({ e with parked := some q }.set Ecs.QCTX_PEND 1, true)

/-- A double fault (R221): the engine stops, ENG_FAULT is raised, a running share's interval fails. In a hold it counts as
returned (R223). -/
def Fab.doubleFault (f : Fab) (en b : Nat) : Fab :=
  let f := f.updEng en (fun e => { e.drain with phase := .stopped, trap := none, derr := [] }.set Ecs.TRAPSTAT_DFAULT 1)
  match f.engPart en with
  | some p => ((f.raise (17 + p) true).failInterval p 4 (f.curDc p) b).holdCheck p b
  | none => f

/-- Entry into a handler (R217–R219, R144, R215). Writes that R80 forces take effect at `h`; two bundles fetched behind the boundary
are discarded (log 90). -/
def Fab.enter (f : Fab) (en : Nat) (x : Trap) : Fab :=
  let b := x.b
  let h := b + 8
  let q := (f.engine en).seq + 1
  let f := f.perfTo en b ((f.engine en).perfLost q) 0 [(0x03, 2)]
  let f := f.updEng en (fun e => e.retire (b - 2))
  let f := f.applyEcs en b (fun w => w.seq ≤ q)
  let f := f.updEng en (fun e => e.retire (b - 1))
  if (f.engine en).bit Ecs.TRAPSTAT_BUSY then f.doubleFault en b
  else
    let f := f.perfTo en h ((f.engine en).perfLost (q + 9)) 0 []
    let f := f.updEng en (fun e => e.retire (h - 2))
    let f := f.applyEcs en h (fun _ => true)
    let ph := (f.engine en).phase
    if ph = .unreleased || ph = .stopped then f
    else
      let f := f.updEng en (fun e =>
        let r := (e.retire (h - 1)).abandon h
        let e := r.1
        let de := e.derr.find? (fun d => d.at_ ≤ h)
        let e := e.recordTrap x (de.map (fun d => d.addr))
        let sh := e.shadow
        let e := (e.set Ecs.TRAPSTAT_PPRIV (e.get Ecs.MODE_PRIV)).set Ecs.TRAPSTAT_PIE (e.get Ecs.MODE_IE)
        let e := (e.set Ecs.TRAPSTAT_PSH (b2n sh)).set Ecs.TRAPSTAT_QP (b2n r.2)
        let e := (e.set Ecs.TRAPSTAT_BUSY 1).set Ecs.TRAPSTAT_SH 1
        let e := (e.set Ecs.MODE_PRIV 1).set Ecs.MODE_IE 0
        let e := if sh then e else e.swapBank
        let e := e.dropCaches
        let e := { e with
          trap := none
          derr := e.derr.filter (fun d => h < d.at_)
          retWait := x.retWait :: e.retWait
          phase := .running }
        e.startAt (e.get Ecs.TVEC_BASE * 512 + 32 * x.code) h)
      let e := f.engine en
      if e.stepReq && x.code ≠ 0x0F then f.haltEng en 3 0 e.pc else f

/-- TRAP_ENTRY (R218): the trap that waits at its boundary, or a data error that falls due while the engine waits for its
design-cycle boundary (R215). -/
def Fab.trapEntry (f : Fab) (en : Nat) : Fab :=
  let e := f.engine en
  if e.halted || e.phase = .returning then f
  else
    match e.trap with
    | some x => f.enter en x
    | none =>
      match e.firstErr with
      | some d =>
        if e.phase = .waitBoundary && !f.lockStep en then
          let x := { e.dataTrap d (max d.at_ e.issueAt) with ret := e.get Ecs.DCFG_ENTRY * 4 }
          (f.setEng en { e with derr := e.derr.erase d }).enter en x
        else f
      | none => f

/-! ### Interrupts (R222, R223) -/

/-- Is ECLK `b` a boundary of the engine at which an interrupt may begin, no trap being taken there? -/
def Fab.intBoundary (f : Fab) (en b : Nat) : Bool :=
  let e := f.engine en
  let noErr := !e.derr.any (fun d => max d.at_ e.issueAt ≤ b)
  if e.phase = .waitBoundary then e.lastT < b && e.issueAt ≤ b && noErr && !e.quince.any (fun q => q.hold && b ≤ q.due)
  else if e.phase = .running then
    let p := f.plan en
    e.issueAt ≤ b && noErr && e.brkHit.isNone && !p.shut e b &&
      (match p.t with
        | none => true
        | some t => b < t || (b == t && (p.found (p.arrive en t) en t false).isNone))
  else false

/-- INTERRUPT_ENTRY (R222): conditions on PEND, IE, BUSY and the run mode, then entry with code 0x0F. PEND must be 1 since the start
of ECLK b − 1; IE and BUSY are as the next bundle would find them. -/
def Fab.interruptEntry (f : Fab) (en b : Nat) : Fab :=
  let e := f.engine en
  let g := f.applyEcs en b (fun w => w.seq ≤ e.seq + 1)
  let held := match f.engPart en with
    | some p => f.st p == 2 && !f.barrierMode p && f.activeIn p en
    | none => false
  let stepOk := !e.stepReq || f.bit Reg.DBG_ACCESS_STEPIE
  if e.halted || e.trap.isSome || e.haltReq.isSome || held || !stepOk || !e.bit Ecs.INTSTAT_PEND || b ≤ e.pendAt ||
      !(g.engine en).bit Ecs.MODE_IE || (g.engine en).bit Ecs.TRAPSTAT_BUSY || !f.intBoundary en b then f
  else
    let wait := e.phase == .waitBoundary
    let ret := if wait then e.get Ecs.DCFG_ENTRY * 4 else e.pc
    f.enter en ⟨0x0F, 0, false, ret, wait, ret, 0, 0, false, b, none⟩

/-! ### Return (R226, R145) -/

/-- The parked Quince operation is reissued at ECLK `r` when QP is 1 (R145). It keeps the floating-point setting of its issue, tests
no trap again and holds no bundle (log 91). -/
def Engine.reissue (e : Engine) (ct : Bool) (r : Nat) : Engine :=
  match e.parked with
  | some q => if e.bit Ecs.TRAPSTAT_QP then
      ({ e with parked := none }.set Ecs.QCTX_PEND 0).quinceStart { q with iss := r, due := r + q.count ct - 1, hold := false }
    else e
  | none => e

/-- RTE_RETURN (R226): the return sequence ends and the return point is the engine's next bundle. Every fixed-latency result of the
handler lands in the handler's bank; a MODE write in force from the next bundle counts for the reissue (R152). -/
def Fab.rteReturn (f : Fab) (en : Nat) : Fab :=
  let e := f.engine en
  if e.phase ≠ .returning then f
  else
    let r := e.rteAt + 8
    let f := f.perfTo en r (e.perfLost (e.seq + 1)) 0 []
    let ret := e.get Ecs.TRAPPC_PC * 4
    let f := f.updEng en (fun (e : Engine) =>
      let e := e.retire (max (r - 1) e.drainT)
      let e : Engine := { e with quince := none, pend := e.pend.filter (fun x => x.slot ≠ 9) }
      let psh := e.bit Ecs.TRAPSTAT_PSH
      let e := if e.shadow = psh then { e with loopBase := e.loops, loopEvs := [] } else e.swapBank
      let e := (e.set Ecs.TRAPSTAT_SH (b2n psh)).set Ecs.TRAPSTAT_BUSY 0
      let e := (e.set Ecs.MODE_PRIV (e.get Ecs.TRAPSTAT_PPRIV)).set Ecs.MODE_IE (e.get Ecs.TRAPSTAT_PIE)
      let e := e.dropCaches
      let wait := e.retWait.headD false
      let entry := e.get Ecs.DCFG_ENTRY * 4
      let e : Engine := { e with
        retWait := e.retWait.tail
        phase := if wait then .waitBoundary else .running
        trap := e.trap.map (fun (x : Trap) => if wait then { x with ret := entry, retWait := true } else x) }
      e.startAt ret r)
    let f := f.applyEcs en r (fun w => w.early (e.seq + 1))
    let ct := f.ctMode en
    let f := f.updEng en (fun e => e.reissue ct r)
    let e := f.engine en
    let f := if e.stepReq && e.trap.isNone then f.haltEng en 3 0 e.pc else f
    match f.engPart en with
    | some p => f.holdCheck p r
    | none => f

/-! ### Long results -/

/-- QUINCE_RESULT (R137): the result is written at the end of its ECLK and the scoreboard bits clear. In timed lock-step
an operation that met a floating-point trap condition fails the interval (R172). -/
def Fab.quinceResult (f : Fab) (en : Nat) : Fab :=
  let e := f.engine en
  match e.quince with
  | none => f
  | some q =>
    let f := f.setEng en { e.retire q.due with quince := none }
    match q.trap with
    | some x => f.lockTrap en ⟨6, 4, true, e.pc, false, q.bpc, 0, 0, false, q.due, some x⟩ q.due
    | none => f

/-- Is there an access of the engine to the same 32-byte row as `dev`, issued before `iss` and not yet performed (R309)? -/
def Fab.farBefore (f : Fab) (en dev iss : Nat) : Bool :=
  f.farSt.any (fun x => x.eng == en && x.dev / 32 == dev / 32 && x.iss < iss) ||
    (f.engine en).far.any (fun l => l.doneAt.isNone && l.dev / 32 == dev / 32 && l.iss < iss)

/-- The first ECLK from `w` at which the long-result port is free (R68). -/
def Engine.portFree (e : Engine) : Nat → Nat → Nat
  | 0, w => w
  | fuel + 1, w =>
    if e.quince.any (fun q => q.due == w) || e.pend.any (fun x => x.slot == 8 && x.due == w) then e.portFree fuel (w + 1)
    else w

/-- A far load's result that read poison (R215), written in ECLK `w`: a data error falls due, or entry that has begun and ends after
`w` records it. -/
def Engine.farPoison (e : Engine) (l : FarLd) (w : Nat) : Engine :=
  if e.first && e.bit Ecs.TRAPSTAT_BUSY && w < e.issueAt then
    if e.bit Ecs.TRAPCAUSE_DERR then e
    else (e.set Ecs.TRAPCAUSE_DERR 1).setEcsReg Ecs.DERRADDR (w64 (l.ea % 2 ^ 32))
  else { e with derr := e.derr ++ [⟨w + 1, l.ea, l.bpc, 6⟩] }

/-- A far access of engine `en` meets a borrowed bank at ECLK `at_`: the tester yields and the access waits to be sent again (R247,
R248, R291; log 97). In timed lock-step the interval fails. -/
def Fab.meetFar (f : Fab) (en a at_ : Nat) : Fab :=
  if f.lockStep en then f.lockYield en at_ true else f.testYield.confWait a 2 1

/-- FAR_LOAD_RESULT (R308): far load number `idx` is performed, and its result is written at the end of ECLK `at_`, one
later where the long-result port is taken (R68). Poison in design state fails the interval (R26). -/
def Fab.farLoadResult (f : Fab) (en idx at_ : Nat) : Fab :=
  let e := f.engine en
  match e.far[idx]? with
  | none => f
  | some l =>
    if l.doneAt.isSome || at_ ≤ l.iss || f.farBefore en l.dev l.iss then f
    else if f.borrowed l.dev then f.meetFar en l.dev at_
    else
      let w := e.portFree (e.pend.length + 1) at_
      let r := f.read 1 l.dev l.size
      let f := r.fab.updEng en (fun e =>
        let e := { e with far := e.far.set idx { l with doneAt := some w } }
        if r.bad.isSome then e.farPoison l w
        else e.addPend ⟨w, l.iss, 8, l.dst, BitVec.ofNat 256 r.data⟩)
      match r.bad, f.engPart en with
      | some a, some p => if f.inDesign a then f.failInterval p 2 (f.curDc p) w else f
      | _, _ => f

/-- FAR_STORE_PERFORMED (R309): far store number `idx` is performed at its target in ECLK `at_`. -/
def Fab.farStorePerformed (f : Fab) (idx at_ : Nat) : Fab :=
  match f.farSt[idx]? with
  | none => f
  | some x =>
    if at_ ≤ x.iss || f.farBefore x.eng x.dev x.iss then f
    else if f.borrowed x.dev then f.meetFar x.eng x.dev at_
    else
      let f := { f with farSt := f.farSt.eraseIdx idx }
      let f := (f.engWrite x.eng x.dev x.size x.data.toNat).fab
      match f.engPart x.eng with
      | some p => (f.journalEvents p at_).barrierTry p (at_ + 1)
      | none => f

/-! ### PUT (R300, R301, R251, R305) -/

/-- Port B of the Arcade bank of `tgt` takes a scheduled access that arrives at ECLK `at_` (R301): the ECLK in which it
is performed, none when the 16-entry queue is full. -/
def Fab.portB (f : Fab) (tgt at_ : Nat) : Option Nat × Fab :=
  let n := Store.get 0 f.pbT tgt
  if n ≤ at_ then (some at_, { f with pbT := Store.set 0 f.pbT tgt (at_ + 1) })
  else if at_ + 17 ≤ n then (none, f)
  else (some n, { f with pbT := Store.set 0 f.pbT tgt (n + 1) })

/-- The rank of an access among those that reach one port B in one ECLK (R301). -/
def Put.rank (u : Put) : Nat :=
  match u.src with
  | none => 1
  | some e => if u.brd then 2 else 3 + e % 8

/-- A PUT that completes with BUSY counts at its sender (R251). -/
def Fab.busy (f : Fab) (u : Put) : Fab :=
  match u.src with
  | some e => f.updEng e (fun x => x.set Ecs.ARCADE_BUSY_PBUSY (min (x.get Ecs.ARCADE_BUSY_PBUSY + 1) 0xFFFF))
  | none => f

/-- Lay the free bytes over the value of a load that met a PUT (R251): `lo`, `n` are the bank bytes of the colliding
words. -/
def PortA.spoil (a : PortA) (v : NetWord) (lo n free : Nat) : NetWord :=
  let raw := overlay v.toNat a.off a.len lo n free
  if a.ext = 0 then BitVec.ofNat 256 raw
  else (extendField (a.ext == 2) (8 * a.len) (raw % 2 ^ (8 * a.len))).setWidth 256

/-- A same-word collision of a port-B write, performed at ECLK `s`, with accesses of port A (R251, R252). -/
def Fab.collide (f : Fab) (u : Put) (s : Nat) : Fab × Bool :=
  let e := f.engine u.tgt
  let lo := u.off / 16 * 16
  let n := (u.off + u.size - 1) / 16 * 16 + 16 - lo
  let hits := e.portA.filter (fun a => a.at_ == s && a.off / 16 ≤ (lo + n - 1) / 16 && lo / 16 ≤ (a.off + a.len - 1) / 16)
  if hits = [] then (f, false)
  else
    let r := f.free 256
    let lds := hits.filter (fun a => a.load)
    let e : Engine := { e with pend := e.pend.map (fun (x : PendWr) =>
      match lds.find? (fun (a : PortA) => a.iss == x.iss && a.dst == x.dst) with
      | some a => ({ x with val := a.spoil x.val lo n r.1 } : PendWr)
      | none => x) }
    let e := e.set Ecs.ARCADE_BUSY_LASTOFF (match hits.getLast? with
      | some a => max lo (a.off / 16 * 16)
      | none => lo)
    let r2 := r.2.free 8
    let e := e.set Ecs.ARCADE_BUSY_SRC (u.src.getD r2.1)
    let e := e.set Ecs.ARCADE_BUSY_RCOLL (min (e.get Ecs.ARCADE_BUSY_RCOLL + lds.length) 0xFFFF)
    (r2.2.setEng u.tgt e, true)

/-- May a PUT or link write land at the offset (R112, R299)? -/
def Fab.putOk (f : Fab) (u : Put) : Bool :=
  u.off + u.size ≤ 0x1000 ||
    (0x1800 ≤ u.off && u.off + u.size ≤ 0x1800 + 32 * (f.engine u.tgt).get Ecs.DCFG_WORDS && u.off + u.size ≤ 0x2000)

/-- Write what a transfer carries into the target's Arcade bank: PUT bytes, or the code word of a link write, poison as
poison (R327, R331). -/
def Fab.putData (f : Fab) (u : Put) : Fab :=
  let a := arcBase u.tgt + u.off
  if u.raw then
    let r := rsDecode false (BitVec.ofNat 160 u.data.toNat)
    if r.out = .poison then f.poison (a / 16) else (f.write 1 a 16 (natBits r.word.toNat 32 128)).fab
  else (f.write 1 a u.size u.data.toNat).fab

/-- A scheduled access meets the Arcade bank of engine `en` borrowed (R247, R248): the tester yields. -/
def Fab.meetPut (f : Fab) (en s : Nat) : Fab :=
  if !f.borrowed (arcBase en) then f
  else if f.lockStep en then f.lockYield en s true
  else (f.free 96).2.testYield.confBump (en / 8) 2 (1 + (f.free 96).1 % 96)

/-- A scheduled write is performed at port B at ECLK `s` (R113, R116, R251, R252, R299). `late` says it was delayed. -/
def Fab.land (f : Fab) (u : Put) (s : Nat) (late : Bool) : Fab :=
  let e := f.engine u.tgt
  if !f.putOk u || (0x1800 ≤ u.off && e.bnd.1 ≤ s && s < e.bnd.2) then f.failOf u.tgt 3 s
  else
    let c := f.collide u s
    let f := (c.1.putData u).updEng u.tgt (fun e => e.markWritten u.off u.size)
    if c.2 || late then (f.busy u).failOf u.tgt 3 s else f

/-- A discard of a scheduled transfer in the Boulevard (R305, R306) is recorded. -/
def Fab.bviol (f : Fab) (router input : Nat) : Fab :=
  let f := f.stick Reg.LINK_BVIOL_COUNT 1
  if f.bit Reg.LINK_BVIOL_VALID then f
  else ((f.set Reg.LINK_BVIOL_ROUTER router).set Reg.LINK_BVIOL_INPUT input).set Reg.LINK_BVIOL_VALID 1

/-- Fail the interval of a transfer's partition. -/
def Fab.failPut (f : Fab) (u : Put) (now : Nat) : Fab :=
  match f.putPart u with
  | some p => f.failInterval p 3 (f.curDc p) now
  | none => f

/-- A scheduled write reaches its target: discarded in the Boulevard, or taken by port B. A link read reaches its
transmitter, which sends the flit (R327). -/
def Fab.arrivePut (f : Fab) (u : Put) : Fab :=
  match u.lost with
  | some l => ((f.bviol l.1 l.2.1).busy u).failPut u l.2.2
  | none =>
    if 192 ≤ u.tgt then f.emit (.sched (u.tgt - 192) (BitVec.ofNat 160 u.data.toNat))
    else
      let r := f.portB u.tgt u.vis
      match r.1 with
      | some s => (r.2.meetPut u.tgt s).land u s (s ≠ u.vis)
      | none => (r.2.busy u).failOf u.tgt 3 u.vis

/-- Must a link read of the target's bank come first: one that is due at or before ECLK `x` (R301, R327)? -/
def Fab.readFirst (f : Fab) (tgt x : Nat) : Bool :=
  match f.engPart tgt with
  | some p => f.st p == 2 && (f.portsOf p).any (fun c =>
      let l := f.port c
      let idx := if l.txDcn = f.curDc p then l.txIdx else 0
      let ent := f.slotEntry c false idx
      f.portActive c && idx < f.get (Reg.LINK_TBL_TXCNT c) && entEng ent == tgt && (f.share p).openB + entOff ent ≤ x)
  | none => false

/-- PUT_VISIBLE (R300): transfer number `idx` reaches its Arcade bank. Those that come before it at that bank must have
done so (R301). -/
def Fab.putVisible (f : Fab) (idx : Nat) : Fab :=
  match f.puts[idx]? with
  | none => f
  | some u =>
    if u.lost.isNone && (f.readFirst u.tgt u.vis || f.puts.any (fun v => v.tgt == u.tgt && v.lost.isNone &&
        (v.vis < u.vis || (v.vis == u.vis && v.rank < u.rank)))) then f
    else
      let f := ({ f with puts := f.puts.eraseIdx idx, past := f.past ++ [u] }).arrivePut u
      let f := if 192 ≤ u.tgt then f.drainSq (u.tgt - 192) else f
      match f.putPart u with
      | some p => f.barrierTry p (u.vis + 1)
      | none => f

/-! ### The meanings -/

/-- Is the wrap of counter `k` by `n` occurrences an event of the engine now (R84, R85)? -/
def Engine.perfWraps (e : Engine) (k n : Nat) : Bool := e.perfOn k && 2 ^ 48 ≤ e.get (Ecs.PERF_COUNT k) + n

/-- The counter's event adds `n` occurrences and wraps (R85). -/
def Fab.perfWrap (f : Fab) (en k n : Nat) : Fab :=
  if (f.engine en).perfWraps k n then f.perfBump en k n else f

/-- PERF_COUNTER_WRAP. -/
def execPerfCounterWrap (e k n : Nat) (s : State) : Host.Outcome State Fault Refusal :=
  if e < 192 && k < 4 && n ≤ 8 then .next { s with fab := s.fab.clocked e (fun f => f.perfWrap e k n) } else .refused .noSuchUnit

/-- QUINCE_RESULT. -/
def execQuinceResult (e : Nat) (s : State) : Host.Outcome State Fault Refusal :=
  if e < 192 then .next { s with fab := s.fab.clocked e (fun f => f.quinceResult e) } else .refused .noSuchUnit

/-- FAR_LOAD_RESULT. -/
def execFarLoadResult (e idx at_ : Nat) (s : State) : Host.Outcome State Fault Refusal :=
  if e < 192 then .next { s with fab := s.fab.clocked e (fun f => f.farLoadResult e idx at_) } else .refused .noSuchUnit

/-- FAR_STORE_PERFORMED. -/
def execFarStorePerformed (x : FarDone) (s : State) : Host.Outcome State Fault Refusal :=
  .next { s with fab := s.fab.whenActive (fun f => f.farStorePerformed x.idx x.at_) }

/-- PUT_VISIBLE. -/
def execPutVisible (idx : Nat) (s : State) : Host.Outcome State Fault Refusal :=
  .next { s with fab := s.fab.whenActive (fun f => f.putVisible idx) }

/-- TRAP_ENTRY. -/
def execTrapEntry (e : Nat) (s : State) : Host.Outcome State Fault Refusal :=
  if e < 192 then .next { s with fab := s.fab.clocked e (fun f => f.trapEntry e) } else .refused .noSuchUnit

/-- INTERRUPT_ENTRY. -/
def execInterruptEntry (e b : Nat) (s : State) : Host.Outcome State Fault Refusal :=
  if e < 192 then .next { s with fab := s.fab.clocked e (fun f => f.interruptEntry e b) } else .refused .noSuchUnit

/-- RTE_RETURN. -/
def execRteReturn (e : Nat) (s : State) : Host.Outcome State Fault Refusal :=
  if e < 192 then .next { s with fab := s.fab.clocked e (fun f => (f.rteReturn e).barrierOf e ((f.engine e).rteAt + 8)) } else .refused .noSuchUnit

end Sys2Proof.Machine
end

