-- ==== Sys2Proof/Machine/Boundary.lean ====
section
/-! DEFINITION. Release of a share, stimulus, and the design-cycle boundary (R114–R117, R336, R337, R358–R362, R368,
R588). -/

namespace Sys2Proof.Machine

/-! ### Readiness (R25, R341, R344) -/

/-- A share that has become ready says so (R25): in its REPORT while that has not gone up, by READY after it (R341, R342). A
STARTING share with a failed table check is not ready (R326); a HOLDING share checks its hold. -/
def Fab.readyCheck (f : Fab) (p now : Nat) : Fab :=
  let s := f.share p
  if f.st p = 1 then
    if !s.readyOwn && !f.tblErr p && f.readyFor p (f.planEnd p (f.planEnd p (f.get (Reg.SQ_DCN_DCN p) + 1) + 1)) then
      (f.updSh p (fun s => { s with readyOwn := true })).combineReady p (f.get (Reg.SQ_DCN_DCN p) + 1) now
    else f
  else
    let f := if 2 ≤ f.st p && f.st p ≤ 4 && !s.goSent && !s.readyOwn && f.readyFor p (f.planEnd p (s.iEnd + 1)) then
        match s.ownRep with
        | some r =>
          if s.sentUp then (f.updSh p (fun s => { s with readyOwn := true })).combineReady p (s.iEnd + 1) now
          else f.updSh p (fun s => { s with ownRep := some { r with ready := true }, readyOwn := true })
        | none => (f.updSh p (fun s => { s with readyOwn := true })).combineReady p (s.iEnd + 1) now
      else f
    f.holdCheck p now

/-! ### Commands of the command queue (R360, R361) -/

/-- Merge the bytes of `data` that `mask` names into the `n` bytes at `a`: whole when all are named, else with the bytes
that stand there. The flag says that the word read as poison, which leaves it. -/
def Fab.mergeBytes (f : Fab) (a n mask data : Nat) : Fab × Bool :=
  if mask % 2 ^ n = 0 then (f, false)
  else if mask % 2 ^ n = 2 ^ n - 1 then ((f.write 2 a n data).fab, false)
  else
    let r := f.read 2 a n
    if r.bad.isSome then (r.fab, true)
    else
      let v := (List.range n).foldl (fun v i =>
        if mask.testBit i then natSetBits v (8 * i) 8 (natBits data (8 * i) 8) else v) r.data
      ((r.fab.write 2 a n v).fab, false)

/-- Merge into the two code words of a 32-byte row. -/
def Fab.mergeRow (f : Fab) (a mask data : Nat) : Fab × Bool :=
  let r1 := f.mergeBytes a 16 (natBits mask 0 16) (natBits data 0 128)
  let r2 := r1.1.mergeBytes (a + 16) 16 (natBits mask 16 16) (natBits data 128 128)
  (r2.1, r1.2 || r2.2)

/-- The state word that a committed-view offset names (R363): engine and word number. -/
def stateWord (a : Nat) : Nat × Nat := (a / 0x800, a % 0x800 / 32)

/-- Is the offset a state word of an active engine below W (R360)? -/
def Fab.stateOk (f : Fab) (p a : Nat) : Bool :=
  a < 192 * 0x800 && f.activeIn p (stateWord a).1 && (stateWord a).2 < (f.engine (stateWord a).1).get Ecs.DCFG_WORDS

/-- The device address behind a committed-view offset in the DM and block-memory windows of the view, for memory of the
partition that is declared journaled (R363). -/
def Fab.viewMem (f : Fab) (p a : Nat) : Option Nat :=
  let ok (d : Nat) (blk : Nat) : Option Nat := if f.unitPart blk == some p && f.journaled d then some d else none
  if 0x1000000 ≤ a && a < 0x4000000 then
    let e := (a - 0x1000000) / 0x40000
    let o := (a - 0x1000000) % 0x40000
    if o < 0x3C000 && f.activeIn p e then ok (engBase e + 0x40000 + o) (e / 8) else none
  else if 0x4000000 ≤ a && a < 0x7000000 then
    let b := (a - 0x4000000) / 0x200000
    let o := (a - 0x4000000) % 0x200000
    if o < 0x140000 then ok (bmBase b + o) b else none
  else none

/-- The device address behind a DDR offset in a journaled granule of the partition. -/
def Fab.viewDdr (f : Fab) (p o : Nat) : Option Nat :=
  let a := ddrBase + o
  if o < 0x8000000000 && f.granPart (o / 0x10000000) == some p && f.journaled a then some a else none

/-- The device address that a MEMWRITE writes (R360). -/
def Fab.memTarget (f : Fab) (p : Nat) (c : Cmd) : Option Nat := if c.ddr then f.viewDdr p c.addr else f.viewMem p c.addr

/-- Does the command name what it may (R360)? -/
def Fab.cmdOk (f : Fab) (p : Nat) (c : Cmd) : Bool :=
  c.clean && 1 ≤ c.kind && c.kind ≤ 5 && c.addr % 32 == 0 && (!c.ddr || c.kind == 4) &&
    (c.kind == 5 || (if c.kind = 4 then (f.memTarget p c).isSome else f.stateOk p c.addr))

/-- Merge into a row that a command names; a word that reads as poison keeps its bytes and is noted (R26, R278). -/
def Fab.cmdRow (f : Fab) (p a mask data : Nat) : Fab :=
  let r := f.mergeRow a mask data
  if r.2 then r.1.updSh p (fun s => { s with sBad := true }) else r.1

/-- Apply a good command to the state that the next design cycle starts from. A force outlasts a deposit (R37), and a MEMWRITE
whose entry finds the journal full is not made (R351). -/
def Fab.applyCmd (f : Fab) (p : Nat) (c : Cmd) : Fab :=
  let live := slotBase (stateWord c.addr).1 (f.share p).live + 32 * (stateWord c.addr).2
  if c.kind = 1 then
    let forced := (f.share p).force.foldl (fun (m : BitVec 32) x => if x.addr = c.addr then m ||| x.mask else m) 0
    f.cmdRow p live (BitVec.ofNat 32 c.mask &&& ~~~forced).toNat c.data
  else if c.kind = 2 then
    let f := f.cmdRow p live c.mask c.data
    f.updSh p (fun s =>
      let bytes (v : Nat) : Nat := (List.range 32).foldl (fun (v : Nat) i =>
        if c.mask.testBit i then natSetBits v (8 * i) 8 (natBits c.data (8 * i) 8) else v) v
      let upd (x : Force) : Force :=
        ⟨x.addr, x.mask ||| BitVec.ofNat 32 c.mask, BitVec.ofNat 256 (bytes x.data.toNat)⟩
      if s.force.any (fun x => x.addr == c.addr) then
        { s with force := s.force.map (fun x => if x.addr = c.addr then upd x else x) }
      else
        let new : Force := ⟨c.addr, BitVec.ofNat 32 c.mask, BitVec.ofNat 256 c.data⟩
        { s with force := s.force ++ [new] })
  else if c.kind = 3 then
    let drop (x : Force) : Force :=
      if x.addr = c.addr then ⟨x.addr, x.mask &&& ~~~(BitVec.ofNat 32 c.mask), x.data⟩ else x
    f.updSh p (fun s => { s with force := (s.force.map drop).filter (fun x => x.mask ≠ 0) })
  else if c.kind = 4 then
    match f.memTarget p c with
    | some a =>
      let r := f.journalRow p a (f.curDc p)
      if r.2 then r.1.cmdRow p a c.mask c.data else r.1
    | none => f
  else f

/-- The STATUS with which a command completes at DCN `m` (R360, R361). -/
def Fab.cmdStatus (f : Fab) (p m : Nat) (c : Cmd) : Nat :=
  if !f.cmdOk p c then 2
  else if c.exact && c.nb ≠ m then 3
  else if c.kind = 2 && 64 ≤ (f.share p).force.length && !(f.share p).force.any (fun x => x.addr == c.addr) then 4
  else 1

/-- A command record as written on completion: NOT_BEFORE holds m, STATUS the outcome. -/
def cmdDone (raw m st : Nat) : Nat := natSetBits (natSetBits raw 0 64 m) 80 8 st

/-- Log bytes that the input log must keep free for the stimulus of the interval that begins (R362). -/
def Fab.stimBytes (f : Fab) (p last : Nat) : Nat :=
  (f.stimScan p last (f.stimFuel p) (f.share p).stRd (f.share p).lastSt 0).2

/-- Take commands from the queue at the boundary with DCN `m` (R361). `fuel` bounds their number. -/
def Fab.takeCmds (f : Fab) (p m : Nat) : Nat → Fab
  | 0 => f
  | fuel + 1 =>
    let off := f.cons p 1
    if f.ringDist p 1 off (f.prod p 1) < 64 then f
    else
      let r := f.ringRead p 1 off 64
      let f := r.fab
      let c := decodeCmd r.data
      if m < c.nb || f.ilogFree p < 64 + f.stimBytes p (f.share p).iEnd then f
      else
        let st := f.cmdStatus p m c
        let f := if st = 1 then f.applyCmd p c else f
        let done := cmdDone c.raw m st
        let f := f.ringWrite p 1 off 64 done
        let f := f.ilogAppend p (m + 1) 64 done
        let rec_ : CmdRec :=
          ⟨m, c.kind, c.addr, c.ddr, BitVec.ofNat 32 c.mask, BitVec.ofNat 256 c.data, BitVec.ofNat 512 done⟩
        let f := f.updSh p (fun s => { s with cmds := s.cmds ++ [rec_] })
        let f := f.set (Reg.SQ_PTR_CONS p 1) (f.ringAdv p 1 off 64)
        (f.raise (65 + p) true).takeCmds p m fuel

/-- Apply again the commands already applied at the boundary with DCN `m` (R37): their records return to the log. -/
def Fab.redoCmds (f : Fab) (p m : Nat) : Fab :=
  ((f.share p).cmds.filter (fun x => x.m == m)).foldl (fun g x =>
    let c := decodeCmd x.raw.toNat
    let g := if natBits x.raw.toNat 80 8 = 1 then g.applyCmd p c else g
    g.ilogAppend p (m + 1) 64 x.raw.toNat) f

/-- Merge the forces in the table into the LIVE slots (R361). -/
def Fab.applyForces (f : Fab) (p : Nat) : Fab × Bool :=
  (f.share p).force.foldl (fun (g : Fab × Bool) x =>
    let m := g.1.mergeRow (slotBase (stateWord x.addr).1 (f.share p).live + 32 * (stateWord x.addr).2) x.mask.toNat
      x.data.toNat
    (m.1, g.2 || m.2)) (f, false)

/-! ### Release (R588, R392, R352) -/

/-- Start an engine's issue at ECLK `t` from IM offset `pc` as a release does (R195, R203, R117, R228). -/
def Engine.begin (e : Engine) (pc t : Nat) : Engine :=
  let e := e.dropCaches.idleLoops
  let e := { e with written := 0, phase := .running, trap := none, retWait := [], portA := [], pmHost := [], nextSt := [] }
  let e := { e with relPriv := e.bit Ecs.MODE_PRIV, relIe := e.bit Ecs.MODE_IE }
  let e := if e.halted then e.set Ecs.DPC_PC (pc / 4) else e
  e.startAt pc t

/-- An engine begins as though it executed RTE (R392). -/
def Fab.releaseStart (f : Fab) (en t : Nat) : Fab :=
  let f := f.perfTo en t [] 0 []
  let ct := f.ctMode en
  f.updEng en (fun (e : Engine) =>
    let e := e.drain
    let psh := e.bit Ecs.TRAPSTAT_PSH
    let e := if e.shadow == psh then e else e.swapBank
    let e := (e.set Ecs.TRAPSTAT_SH (b2n psh)).set Ecs.TRAPSTAT_BUSY 0
    let e := (e.set Ecs.MODE_PRIV (e.get Ecs.TRAPSTAT_PPRIV)).set Ecs.MODE_IE (e.get Ecs.TRAPSTAT_PIE)
    (e.begin (e.get Ecs.TRAPPC_PC * 4) t).reissue ct t)

/-- An engine begins at ENTRY after a rollback or a hold. -/
def Fab.releaseEntry (f : Fab) (en t : Nat) : Fab :=
  (f.perfTo en t [] 0 []).updEng en (fun e => e.drain.begin (e.get Ecs.DCFG_ENTRY * 4) t)

/-- Do the active engines start from ECS.TRAPPC (a start), or from ECS.DCFG.ENTRY? An engine stopped by a double fault stays
stopped over a hold (R221). -/
def Fab.releaseEng (f : Fab) (k : RelKind) (t en : Nat) : Fab :=
  if k = .start then f.releaseStart en t
  else if k = .hold && (f.engine en).phase == .stopped then f
  else f.releaseEntry en t

/-- The restore of a rollback had not completed by T (R352): the device fails the interval again with the cause of the rollback,
where it knows it, and that counts toward the retry limit. -/
def Fab.restoreLate (f : Fab) (p t : Nat) : Fab :=
  let s := f.share p
  let own := f.get (Reg.SQ_CDCN_DCN p) < s.failDcn
  let cause := if own then s.lastFail else 0
  let f := f.updSh p (fun s => { s with relT := none })
  if f.isRoot p then f.rootRollback p cause t
  else (f.updSh p (fun s => { s with failSent := true })).sendUp p 0x20 (if own then s.failDcn else f.curDc p) cause 1

/-- ENGINE_RELEASE (R588): at ECLK `t`, the first in which the timebase has reached the T that a GO or DECIDE named, the active
engines issue their first bundle. `restored` says whether a rollback's restore had completed by T (R352). Commands that came
since the share stopped or held are applied first (R37); a rollback applies those already applied there again. -/
def Fab.release (f : Fab) (p t : Nat) (restored : Bool) : Fab :=
  match (f.share p).relT with
  | none => f
  | some (k, tt) =>
    if t ≠ tt || f.tblErr p || !(f.st p = 1 || f.st p = 3 || f.st p = 4) then f
    else if k = .rollback && !restored then (f.seen p t).restoreLate p t
    else
      let f := f.seen p t
      let m := f.get (Reg.SQ_DCN_DCN p)
      let f := f.set (Reg.SQ_STAT_STATE p) 2
      let f := f.set (Reg.SQ_STAT_WAITING p) 0
      let f := f.updSh p (fun s => { s with
        relT := none
        iStart := m + 1
        jrows := []
        decAt := t
        bWait := false
        nextB := t + f.get (Reg.SQ_SCHED_FIRST p)
        openB := if f.barrierMode p then t else t + f.get (Reg.SQ_SCHED_FIRST p) - f.get (Reg.SQ_SCHED_L p)
        relFirst := m + 1
        holdSent := false
        holdChild := []
        readyChild := if k = .start then [] else s.readyChild
        readyOwn := s.readyOwn || k == .start
        goSent := s.goSent || k == .start
        barOwn := none
        barChild := []
        barSent := false
        relDcn := none })
      let f := f.clearPorts p
      let e := f.planEnd p (m + 1)
      let f := f.updSh p (fun s => { s with iEnd := e })
      let f := if (f.share p).cmdRedo then
          (f.updSh p (fun s => { s with cmdRedo := false })).redoCmds p m
        else f
      let f := if k = .rollback then f
        else f.takeCmds p m (f.ringDist p 1 (f.cons p 1) (f.prod p 1) / 64 + 1)
      let r := f.applyForces p
      let f := if r.2 then r.1.updSh p (fun s => { s with sBad := true }) else r.1
      let f := (f.actives p).foldl (fun g en => g.releaseEng k t en) f
      let f := f.journalEvents p t
      match (f.share p).failAtResume with
      | some c => (f.updSh p (fun s => { s with failAtResume := none })).failInterval p c (m + 1) t
      | none => f

/-! ### Stimulus (R358, R359) -/

/-- The last design cycle whose records may be written now: the next one, or before a release the first one. -/
def Fab.stimMax (f : Fab) (p : Nat) : Nat :=
  if f.st p = 2 && !(f.share p).waitStop then f.curDc p + 1 else f.curDc p

/-- Write the rows of a record into the stimulus half of its design cycle. -/
def Fab.stimRows (f : Fab) (p off : Nat) (h : StimHdr) : Fab :=
  let r := f.ringRead p 0 (f.ringAdv p 0 off 32) (32 * h.nrows)
  if r.bad.isSome then r.fab
  else (r.fab.write 2 (arcBase h.eng + stimHalf h.dcn + 32 * h.row) (32 * h.nrows) r.data).fab

/-- STIMULUS_WRITE (R359): the Square takes the next stimulus record of a share that starts or runs. -/
def Fab.stimulusWrite (f : Fab) (p : Nat) : Fab :=
  let s := f.share p
  let off := s.stRd
  if f.st p = 0 || f.st p = 5 || f.ringDist p 0 off (f.prod p 0) < 32 then f
  else
    let r := f.ringRead p 0 off 32
    let h := f.stimHdr p r.data s.lastSt
    let f := r.fab
    if f.ringDist p 0 off (f.prod p 0) < h.size then f
    else
      let next := f.ringAdv p 0 off h.size
      if !h.ok then (f.set (Reg.SQ_STAT_QERR p) 1).updSh p (fun s => { s with stRd := next })
      else if h.mark then f.updSh p (fun s => { s with stRd := next, lastSt := h.dcn, lastMk := h.dcn })
      else if f.stimMax p < h.dcn then f
      else
        let f := f.stimRows p off h
        let rec_ := f.ringRead p 0 off h.size
        let f := rec_.fab.ilogAppend p h.dcn h.size rec_.data
        f.updSh p (fun s => { s with stRd := next, lastSt := h.dcn })

/-- Are the stimulus records for design cycle `n` all present and written (R25, R358, R359): a MARK for `n` or more taken, or the
next record in the ring one of a later design cycle or such a MARK? -/
def Fab.stimDone (f : Fab) (p n : Nat) : Bool :=
  let s := f.share p
  if n ≤ s.lastMk then true
  else if f.ringDist p 0 s.stRd (f.prod p 0) < 32 then false
  else
    let h := f.stimHdr p (f.ringRead p 0 s.stRd 32).data s.lastSt
    h.ok && (n < h.dcn || (h.mark && n ≤ h.dcn))

/-! ### The boundary -/

/-- Copy the written bytes of the NEXT area of an engine into its LIVE slot (R114). The flag says that a word read as
poison (R278, R117). -/
def Fab.copyNext (f : Fab) (en live : Nat) : Fab × Bool :=
  let w := (f.engine en).written
  (List.range (2 * (f.engine en).get Ecs.DCFG_WORDS)).foldl (fun (g : Fab × Bool) i =>
    let mask := natBits w.toNat (16 * i) 16
    if mask = 0 then g
    else
      let r := g.1.read 2 (arcBase en + 0x1800 + 16 * i) 16
      if r.bad.isSome then (r.fab, true)
      else
        let m := r.fab.mergeBytes (slotBase en live + 16 * i) 16 mask r.data
        (m.1, g.2 || m.2)) (f, false)

/-- The NEXT stores of the latest bundle that would write in ECLK `b` or later, in the engine's boundary, are discarded (R116). The
flag says that there was one. -/
def Fab.dropLate (f : Fab) (b en : Nat) : Fab × Bool :=
  let e := f.engine en
  let late := e.nextSt.filter (fun x => b ≤ x.at_)
  if late = [] then (f, false)
  else
    let base := arcBase en
    let v := undoStores 0x1800 0x800 (e.nextSt.reverse.map (fun x => (x.off, x.len, x.old, x.at_ < b)))
      (readN f.mem (base + 0x1800) 0x800)
    let f := late.foldl (fun g x =>
      let lo := max x.off 0x1800
      (g.write 1 (base + lo) (min (x.off + x.len) 0x2000 - lo) (v / 2 ^ (8 * (lo - 0x1800)))).fab) f
    let clear := late.foldl (fun (w : BitVec 2048) x => w ||| x.set) 0
    (f.updEng en (fun e => (e.nextSt.filter (fun x => x.at_ < b)).foldl (fun g x => g.markWritten x.off x.len)
      { e with written := e.written &&& ~~~clear }), true)

/-- ECLK that the boundary of an engine takes (R114). -/
def Fab.boundaryLen (f : Fab) (en : Nat) : Nat := 2 + ((f.engine en).get Ecs.DCFG_WORDS + 3) / 4

/-- One engine passes its boundary that begins at `b` (R114, R195, R198, R228): it issues from ENTRY after it, or waits
when no design cycle follows. -/
def Fab.passBoundary (f : Fab) (b : Nat) (go : Bool) (en : Nat) : Fab :=
  let h := b + f.boundaryLen en
  let f := (f.perfFlush en).perfPut en ((f.engine en).perfInc [(0x14, 1)])
  f.updEng en (fun e =>
    let e := e.dropCaches.idleLoops
    let ph : Phase := if e.phase = .stopped then .stopped else if go then .running else .waitBoundary
    let e := { e with written := 0, bnd := (b, h), trap := none, phase := ph, nextSt := [] }
    e.startAt (e.get Ecs.DCFG_ENTRY * 4) h)

/-- Write the capture records of a boundary (R368). The flag says that a state word read as poison (R26, R278). -/
def Fab.capture (f : Fab) (p n : Nat) : Fab × Bool :=
  (f.actives p).foldl (fun (x : Fab × Bool) en =>
    let g := x.1
    let w := (g.engine en).get Ecs.DCFG_WORDS
    let r := g.read 2 (slotBase en (g.share p).live) (32 * w)
    let sz := g.capSize en
    let off := (g.share p).capW
    let g := r.fab.ringWrite p 3 off sz (n + en * 2 ^ 64 + w * 2 ^ 72 + r.data * 2 ^ 256)
    let off' := g.ringAdv p 3 off sz
    (g.updSh p (fun s => { s with capW := off', capRecs := s.capRecs ++ [(n, off')] }), x.2 || r.bad.isSome)) (f, false)

/-- A page slot that holds no role (R336). -/
def Share.freeSlot (s : Share) : Nat :=
  ((List.range 4).find? (fun k => k ≠ s.live && k ≠ s.comm && s.pendS ≠ some k && s.prior ≠ some k && s.held ≠ some k)).getD 0

/-- Has the device a reason to ask for a hold at the end of an interval (R223, R531)? -/
def Fab.wantsHold (f : Fab) (p : Nat) : Bool :=
  f.bit (Reg.SQ_CTL_HOLDREQ p) || (!f.barrierMode p && (f.actives p).any (fun en =>
    let e := f.engine en
    e.haltReq.isSome || (e.bit Ecs.INTSTAT_PEND && e.bit Ecs.MODE_IE)))

/-- Does the interval in progress end with design cycle `n` (R23)? -/
def Fab.endsAt (f : Fab) (p n : Nat) : Bool :=
  n == (f.share p).iEnd || f.exactEnd p n (f.ringDist p 1 (f.cons p 1) (f.prod p 1) / 64 + 1) (f.cons p 1)

/-- What an attempt to begin a boundary meets. -/
inductive BndAns where
  | never   -- no such boundary begins at that ECLK
  | waits   -- the share waits for the decision or the GO (R24, R337)
  | lacks   -- in barrier mode it waits for stimulus or for capture space (R359, R368)
  | begins
  deriving DecidableEq, Repr

/-- Does no design cycle follow the boundary that ends design cycle `n`: the interval ends there under STOP or HOLD (R344), or at
the largest DCN (R20)? -/
def Fab.stopsAt (f : Fab) (p n : Nat) : Bool :=
  f.endsAt p n && ((f.share p).dStop || (f.share p).dHold || n == 0xFFFFFFFFFFFFFFFF)

/-- May the boundary that ends design cycle `n` begin at ECLK `b` (R21, R115, R337, R349, R359, R368)? In timed lock-step it
begins at the ECLK of the schedule, or where it ends an interval at the later of that and of the arrival of the decision and the
T of the GO; in barrier mode at the receipt of RELEASE, or of the last of what it waits for. -/
def Fab.boundaryOk (f : Fab) (p n b : Nat) : BndAns :=
  let s := f.share p
  let last := f.endsAt p n
  let stops := f.stopsAt p n
  let held := last && !(s.pendS.isNone && (stops || s.goNext.isSome))
  if f.barrierMode p then
    let engines := (f.actives p).all (fun en =>
      let e := f.engine en
      e.phase == .waitBoundary && !e.halted && e.haltReq.isNone && e.trap.isNone && e.derr == [] && e.lastT < b)
    let from_ := max s.relAt (if last then s.decAt else 0)
    if !engines || s.relDcn ≠ some n || b < from_ then .never
    else if held then .waits
    else if !(stops || f.stimDone p (n + 1)) || (f.actives p).any (fun en => f.borrowed (arcBase en)) ||
        (f.bit (Reg.SQ_CTL_CAPEN p) && f.capFree p < ((f.actives p).map f.capSize).sum) then .lacks
    else if b = from_ || s.bWait then .begins
    else .never
  else
    let from_ := if last then max s.nextB (max s.decAt (if stops then 0 else s.goNext.getD 0)) else s.nextB
    if b < s.nextB then .never
    else if held then .waits
    else if b < from_ then .waits
    else if b = from_ then .begins
    else .never

/-- What an interval's end adds to a boundary (R336, R341, R361): PENDING is written, commands are taken, the next interval
is opened, and the device's own REPORT is ready. `now` is the ECLK in which the boundary completes. -/
def Fab.endInterval (f : Fab) (p n now : Nat) (clean : Bool) : Fab :=
  let s := f.share p
  let k := s.freeSlot
  let r := (f.actives p).foldl (fun (g : Fab × Bool) en =>
    let c := g.1.copyPage en s.live k
    (c.1, g.2 || c.2.isSome)) (f, false)
  let f := r.1
  let stop := f.stopsAt p n
  let f := f.updSh p (fun s => { s with
    pendS := some k
    pendDcn := n
    forcePend := s.force
    iStart := n + 1
    ivNum := (s.ivNum + 1) % 256
    jrows := []
    goNext := none
    goSent := false
    endSent := false
    waitStop := stop })
  let e := f.planEnd p (n + 1)
  let f := f.updSh p (fun s => { s with iEnd := e })
  let f := f.redoCmds p n
  let f := f.takeCmds p n (f.ringDist p 1 (f.cons p 1) (f.prod p 1) / 64 + 1)
  let fr := f.applyForces p
  let f := if fr.2 then fr.1.updSh p (fun s => { s with sBad := true }) else fr.1
  let f := f.set (Reg.SQ_STAT_WAITING p) (b2n stop)
  let ok := clean && !r.2 && !(s.failSent && s.failDcn ≤ n)
  let rep : Rep := ⟨n, false, 0, f.readyFor p (f.planEnd p (e + 1)), s.stopReq && !s.stopSent, f.wantsHold p⟩
  let f := f.updSh p (fun s => { s with
    ownRep := if ok then some rep else none
    readyOwn := rep.ready
    stopSent := s.stopSent || (ok && rep.stop) })
  if r.2 then f.failInterval p 2 n now else f

/-- Has an engine ended its design cycle before ECLK `b`: its DCEND bundle issued by b − 1 (R114, R115)? -/
def Engine.endedBy (e : Engine) (b : Nat) : Bool := e.phase == .waitBoundary && e.lastT < b

/-- DESIGN_CYCLE_BOUNDARY (R114, R115): the boundary of every active engine of the share begins at ECLK `b`. No design cycle runs
after the one with the largest DCN (R20). -/
def Fab.boundary (f : Fab) (p b : Nat) : Fab :=
  let n := f.curDc p
  if f.st p ≠ 2 || (f.share p).waitStop || 2 ^ 64 ≤ n then f
  else
    match f.boundaryOk p n b with
    | .never => f
    | .waits => ((f.seen p b).set (Reg.SQ_STAT_WAITING p) 1).updSh p (fun s => { s with bWait := true })
    | .lacks => (f.seen p b).updSh p (fun s => { s with bWait := true })
    | .begins =>
      let f := f.seen p b
      let lock := !f.barrierMode p
      let acts := f.actives p
      let last := f.endsAt p n
      let stops := f.stopsAt p n
      let f := if lock then acts.foldl (fun g en => g.lockDataErrs en b) f else f
      if f.st p ≠ 2 then f
      else
        let late := lock && acts.any (fun en => !(f.engine en).endedBy b || f.borrowed (arcBase en))
        let f := if lock && acts.any (fun en => f.borrowed (arcBase en)) then f.testYield else f
        let stimLate := lock && !stops && !f.stimDone p (n + 1)
        let capOn := f.bit (Reg.SQ_CTL_CAPEN p)
        let capFull := lock && capOn && f.capFree p < ((f.actives p).map f.capSize).sum
        let live := (f.share p).live
        let r0 := acts.foldl (fun (g : Fab × Bool) en =>
          let c := g.1.dropLate b en
          (c.1, g.2 || c.2)) (f, false)
        let r1 := acts.foldl (fun (g : Fab × Bool) en =>
          let c := g.1.copyNext en live
          (c.1, g.2 || c.2)) (r0.1, false)
        let r2 := r1.1.applyForces p
        let bad := r1.2 || r2.2
        let f := r2.1
        let now := b + acts.foldl (fun m en => max m (f.boundaryLen en)) 2
        let f := f.set (Reg.SQ_DCN_DCN p) n
        let f := f.set (Reg.SQ_STAT_WAITING p) 0
        let f := f.updSh p (fun s => { s with
          nextB := b + f.get (Reg.SQ_SCHED_L p), openB := b, barOwn := none, barSent := false, relDcn := none
          bWait := false })
        let f := acts.foldl (fun g en => g.passBoundary b (!stops) en) f
        let early := (if late || r0.2 then [3] else []) ++ (if bad then [2] else []) ++ (if stimLate then [8] else []) ++
          (if capFull then [7] else [])
        let f := if last then f.endInterval p n now (early == []) else f
        let r3 := if capOn && !capFull then f.capture p n else (f, false)
        let fails := if r3.2 && !bad then early ++ [2] else early
        let f := fails.foldl (fun g c => g.failInterval p c n now) r3.1
        let f := f.journalEvents p now
        let f := if f.st p = 2 then f.combine p now else f
        f.holdCheck p now

/-- ENGINE_RELEASE. -/
def execEngineRelease (p t : Nat) (restored : Bool) (s : State) : Host.Outcome State Fault Refusal :=
  if p < 8 then .next { s with fab := s.fab.whenActive (fun f => f.release p t restored) } else .refused .noSuchUnit

/-- DESIGN_CYCLE_BOUNDARY. -/
def execDesignCycleBoundary (p b : Nat) (s : State) : Host.Outcome State Fault Refusal :=
  if p < 8 then .next { s with fab := s.fab.whenActive (fun f => f.boundary p b) } else .refused .noSuchUnit

/-- STIMULUS_WRITE. -/
def execStimulusWrite (p : Nat) (s : State) : Host.Outcome State Fault Refusal :=
  if p < 8 then .next { s with fab := s.fab.whenActive (fun f => f.stimulusWrite p) } else .refused .noSuchUnit

end Sys2Proof.Machine
end

