-- ==== Sys2Proof/Machine/Flit.lean ====
section
/-! DEFINITION. Reception of flits on Caluf ports (R276, R316, R331) and of SQUARE flits (R339). -/

namespace Sys2Proof.Machine

/-- The partition that owns a port. -/
def Fab.portPart (f : Fab) (c : Nat) : Option Nat := f.unitPart (24 + c)

/-- A flit of an ACTIVE port is uncorrectable (R331, R348): it counts, and the owner's interval fails. -/
def Fab.linkUe (f : Fab) (c now : Nat) : Fab :=
  if f.portActive c then
    let f := f.stick (Reg.LINK_ERRCNT_UE c) 1
    match f.portPart c with
    | some p => f.failInterval p 1 (f.curDc p) now
    | none => f
  else f

/-- Is the type assigned by the table of control flits (R316, R339)? -/
def ctlType (ty : Nat) : Bool :=
  ty ≤ 3 || (0x10 ≤ ty && ty ≤ 0x13) || (0x20 ≤ ty && ty ≤ 0x28) || ty == 0x30 || ty == 0x3E || ty == 0x3F

/-- Count a corrected flit of an ACTIVE port (R331). -/
def Fab.linkCe (f : Fab) (c : Nat) : Fab := if f.portActive c then f.stick (Reg.LINK_ERRCNT_CE c) 1 else f

/-! ### Frames (R313, R314) -/

/-- Positions of a frame. -/
def Fab.frameLen (f : Fab) (c : Nat) : Nat := if f.bit (Reg.LINK_CTL_FEC c) then 128 else 136

/-- Does a position of the frame in progress carry a scheduled flit? The map says so from position 8 on. -/
def LinkP.marked (l : LinkP) (i : Nat) : Bool := 8 ≤ i && l.map.getLsbD (i - 8)

/-- The next position of the frame in progress that carries a scheduled flit, or another one. Of a frame whose map is lost each
position may carry either. -/
def Fab.nextPos (f : Fab) (c : Nat) (sched : Bool) : Option Nat :=
  let l := f.port c
  (List.range (f.frameLen c)).find? (fun i => l.pos ≤ i && (l.mapBad || l.marked i == sched))

/-- A flit takes its position in the frame; the positions before it carried IDLE (log 99). -/
def Fab.atPos (f : Fab) (c i : Nat) : Fab := f.updPort c (fun l => { l with pos := i + 1 })

/-- A control flit arrives on a port, in the next position that the map leaves to others: its payload, or none where it is
uncorrectable, has another type than `ty`, or has no assigned type. The poison word is no control flit. -/
def Fab.rxCtl (f : Fab) (c now : Nat) (w : Flit) (ty : Nat) : Option Nat × Fab :=
  match f.nextPos c false with
  | none => (none, f)
  | some i =>
    let f := f.atPos c i
    if (f.port c).mapBad then (none, f.linkUe c now)
    else
      let r := rsDecode false w
      let pay := natBits r.word.toNat 32 128
      if r.out ≠ .clean && r.out ≠ .corrected then (none, f.linkUe c now)
      else
        let f := if r.out = .corrected then f.linkCe c else f
        if !ctlType (natBits pay 0 8) then (none, f.linkUe c now)
        else if natBits pay 0 8 = ty then (some pay, f)
        else (none, f)

/-- A SQUARE message as received (R339). -/
structure SqMsg where
  dcn   : Nat
  t     : Nat
  flags : Nat
  deriving DecidableEq, Repr

/-- A SQUARE flit of type `ty` arrives: the partition it reaches, and the message. A flit whose SQID is not that of the
share, or that reaches a FREE port, is uncorrectable. -/
def Fab.rxSquare (f : Fab) (c now : Nat) (w : Flit) (ty : Nat) : Option (Nat × SqMsg) × Fab :=
  if !f.portActive c then (none, f)
  else
    let r := f.rxCtl c now w ty
    match r.1 with
    | none => (none, r.2)
    | some pay =>
      match r.2.portPart c with
      | some p =>
        if natBits pay 8 16 = r.2.get (Reg.SQ_TREE_SQID p) then
          (some (p, ⟨natBits pay 24 64, natBits pay 88 32, natBits pay 120 8⟩), r.2.seen p now)
        else (none, r.2.linkUe c now)
      | none => (none, r.2.linkUe c now)

/-- Does the port lead to the share's parent (R338)? -/
def Fab.fromParent (f : Fab) (p c : Nat) : Bool := f.get (Reg.SQ_TREE_PARENT p) == c

/-- Does the port lead to a child of the share (R338)? -/
def Fab.fromChild (f : Fab) (p c : Nat) : Bool := (f.get (Reg.SQ_TREE_CHILD p)).testBit c

end Sys2Proof.Machine
end

