-- ==== Sys2Proof/Machine/SquareCmds.lean ====
section
/-! DEFINITION. The commands of the Square (spec/11): messages of the tree, timeouts, and writes of SQ registers. Each
meaning is one line over an operation on the fabric. -/

namespace Sys2Proof.Machine

/-! ### Messages of the tree -/

/-- A REPORT with FAIL (R341, R342): the root decides, another device forwards it at once. The root ignores failures of
intervals that it has committed or is rolling back. -/
def Fab.rxFail (f : Fab) (p dcn cause now : Nat) : Fab :=
  if !f.isRoot p then f.sendUp p 0x20 dcn cause 1
  else if f.st p = 2 && f.get (Reg.SQ_CDCN_DCN p) < dcn then
    (f.updSh p (fun s => { s with lastFail := cause, failDcn := dcn })).rootFail p cause dcn now
  else f

/-- REPORT (R341, R342). -/
def Fab.rxReport (f : Fab) (c now : Nat) (w : Flit) : Fab :=
  match f.rxSquare c now w 0x20 with
  | (some (p, m), f) =>
    if !f.fromChild p c then f
    else if m.flags.testBit 0 then f.rxFail p m.dcn (m.t % 256) now
    else if f.st p = 2 then
      let rep : Rep := ⟨m.dcn, false, 0, m.flags.testBit 1, m.flags.testBit 2, m.flags.testBit 3⟩
      ((f.updSh p (fun s => { s with childRep := s.childRep.put c rep })).combine p now).holdCheck p now
    else f
  | (none, f) => f

/-- DECIDE (R343, R344): forwarded downward and applied. -/
def Fab.rxDecide (f : Fab) (c now : Nat) (w : Flit) : Fab :=
  match f.rxSquare c now w 0x21 with
  | (some (p, m), f) =>
    if !f.fromParent p c then f
    else
      let f := f.sendDown p 0x21 m.dcn m.t m.flags
      if f.st p = 2 || f.st p = 4 then (f.applyDecide p m.dcn m.t m.flags now).readyCheck p now else f
  | (none, f) => f

/-- READY (R341, R342, R344). -/
def Fab.rxReady (f : Fab) (c now : Nat) (w : Flit) : Fab :=
  match f.rxSquare c now w 0x22 with
  | (some (p, m), f) =>
    if !f.fromChild p c || f.st p = 5 then f
    else if m.dcn = f.get (Reg.SQ_DCN_DCN p) + 1 && (f.st p = 3 || (f.share p).waitStop) then
      (f.updSh p (fun s => { s with holdChild := if s.holdChild.contains c then s.holdChild else c :: s.holdChild })).holdCheck
        p now
    else
      let mark (x : Nat × Rep) : Nat × Rep := if x.1 = c then (x.1, { x.2 with ready := true }) else x
      (f.updSh p (fun s => { s with
        childRep := if s.sentUp then s.childRep else s.childRep.map mark
        readyChild := if s.readyChild.contains c then s.readyChild else c :: s.readyChild })).combineReady p m.dcn now
  | (none, f) => f

/-- GO (R337, R344): forwarded downward and taken. -/
def Fab.rxGo (f : Fab) (c now : Nat) (w : Flit) : Fab :=
  match f.rxSquare c now w 0x23 with
  | (some (p, m), f) => if f.fromParent p c then (f.sendDown p 0x23 m.dcn m.t 0).takeGo p m.dcn m.t now else f
  | (none, f) => f

/-- BARRIER (R349). -/
def Fab.rxBarrier (f : Fab) (c now : Nat) (w : Flit) : Fab :=
  match f.rxSquare c now w 0x24 with
  | (some (p, m), f) =>
    if f.fromChild p c && f.st p = 2 then
      (f.updSh p (fun s => { s with barChild := s.barChild.put c m.dcn })).barrierTry p now
    else f
  | (none, f) => f

/-- RELEASE (R349): the boundary of the design cycle named may begin. -/
def Fab.rxRelease (f : Fab) (c now : Nat) (w : Flit) : Fab :=
  match f.rxSquare c now w 0x25 with
  | (some (p, m), f) =>
    if f.fromParent p c then
      (f.sendDown p 0x25 m.dcn 0 0).updSh p (fun s => { s with relDcn := some m.dcn, relAt := now })
    else f
  | (none, f) => f

/-- EARLY (R350): the root orders an early end, another device forwards. -/
def Fab.rxEarly (f : Fab) (c now : Nat) (w : Flit) : Fab :=
  match f.rxSquare c now w 0x26 with
  | (some (p, m), f) =>
    if !f.fromChild p c then f
    else if f.isRoot p then (if f.st p = 2 then f.rootEarly p else f)
    else f.sendUp p 0x26 m.dcn 0 0
  | (none, f) => f

/-- END (R23, R350, R351): the interval ends early; a device that has passed the end fails the interval. -/
def Fab.rxEnd (f : Fab) (c now : Nat) (w : Flit) : Fab :=
  match f.rxSquare c now w 0x27 with
  | (some (p, m), f) =>
    if !f.fromParent p c then f
    else
      let f := f.sendDown p 0x27 m.dcn 0 0
      if f.st p = 2 || f.st p = 4 then
        let r := f.takeEnd p m.dcn
        if r.2 && r.1.st p = 2 then r.1.failInterval p 6 (r.1.curDc p) now else r.1
      else f
  | (none, f) => f

/-- HALT (R344): the share halts at its last commit with the cause received. -/
def Fab.rxHalt (f : Fab) (c now : Nat) (w : Flit) : Fab :=
  match f.rxSquare c now w 0x28 with
  | (some (p, m), f) => if f.fromParent p c || f.fromChild p c then f.halt p (m.t % 16) else f
  | (none, f) => f

/-! ### Timeouts (R347) -/

/-- Is an engine of the share halted by the debug port or the monitor? The timeout is then suspended. -/
def Fab.anyHalted (f : Fab) (p : Nat) : Bool := (f.actives p).any (fun e => (f.engine e).halted)

/-- DECISION_TIMEOUT: a decision has not arrived within TIMEOUT of a REPORT. -/
def Fab.decisionTimeout (f : Fab) (p : Nat) : Fab :=
  if f.st p = 2 && f.get (Reg.SQ_TIMING_TIMEOUT p) ≠ 0 && ((f.share p).ownRep.isSome || (f.share p).failSent) &&
      !f.anyHalted p then f.halt p 5
  else f

/-- STEP_TIMEOUT: a RELEASE has not arrived within TIMEOUT of the BARRIER. -/
def Fab.stepTimeout (f : Fab) (p now : Nat) : Fab :=
  if f.st p = 2 && f.barrierMode p && f.get (Reg.SQ_TIMING_TIMEOUT p) ≠ 0 && (f.share p).barSent &&
      (f.share p).relDcn ≠ some (f.curDc p) && !f.anyHalted p then f.failInterval p 9 (f.curDc p) now
  else f

/-! ### Refused features (R380) -/

/-- The event register of a host port sends entry 0 where its enable is set (R400). -/
def Fab.portEvent (f : Fab) (n k : Nat) : Fab :=
  let f := if k = 0 then f.set (Reg.HP_EVENT_BIND n) 1 else f.set (Reg.HP_EVENT_FEAT n) 1
  if (f.get (Reg.HP_EVENT_EN n)).testBit k then f.sendMsix n 0 else f

/-- A use is refused: FEATERR and FEATBIT of the port. -/
def Fab.refuseFeat (f : Fab) (n bit : Nat) : Fab :=
  ((f.set (Reg.HP_STAT_FEATERR n) 1).set (Reg.HP_STAT_FEATBIT n) bit).portEvent n 1

/-- Did the partition accept feature bit `n`? A number that no partition has refuses nothing. -/
def Fab.partFeat (f : Fab) (p n : Nat) : Bool :=
  !f.bit (Reg.HP_PCFG_VALID p) || (f.get (Reg.HP_PCFG_FEAT p)).testBit n

/-- Act when the partition accepted the feature; refuse otherwise. -/
def Fab.needFeat (f : Fab) (p n : Nat) (g : Fab → Fab) : Fab :=
  if f.partFeat p n then g f else f.refuseFeat (f.portOf p) n

/-! ### Writes of SQ.CTL (R344, R367, R370) -/

/-- Are the entries of a table in strictly rising order of (NXT, OFF)? -/
def rising : List Nat → Bool
  | x :: y :: t => natBits x 62 1 * 65536 + entOff x < natBits y 62 1 * 65536 + entOff y && rising (y :: t)
  | _ => true

/-- Does the table check of a port at the release of its partition pass (R326)? -/
def Fab.tablesOk (f : Fab) (p c : Nat) : Bool :=
  let tx := (List.range (f.get (Reg.LINK_TBL_TXCNT c))).map (fun k => f.slotEntry c false k)
  let rx := (List.range (f.get (Reg.LINK_TBL_RXCNT c))).map (fun k => f.slotEntry c true k)
  let exchange (b : Nat) : Bool := b + 16 ≤ 0x1000
  let next (b : Nat) : Bool := 0x1800 ≤ b && b + 16 ≤ 0x2000
  tx.all (fun e => entV e && f.activeIn p (entEng e) && exchange (entByte e) &&
      (f.barrierMode p || entOff e < f.get (Reg.SQ_SCHED_L p))) &&
    rx.all (fun e => entV e && f.activeIn p (entEng e) && (exchange (entByte e) || next (entByte e))) &&
    rising (tx.map (fun e => e % 2 ^ 62)) && rising rx

/-- A port checks its tables and sends TBLSYNC (R326). -/
def Fab.checkTables (f : Fab) (p c : Nat) : Fab :=
  let f := if f.tablesOk p c then f else f.set (Reg.LINK_STAT_TBLERR c) 1
  f.sendFlit c (rsEncode (0x13 + f.get (Reg.LINK_TBL_TXCNT c) * 2 ^ 16))

/-- SQ.CTL.GO := 1 (R344, R380, R555, R588): a STOPPED share checks its tables and becomes STARTING. -/
def Fab.sqGo (f : Fab) (p now : Nat) : Fab :=
  let bl := f.blocks p
  if !f.barrierMode p && !f.partFeat p 1 then f.refuseFeat (f.portOf p) 1
  else if f.st p ≠ 0 || !f.bit (Reg.HP_PCFG_VALID p) || f.get (Reg.SQ_DCN_DCN p) = 0xFFFFFFFFFFFFFFFF then f
  else if bl.any (fun b => bl.any (fun b' =>
      f.get (Reg.PWR_ECLK_FREQ ((b % 6) / 2 + 3 * (b / 12))) ≠ f.get (Reg.PWR_ECLK_FREQ ((b' % 6) / 2 + 3 * (b' / 12))))) then
    f.set Reg.PWR_STAT_FREQERR 1
  else if f.goVoid p then f
  else
    let f := (f.portsOf p).foldl (fun g c => g.checkTables p c) f
    let f := f.set (Reg.SQ_STAT_STATE p) 1
    (f.updSh p (fun s => { s with
      readyOwn := false, goSent := false, goNext := none, dStop := false, dHold := false })).readyCheck p now

/-- SQ.CTL.STOP := 1: kept while STARTING or RUNNING until a REPORT carries it. -/
def Fab.sqStop (f : Fab) (p : Nat) : Fab :=
  if (f.st p = 0 || f.st p = 5) || (f.share p).stopSent then f else f.updSh p (fun s => { s with stopReq := true })

/-- A write of SQ.CTL.HOLDREQ by the Damson core (R370, R223). -/
def Fab.sqHoldreq (f : Fab) (p : Nat) (v : Bool) (now : Nat) : Fab :=
  (f.set (Reg.SQ_CTL_HOLDREQ p) (b2n v)).holdCheck p now

/-- SQ.CTL.CLEAR := 1: HALTED becomes STOPPED, and the level of SQ_HALT falls (R425). -/
def Fab.sqClear (f : Fab) (p : Nat) : Fab :=
  if f.st p = 5 then
    let f := (f.set (Reg.SQ_STAT_STATE p) 0).updSh p (fun s => { s with
      waitStop := false, dStop := false, dHold := false, stopReq := false, stopSent := false, goNext := none })
    f.raise (25 + p) false
  else f

/-- SQ.CTL.JRESET := 1 while STOPPED (R367): journals, force table, views and rings empty. -/
def Fab.sqJreset (f : Fab) (p : Nat) : Fab :=
  if f.st p ≠ 0 then f
  else
    let f := (List.range 4).foldl (fun g q => g.setReg (Reg.SQ_PTR p q) 0) f
    let f := (f.set (Reg.SQ_STAT_PRIORV p) 0).set (Reg.SQ_VIEW_CTL_GRANTED p) 0
    let f := f.set (Reg.SQ_VIEW_CTL_PEND p) 0
    (f.updSh p (fun s => { s with
      prior := none, held := none, heldDcn := 0
      bj := [], dj := [], jrows := [], force := [], forcePend := [], forceCom := [], cmds := []
      stRd := 0, lastSt := 0, lastStC := 0, lastMk := 0, ilogW := 0, ilogRecs := [], capW := 0, capRecs := [] })).jstat p

/-- A write of SQ.CTL.CAPEN; a 1 needs feature CAPTURE (R368, R379). -/
def Fab.sqCapen (f : Fab) (p : Nat) (v : Bool) : Fab :=
  if v then f.needFeat p 11 (fun f => f.set (Reg.SQ_CTL_CAPEN p) 1) else f.set (Reg.SQ_CTL_CAPEN p) 0

/-- A write of SQ.CTL.RUNMODE (R27, R379, R381): while STOPPED or HALTED; a DX48 partition keeps 1. A write of 1 without the
feature is refused in any state (R380). -/
def Fab.sqRunmode (f : Fab) (p : Nat) (v : Bool) : Fab :=
  if v && !f.partFeat p 2 then f.refuseFeat (f.portOf p) 2
  else if f.st p ≠ 0 && f.st p ≠ 5 then f
  else if v then f.set (Reg.SQ_CTL_RUNMODE p) 1
  else if f.bit (Reg.HP_PCFG_DX48 p) then f
  else f.set (Reg.SQ_CTL_RUNMODE p) 0

/-- A write of SQ.DCN while STOPPED sets the DCN of LIVE and COMMITTED (R367). -/
def Fab.sqDcn (f : Fab) (p v : Nat) : Fab :=
  if f.st p = 0 then
    let f := (f.set (Reg.SQ_DCN_DCN p) v).set (Reg.SQ_CDCN_DCN p) v
    f.updSh p (fun s => { s with iStart := v + 1 })
  else f

/-- A write of SQ.VIEW_CTL.REQ (R366): a request for a hold, or its release. -/
def Fab.viewReq (f : Fab) (p : Nat) (v : Bool) : Fab :=
  let clear (f : Fab) : Fab :=
    let f := ((f.set (Reg.SQ_VIEW_CTL_GRANTED p) 0).set (Reg.SQ_VIEW_CTL_PEND p) 0).updSh p (fun s => { s with held := none })
    f.freeSegments p
  if v then
    f.needFeat p 10 (fun f =>
      let f := clear (f.set (Reg.SQ_VIEW_CTL_REQ p) 1)
      let f := f.set (Reg.SQ_VIEW_CTL_REFUSED p) 0
      let d := f.get (Reg.SQ_VIEW_HOLD_DCN p)
      let s := f.share p
      let grant (f : Fab) (k : Nat) : Fab :=
        (f.set (Reg.SQ_VIEW_CTL_GRANTED p) 1).updSh p (fun s => { s with held := some k, heldDcn := d })
      if d = f.get (Reg.SQ_CDCN_DCN p) then grant f s.comm
      else if s.prior.isSome && d = f.get (Reg.SQ_PRIOR_DCN p) then grant f (s.prior.getD 0)
      else if s.pendS.isSome && d = s.pendDcn then f.set (Reg.SQ_VIEW_CTL_PEND p) 1
      else f.set (Reg.SQ_VIEW_CTL_REFUSED p) 1)
  else clear (f.set (Reg.SQ_VIEW_CTL_REQ p) 0)

/-- A write of a ring pointer (R370): PROD of STIMQ and CMDQ, CONS of ILOG and CAP. It may make the share ready. -/
def Fab.ringPtr (f : Fab) (p q v now : Nat) : Fab :=
  (if q < 2 then f.set (Reg.SQ_PTR_PROD p q) v else f.set (Reg.SQ_PTR_CONS p q) v).readyCheck p now

/-! ### The meanings -/

/-- Run an operation that acts on a Caluf port. -/
def onPort (c : Nat) (g : Fab → Fab) (s : State) : Host.Outcome State Fault Refusal :=
  if c < 16 then .next { s with fab := s.fab.whenActive g } else .refused .noSuchUnit

/-- Run an operation that acts on a partition's share. -/
def onPart (p : Nat) (g : Fab → Fab) (s : State) : Host.Outcome State Fault Refusal :=
  if p < 8 then .next { s with fab := s.fab.whenActive g } else .refused .noSuchUnit

/-- REPORT. -/
def execReport (c now : Nat) (w : Flit) (s : State) : Host.Outcome State Fault Refusal :=
  onPort c (fun f => f.rxReport c now w) s

/-- DECIDE. -/
def execDecide (c now : Nat) (w : Flit) (s : State) : Host.Outcome State Fault Refusal :=
  onPort c (fun f => f.rxDecide c now w) s

/-- READY. -/
def execReady (c now : Nat) (w : Flit) (s : State) : Host.Outcome State Fault Refusal :=
  onPort c (fun f => f.rxReady c now w) s

/-- GO. -/
def execGo (c now : Nat) (w : Flit) (s : State) : Host.Outcome State Fault Refusal :=
  onPort c (fun f => f.rxGo c now w) s

/-- BARRIER. -/
def execBarrier (c now : Nat) (w : Flit) (s : State) : Host.Outcome State Fault Refusal :=
  onPort c (fun f => f.rxBarrier c now w) s

/-- SQUARE_RELEASE. -/
def execSquareRelease (c now : Nat) (w : Flit) (s : State) : Host.Outcome State Fault Refusal :=
  onPort c (fun f => f.rxRelease c now w) s

/-- EARLY. -/
def execEarly (c now : Nat) (w : Flit) (s : State) : Host.Outcome State Fault Refusal :=
  onPort c (fun f => f.rxEarly c now w) s

/-- END. -/
def execSqEnd (c now : Nat) (w : Flit) (s : State) : Host.Outcome State Fault Refusal :=
  onPort c (fun f => f.rxEnd c now w) s

/-- HALT. -/
def execHalt (c now : Nat) (w : Flit) (s : State) : Host.Outcome State Fault Refusal :=
  onPort c (fun f => f.rxHalt c now w) s

/-- DECISION_TIMEOUT. -/
def execDecisionTimeout (p : Nat) (s : State) : Host.Outcome State Fault Refusal :=
  onPart p (fun f => f.decisionTimeout p) s

/-- STEP_TIMEOUT. -/
def execStepTimeout (p now : Nat) (s : State) : Host.Outcome State Fault Refusal :=
  onPart p (fun f => f.stepTimeout p now) s

/-- SQ_CTL_GO. -/
def execSqCtlGo (p now : Nat) (s : State) : Host.Outcome State Fault Refusal := onPart p (fun f => f.sqGo p now) s

/-- SQ_CTL_STOP. -/
def execSqCtlStop (p : Nat) (s : State) : Host.Outcome State Fault Refusal := onPart p (fun f => f.sqStop p) s

/-- SQ_CTL_HOLDREQ. -/
def execSqCtlHoldreq (p : Nat) (v : Bool) (now : Nat) (s : State) : Host.Outcome State Fault Refusal :=
  onPart p (fun f => f.sqHoldreq p v now) s

/-- SQ_CTL_CLEAR. -/
def execSqCtlClear (p : Nat) (s : State) : Host.Outcome State Fault Refusal := onPart p (fun f => f.sqClear p) s

/-- SQ_CTL_JRESET. -/
def execSqCtlJreset (p : Nat) (s : State) : Host.Outcome State Fault Refusal := onPart p (fun f => f.sqJreset p) s

/-- SQ_CTL_CAPEN. -/
def execSqCtlCapen (p : Nat) (v : Bool) (s : State) : Host.Outcome State Fault Refusal :=
  onPart p (fun f => f.sqCapen p v) s

/-- SQ_CTL_RUNMODE. -/
def execSqCtlRunmode (p : Nat) (v : Bool) (s : State) : Host.Outcome State Fault Refusal :=
  onPart p (fun f => f.sqRunmode p v) s

/-- SQ_DCN_WRITE. -/
def execSqDcnWrite (p : Nat) (v : Word) (s : State) : Host.Outcome State Fault Refusal :=
  onPart p (fun f => f.sqDcn p v.toNat) s

/-- VIEW_HOLD_REQUEST. -/
def execViewHoldRequest (p : Nat) (v : Bool) (s : State) : Host.Outcome State Fault Refusal :=
  onPart p (fun f => f.viewReq p v) s

/-- RING_PTR_WRITE. -/
def execRingPtrWrite (p q : Nat) (v : BitVec 32) (now : Nat) (s : State) : Host.Outcome State Fault Refusal :=
  if q < 4 then onPart p (fun f => f.ringPtr p q v.toNat now) s else .refused .noSuchUnit

end Sys2Proof.Machine
end

