-- ==== Sys2Proof/Machine/MemCmds.lean ====
section
/-! DEFINITION. Ownership and wipes (R257–R263), bank states (R253–R255), repair write-backs (R277, R278), conflict
counters (R249) and the vault. -/

namespace Sys2Proof.Machine

/-! ### Contents -/

/-- Every code word with a device address in [lo, hi) becomes the zero word: zero data in SRAM, a zero marker in DDR. -/
def Fab.zeroRange (f : Fab) (lo hi : Nat) : Fab :=
  { f with
    mem := Store.clear f.mem lo hi
    err := Store.clear f.err (lo / 16) (hi / 16)
    key := Store.clear f.key (lo / 16) (hi / 16)
    repair := f.repair.filter (fun x => x.2.addr ≤ lo || hi < x.2.addr) }

/-- The contents of one bank become zero (R254). -/
def Fab.zeroBank (f : Fab) (x : Fld) : Fab :=
  { f with
    mem := f.mem.filter (fun c => bankFld c.1 ≠ some x)
    err := f.err.filter (fun c => bankFld (16 * c.1) ≠ some x)
    repair := f.repair.filter (fun r => r.1 ≠ 8 + x.key) }

/-- Device addresses of a Caluf port's buffer and of a capture-buffer bank (R232). -/
def portBuf (c : Nat) : Nat := 0x0300400000 + c * 0x40000
def capBank (c : Nat) : Nat := capBase + c * 0x40000

/-- Bring every bank of a block ON (R259, R256). -/
def Fab.banksOn (f : Fab) (b : Nat) : Fab :=
  let f := f.setReg (Reg.MEM_BSTATE0 b) (regReset (Reg.MEM_BSTATE0 b))
  let f := (List.range 8).foldl (fun g j => g.setReg (Reg.MEM_BSTATE b j) (regReset (Reg.MEM_BSTATE b j))) f
  let own (k : Nat) : Bool :=
    k / 64 == Reg.MEM_BSTATE0 b || (List.range 8).any (fun j => k / 64 == Reg.MEM_BSTATE b j)
  { f with breq := f.breq.filter (fun x => !own x.1) }

/-- The registers of a block's engines return to their reset values (R259, R43). -/
def Fab.resetEngines (f : Fab) (b : Nat) : Fab := { f with
  eng := Store.clear f.eng (8 * b) (8 * b + 8)
  puts := f.puts.filter (fun u => u.tgt / 8 ≠ b)
  past := []
  pbT := Store.clear f.pbT (8 * b) (8 * b + 8)
  farSt := f.farSt.filter (fun x => x.eng / 8 ≠ b)
  stq := f.stq.filter (fun x => x.eng / 8 ≠ b) }

/-- Fill a block's memories with zeros. -/
def Fab.zeroBlock (f : Fab) (b : Nat) : Fab :=
  (f.zeroRange (engBase (8 * b)) (engBase (8 * b + 8))).zeroRange (bmBase b) (bmBase b + 0x200000)

/-- What a completed wipe leaves in an ownership unit (R259). -/
def Fab.wipeUnit (f : Fab) (u : Nat) : Fab :=
  if u < 24 then ((f.banksOn u).zeroBlock u).resetEngines u
  else if u < 40 then
    let c := u - 24
    let f := (f.zeroRange (portBuf c) (portBuf c + 0x40000)).setReg (Reg.LINK_TBL c) 0
    f.updPort c (fun l => { l with k := 0, rel := 0, held := [], txDcn := 0, txIdx := 0, replay := [], txq := [] })
  else f.zeroRange (capBank (u - 40)) (capBank (u - 40) + 0x40000)

/-- What a completed wipe leaves in a DDR granule. -/
def Fab.wipeGranule (f : Fab) (g : Nat) : Fab :=
  let f := f.zeroRange (ddrBase + g * 0x10000000) (ddrBase + (g + 1) * 0x10000000)
  { f with lost := f.lost.filter (· ≠ g) }

/-! ### Ownership (R257–R259, R285) -/

/-- The OWN field of a unit or granule. -/
def ownFld (isD : Bool) (i : Nat) : Fld := if isD then Reg.MEM_DOWNER_OWN i else Reg.MEM_OWNER_OWN i

/-- Is some unit WIPING? -/
def Fab.anyWiping (f : Fab) : Bool :=
  (List.range 48).any (fun u => f.get (Reg.MEM_OWNER_OWN u) == 9) ||
    f.regs.any (fun c => Reg.MEM_DOWNER 0 ≤ c.1 && c.1 < Reg.MEM_DOWNER 2048 && fget c.2 0 4 == 9)

/-- A write of MEM.OWNER or MEM.DOWNER is discarded. -/
def Fab.ownErr (f : Fab) : Fab := f.set Reg.MEM_OWNSTAT_OWNERR 1

/-- The ownership unit of a device address in a memory: a unit 0–47 or a DDR granule (with the flag). -/
def unitOf (a : Nat) : Option (Bool × Nat) :=
  if a < 0x0C000000 then some (false, a / 0x800000)
  else if 0x0100000000 ≤ a && a < 0x0103000000 then some (false, (a - 0x0100000000) / 0x200000)
  else if 0x0300400000 ≤ a && a < 0x0300800000 then some (false, 24 + (a - 0x0300400000) / 0x40000)
  else if capBase ≤ a && a < capBase + 0x200000 then some (false, 40 + (a - capBase) / 0x40000)
  else if isDdr a then some (true, (a - ddrBase) / 0x10000000)
  else none

/-- A wipe takes the maintenance token of a borrowed bank (R293): the tester abandons its chunk without restoring it. -/
def Fab.abandon (f : Fab) (isD : Bool) (i : Nat) : Fab :=
  if f.bit Reg.TEST_STAT_ACTIVE && unitOf (f.get Reg.TEST_POS_ADDR) == some (isD, i) then
    { f with tBad := 0 }.set Reg.TEST_STAT_ACTIVE 0
  else f

/-- May granule `g` be given to a partition (R285)? -/
def Fab.swept (f : Fab) (g : Nat) : Bool :=
  (g + 1) * 0x10000000 ≤ f.get Reg.DDR_SWEEP_WM * 16 && (g + 1) * 0x10000000 ≤ f.ddrBytes

/-- A write of MEM.OWNER (or MEM.DOWNER) number `i` by the Damson core (R258, R285). -/
def Fab.ownerWrite (f : Fab) (isD : Bool) (i v : Nat) : Fab :=
  let x := ownFld isD i
  let own := f.get x
  let v := v % 16
  if own = 9 then f.ownErr
  else if own < 8 then
    if v = own then f
    else if v = 8 && !f.runs own then (f.abandon isD i).set x 9 |>.set Reg.MEM_OWNSTAT_WIPING 1
    else f.ownErr
  else if v = 8 then f
  else if v < 8 && (!isD || f.swept i) then f.set x v
  else f.ownErr

/-- A wipe finishes: the unit becomes FREE and MEM_WIPE is raised to the Damson core (R258, R259). -/
def Fab.wipeDone (f : Fab) (isD : Bool) (i : Nat) : Fab :=
  if f.get (ownFld isD i) = 9 then
    let f := (if isD then f.wipeGranule i else f.wipeUnit i).set (ownFld isD i) 8
    (f.set Reg.MEM_OWNSTAT_WIPING (b2n f.anyWiping)).raise 6 true
  else f

/-! ### Bank states (R253–R255) -/

/-- The bank fields of MEM.BSTATE(b, r), or of MEM.CBSTATE. -/
def bstateFlds (cb : Bool) (b r : Nat) : List Fld :=
  if cb then (List.range 8).map Reg.MEM_CBSTATE_CB
  else if r = 0 then (List.range 12).map (Reg.MEM_BSTATE0_BM b)
  else (List.range 16).map (Reg.MEM_BSTATE_DM b (r - 1)) ++ [Reg.MEM_BSTATE_PM b (r - 1)] ++
    (List.range 3).map (fun k => (⟨Reg.MEM_BSTATE b (r - 1), 34 + 2 * k, 2⟩ : Fld))

/-- Does capture-buffer bank `c` hold bytes of the capture ring of a share that runs with CAPEN set (R255)? -/
def Fab.capInUse (f : Fab) (c : Nat) : Bool :=
  (List.range 8).any (fun p => f.runs p && f.bit (Reg.SQ_CTL_CAPEN p) &&
    f.ringBase p 3 < capBank c + 0x40000 && capBank c < f.ringBase p 3 + f.ringSize p 3)

/-- Must the bank stay ON (R255)? -/
def Fab.bankHeld (f : Fab) (cb : Bool) (b r : Nat) (x : Fld) : Bool :=
  if cb then f.capInUse (x.lo / 2)
  else match f.unitPart b with
    | some p => f.runs p && (if r = 0 then x.lo == 20 || x.lo == 22
        else f.activeIn p (8 * b + (r - 1)) && (x.lo == 30 || 34 ≤ x.lo))
    | none => false

/-- A write of MEM.BSTATE or MEM.CBSTATE (R254, R255): each field requests a state; 0b11 leaves its bank unchanged. -/
def Fab.bstateWrite (f : Fab) (cb : Bool) (b r : Nat) (v : Word) : Fab :=
  let flds := bstateFlds cb b r
  if flds.any (fun x => f.bankHeld cb b r x && f.get x = 2 && fget v x.lo 2 < 2) then f.ownErr
  else flds.foldl (fun g x =>
    let q := fget v x.lo 2
    if q = 3 || (q = g.get x && Store.get 0 g.breq x.key = 0) then g
    else { g with breq := Store.set 0 g.breq x.key (q + 1) }) f

/-- A bank reaches its requested state (R254): OFF loses the contents; leaving OFF fills it with zeros. A chunk of the tester is
restored first (R293). -/
def Fab.bankDone (f : Fab) (a : Nat) : Fab :=
  match bankFld a with
  | some x =>
    match Store.get 0 f.breq x.key with
    | 0 => f
    | q + 1 =>
      let f := f.yieldAt a
      let f := if q = 0 || f.get x = 0 then f.zeroBank x else f
      { f.set x q with breq := Store.set 0 f.breq x.key 0 }
  | none => f

/-! ### Repair (R277, R278) -/

/-- Free the repair entry that serves an address. -/
def Fab.freeRepair (f : Fab) (a : Nat) : Fab :=
  { f with repair := Store.set ⟨0, false⟩ f.repair (f.repairKey a) ⟨0, false⟩ }

/-- The word that waits for its rewrite in the entry that serves an address, if the rewrite is of that kind. -/
def Fab.repairWord (f : Fab) (a : Nat) (poison : Bool) : Option Nat :=
  let r := Store.get (⟨0, false⟩ : Repair) f.repair (f.repairKey a)
  if r.addr ≠ 0 && r.poison = poison then some ((r.addr - 1) / 16) else none

/-- Write back what a CORRECTED decoding of a stored word gave; a word that no longer decodes so is left. -/
def Fab.correctWord (f : Fab) (wa : Nat) : Fab :=
  let ddr := isDdr (16 * wa)
  let tag := if ddr then Store.get 0 f.key wa else 1
  let er := Store.get (0 : BitVec 160) f.err wa
  let r := rsDecode ddr (if ddr && tag == 0 then er ^^^ zeroMarker else er)
  if r.out = .corrected then
    { f with
      err := Store.set 0 f.err wa r.word
      key := if ddr && tag == 0 then Store.set 0 f.key wa 1 else f.key }
  else f

/-- REPAIR_WRITEBACK: a corrected word is written back in an idle slot of its bank or port. -/
def Fab.repairWriteback (f : Fab) (a : Nat) : Fab :=
  match f.repairWord a false with
  | some wa => (f.freeRepair a).correctWord wa
  | none => f

/-- POISON_REWRITE: an uncorrectable word is rewritten as poison. -/
def Fab.poisonRewrite (f : Fab) (a : Nat) : Fab :=
  match f.repairWord a true with
  | some wa => (f.freeRepair a).poison wa
  | none => f

/-- CONFLICT_COUNTER_WRAP (R248, R249): counter `m` of block `b` counts `n` events and wraps. -/
def Fab.conflictWrap (f : Fab) (b m n : Nat) : Fab :=
  if 2 ^ 48 ≤ f.get (Reg.MEM_CONF_COUNT b m) + n then f.confBump b m n else f

/-! ### The vault (R261–R263) -/

/-- A vault wipe begins: contents and working keys are cleared, the cause is recorded, and every partition that owns a DDR
granule loses its design state. -/
def Fab.vaultWipe (f : Fab) (cause : Nat) : Fab :=
  let f := f.set Reg.MEM_VAULT_WIPING 1
  let f := f.set Reg.MEM_VAULT_CAUSE cause
  let f := f.stick Reg.MEM_VAULT_WIPES 1
  let f := f.zeroRange 0x0300200000 0x0300240000
  let owned := (f.regs.filter (fun c => Reg.MEM_DOWNER 0 ≤ c.1 && c.1 < Reg.MEM_DOWNER 2048 && fget c.2 0 4 < 8)).map
    (fun c => ((c.1 - Reg.MEM_DOWNER 0) / 8, fget c.2 0 4))
  let f := { f with keys := [], lost := f.lost ++ (owned.map (fun x => x.1)).filter (fun g => !f.lost.contains g) }
  (List.range 8).foldl (fun g p =>
    match owned.find? (fun x => x.2 == p) with
    | some x => g.dataLoss p (ddrBase + x.1 * 0x10000000)
    | none => g) f

/-! ### The meanings -/

/-- MEM_OWNER_WRITE by a master (R257, R266): the Damson core is master 0; a write of any other is discarded. -/
def execMemOwnerWrite (master : Nat) (isD : Bool) (i : Nat) (v : Word) (s : State) :
    Host.Outcome State Fault Refusal :=
  if 7 ≤ master || (if isD then 2048 else 48) ≤ i then .refused .noSuchUnit
  else .next { s with fab := s.fab.whenActive (fun f => if master = 0 then f.ownerWrite isD i v.toNat else f.ownErr) }

/-- MEM_BSTATE_WRITE of MEM.CBSTATE (`cb`) or of MEM.BSTATE(b, r). -/
def execMemBstateWrite (cb : Bool) (b r : Nat) (v : Word) (s : State) : Host.Outcome State Fault Refusal :=
  if cb || (b < 24 && r < 9) then .next { s with fab := s.fab.whenActive (fun f => f.bstateWrite cb b r v) } else .refused .noSuchUnit

/-- BANK_TRANSITION_COMPLETE for the bank that holds a device address. -/
def execBankTransitionComplete (a : Nat) (s : State) : Host.Outcome State Fault Refusal :=
  if (bankFld a).isSome then .next { s with fab := s.fab.whenActive (fun f => f.bankDone a) } else .refused .noSuchUnit

/-- REPAIR_WRITEBACK. -/
def execRepairWriteback (a : Nat) (s : State) : Host.Outcome State Fault Refusal :=
  if a < 2 ^ 40 then .next { s with fab := s.fab.whenActive (fun f => f.repairWriteback a) } else .refused .noSuchUnit

/-- POISON_REWRITE. -/
def execPoisonRewrite (a : Nat) (s : State) : Host.Outcome State Fault Refusal :=
  if a < 2 ^ 40 then .next { s with fab := s.fab.whenActive (fun f => f.poisonRewrite a) } else .refused .noSuchUnit

/-- CONFLICT_COUNTER_WRAP. -/
def execConflictCounterWrap (b m n : Nat) (s : State) : Host.Outcome State Fault Refusal :=
  if b < 24 && m < 6 then .next { s with fab := s.fab.whenActive (fun f => f.conflictWrap b m n) } else .refused .noSuchUnit

end Sys2Proof.Machine
end

