-- ==== Sys2Proof/Machine/Access.lean ====
section
/-! DEFINITION. Accesses by masters other than the engines: hosts, the DMA engine, the Damson core, the debug port and the
background packets of the links (R232–R237, R34, R363–R365, R376, R403). -/

namespace Sys2Proof.Machine

/-- A master: its code in MEM.ERRLOG.MASTER (0 Damson core, 1 debug port, 2–5 HP0–HP3, 6 DMA engine), the partitions whose
units it reaches (bit p), and whether it reaches every unit (R235, R376, R403). -/
structure Master where
  code : Nat
  parts : Nat
  all : Bool
  deriving DecidableEq, Repr

def damson : Master := ⟨0, 255, true⟩
def dbgPort : Master := ⟨1, 255, true⟩

/-- Host port `n` (R376). -/
def Fab.host (f : Fab) (n : Nat) : Master := ⟨2 + n, f.get (Reg.HP_BIND_PARTS n), false⟩

/-- The partition that owns a DMA channel (R403). -/
def Fab.chanPart (f : Fab) (k : Nat) : Option Nat :=
  (List.range 8).find? (fun p => (f.get (Reg.HP_PDMA_CH p)).testBit k)

/-- DMA channel `k` (R403). -/
def Fab.chan (f : Fab) (k : Nat) : Master :=
  match f.chanPart k with
  | some p => ⟨6, 2 ^ p, false⟩
  | none => ⟨6, 255, true⟩

/-- The SOURCE code of a master's reads (R295). -/
def Master.src (m : Master) : Nat :=
  if m.code = 0 then 3 else if m.code = 1 then 4 else if m.code = 6 then 6 else 5

/-- Record an access that is refused (R234, R266). -/
def Fab.errLog (f : Fab) (m : Master) (a kind barsp : Nat) : Fab :=
  if f.bit Reg.MEM_ERRLOG_VALID then f
  else
    let f := f.set Reg.MEM_ERRLOG_ADDR a
    let f := f.set Reg.MEM_ERRLOG_KIND kind
    let f := f.set Reg.MEM_ERRLOG_MASTER m.code
    let f := f.set Reg.MEM_ERRLOG_BARSP barsp
    f.set Reg.MEM_ERRLOG_VALID 1

/-- Does STANDBY leave a device address reachable (R546): DEV, HP, MGMT, PWR, the UMX window, and the management region? -/
def unitAwake (a : Nat) : Bool :=
  (0x0200000000 ≤ a && a < 0x0200010000) || (0x0200200000 ≤ a && a < 0x0200300000) ||
    (0x0200500000 ≤ a && a < 0x0200800000) || (0x0300000000 ≤ a && a < 0x0300400000) ||
    (0x0300A00000 ≤ a && a < 0x0301000000)

/-- A write of a register by a master: nothing happens while the device does not run, and a unit that STANDBY closes refuses
it (R546). -/
def Fab.byReg (f : Fab) (m : Master) (a : Nat) (g : Fab → Fab) : Fab :=
  if !f.live then f else if f.pwr.st = 2 && !unitAwake a then f.errLog m a 1 0 else g f

/-- Record the address of a fenced access (R34, R354, R370). -/
def Fab.fenceLog (f : Fab) (p a : Nat) (m : Master) : Fab :=
  if f.bit (Reg.SQ_FENCE_VALID p) then f
  else ((f.set (Reg.SQ_FENCE_ADDR p) a).set (Reg.SQ_FENCE_MASTER p) m.code).set (Reg.SQ_FENCE_VALID p) 1

/-- The partition that owns the unit of a device address. -/
def Fab.addrPart (f : Fab) (a : Nat) : Option Nat :=
  match unitOf a with
  | some (true, g) => f.granPart g
  | some (false, u) => f.unitPart u
  | none => none

/-- May the master reach the region of a device address (R232–R235, R261, R403)? The flag `wr` tells writes from reads. -/
def Fab.regionOk (f : Fab) (m : Master) (a : Nat) (wr : Bool) : Bool :=
  if a < 0x0C000000 then
    let o := a % 0x100000
    o < 0x30000 || (0x40000 ≤ o && o < 0x80000) || 0xF0000 ≤ o
  else if 0x0100000000 ≤ a && a < 0x0103000000 then (a - 0x0100000000) % 0x200000 < 0x180000
  else if 0x0300000000 ≤ a && a < 0x0301000000 then
    let o := a - 0x0300000000
    if o < 0x20000 then m.code == 0 && !wr
    else if 0x100000 ≤ o && o < 0x240000 then m.code == 0
    else if 0x300000 ≤ o && o < 0x340000 then (m.code == 6 && m.all) || (m.code == 0 && !wr)
    else if 0x400000 ≤ o && o < 0x800000 then m.code == 0
    else if 0x800000 ≤ o && o < 0xA00000 then m.code ≠ 1
    else false
  else isDdr a && a < ddrBase + f.ddrBytes

/-- The KIND with which R234 refuses an access to an address, if it does. -/
def Fab.refusal (f : Fab) (m : Master) (a : Nat) (wr : Bool) : Option Nat :=
  if !f.regionOk m a wr then some 0
  else
    let own := match unitOf a with
      | some (d, i) =>
        let o := f.get (ownFld d i)
        if m.all then o ≠ 9 else o < 8 && m.parts.testBit o
      | none => true
    if !own then some 2
    else if !f.addrOn a || (f.pwr.st = 2 && !unitAwake a) then some 1
    else none

/-- Is the address design state or a journal (R289, R34): slots of an active engine, banks 10 and 11, the DDR journal? -/
def Fab.designState (f : Fab) (p a : Nat) : Bool :=
  if a < 0x0C000000 then 0x7E000 ≤ a % 0x100000 && a % 0x100000 < 0x80000 && f.activeIn p (a / 0x100000)
  else if 0x0100000000 ≤ a && a < 0x0103000000 then 0x140000 ≤ (a - 0x0100000000) % 0x200000
  else if isDdr a then
    let j := f.get (Reg.SQ_JCFG_DBASE p) * 0x4000000
    j ≤ a - ddrBase && a - ddrBase < j + f.get (Reg.SQ_JCFG_DSIZE p) * 0x4000000
  else false

/-- Does the byte stand in the capture ring between PROD and the next record (R368)? -/
def Fab.capPending (f : Fab) (p a : Nat) : Bool :=
  let b := f.ringBase p 3
  b ≤ a && a < b + f.ringSize p 3 && f.ringDist p 3 (f.prod p 3) (a - b) < f.ringDist p 3 (f.prod p 3) (f.share p).capW

/-- The partition whose running share fences the address from other masters (R34, R354, R368). -/
def Fab.fencedBy (f : Fab) (a : Nat) (wr : Bool) : Option Nat :=
  match f.addrPart a with
  | some p => if f.runs p && (f.designState p a || f.journaled a || (!wr && f.capPending p a)) then some p else none
  | none => none

/-- All-ones of `n` bytes. -/
def ones (n : Nat) : Nat := 2 ^ (8 * n) - 1

/-- The result of a master's access: the bytes read, whether a word read as poison, whether R234 or R34 refused it, whether
it waits for the DDR sweep (R284), and the fabric after. -/
structure Acc where
  data : Nat
  bad  : Bool
  refused : Bool
  wait : Bool
  fab  : Fab
  deriving DecidableEq, Repr

/-- Does an access wait for the DDR sweep (R284)? -/
def Fab.unswept (f : Fab) (a : Nat) : Bool := isDdr a && f.get Reg.DDR_SWEEP_WM * 16 ≤ a - ddrBase

/-- A master's access to a bank: the Damson core makes the tester yield; hosts and DMA wait for idle cycles, and at a borrowed bank
for its return (R243, R248, R291). -/
def Fab.bankTurn (f : Fab) (m : Master) (a : Nat) : Fab :=
  if m.code = 0 then f.yieldAt a else if m.code = 1 then f else f.confWait a 3 (b2n (f.borrowed a))

/-- Read `n` bytes that lie in one code word of a memory. -/
def Fab.rdPiece (f : Fab) (m : Master) (a n : Nat) : Acc :=
  match f.refusal m a false with
  | some k => ⟨ones n, false, true, false, f.errLog m a k 0⟩
  | none =>
    match f.fencedBy a false with
    | some p => ⟨ones n, false, true, false, f.fenceLog p a m⟩
    | none =>
      if f.unswept a then ⟨0, false, false, true, f⟩
      else if a < 0x0C000000 && 0xF0000 ≤ a % 0x100000 then ⟨ones n, false, false, false, f⟩
      else
        let r := (f.bankTurn m a).read m.src a n
        ⟨if r.bad.isSome then ones n else r.data, r.bad.isSome, false, false, r.fab⟩

/-- What a store by another master does besides its bytes: IM bytes of a released engine become visible to its fetches after
a free number of bundles (R77), PM bytes are noted (R107). -/
def Fab.noteStore (f : Fab) (a n : Nat) : Fab :=
  if a < 0x0C000000 && (f.engine (a / 0x100000)).phase ≠ .unreleased then
    let o := a % 0x100000
    if o < 0x20000 then
      let old := readN f.mem a n
      let r := f.free 32
      r.2.updEng (a / 0x100000) (fun e => { e with imPend := e.imPend ++ [⟨o, n, old, e.seq + 1 + r.1, 0⟩] })
    else if o < 0x30000 then f.updEng (a / 0x100000) (fun e => { e with pmHost := e.pmHost ++ [(o - 0x20000, n)] })
    else f
  else f

/-- Is the address in a port's slot tables (R325)? -/
def inTable (a : Nat) : Bool := 0x0300400000 ≤ a && a < 0x0300800000 && (a - 0x0300400000) % 0x40000 < 0x10000

/-- A write of a slot table is discarded: TBLWR of its port. -/
def Fab.tblWr (f : Fab) (a : Nat) : Fab := f.set (Reg.LINK_STAT_TBLWR ((a - 0x0300400000) / 0x40000)) 1

/-- Write `n` bytes that lie in one code word of a memory. A slot table is written only by the Damson core, while no share of the
port's owner runs (R325). -/
def Fab.wrPiece (f : Fab) (m : Master) (a n v : Nat) : Acc :=
  match f.refusal m a true with
  | some k => ⟨0, false, true, false, (if inTable a then f.tblWr a else f).errLog m a k 0⟩
  | none =>
    match f.fencedBy a true with
    | some p => ⟨0, false, true, false, f.fenceLog p a m⟩
    | none =>
      if f.unswept a then ⟨0, false, false, true, f⟩
      else if a < 0x0C000000 && 0xF0000 ≤ a % 0x100000 then ⟨0, false, false, false, f⟩
      else if inTable a && (f.addrPart a).any f.runs then ⟨0, false, true, false, f.tblWr a⟩
      else
        let r := ((f.bankTurn m a).noteStore a n).write m.src a n v
        ⟨0, r.dropped, false, false, r.fab⟩

/-- Read `n` bytes of memory at `a`, word by word. `fuel` bounds the words. -/
def Fab.rdMem (f : Fab) (m : Master) (a n : Nat) : Nat → Acc
  | 0 => ⟨0, false, false, false, f⟩
  | fuel + 1 =>
    if n = 0 then ⟨0, false, false, false, f⟩
    else
      let k := min n (16 - a % 16)
      let r := f.rdPiece m a k
      let t := r.fab.rdMem m (a + k) (n - k) fuel
      ⟨r.data + 2 ^ (8 * k) * t.data, r.bad || t.bad, r.refused || t.refused, r.wait || t.wait, t.fab⟩

/-- Write `n` bytes of memory at `a`, word by word. -/
def Fab.wrMem (f : Fab) (m : Master) (a n v : Nat) : Nat → Acc
  | 0 => ⟨0, false, false, false, f⟩
  | fuel + 1 =>
    if n = 0 then ⟨0, false, false, false, f⟩
    else
      let k := min n (16 - a % 16)
      let r := f.wrPiece m a k (v % 2 ^ (8 * k))
      let t := r.fab.wrMem m (a + k) (n - k) (v / 2 ^ (8 * k)) fuel
      ⟨0, r.bad || t.bad, r.refused || t.refused, r.wait || t.wait, t.fab⟩

/-- Words that an access of `n` bytes can touch. -/
def wordFuel (n : Nat) : Nat := n / 16 + 2

/-- The partitions whose fence an access of `n` bytes at `a` meets. -/
def Fab.fences (f : Fab) (m : Master) (a n : Nat) (wr : Bool) : List Nat :=
  ((List.range (wordFuel n)).filterMap (fun i =>
    let x := if i = 0 then a else (a / 16 + i) * 16
    if x < a + n && (f.refusal m x wr).isNone then f.fencedBy x wr else none)).eraseDups

/-- Count a fenced access in SQ.FENCE: one for each request, however many code words of it are fenced (R34, R370; log 81). -/
def Fab.fenceCount (f : Fab) (m : Master) (a n : Nat) (wr : Bool) : Fab :=
  (f.fences m a n wr).foldl (fun g p => g.stick (Reg.SQ_FENCE_COUNT p) 1) f

/-! ### The ECS area (R10, R237) -/

/-- Is the address in an ECS area? -/
def inEcs (a : Nat) : Bool := a < 0x0C000000 && 0xF0000 ≤ a % 0x100000

/-- A naturally aligned 32-bit or 64-bit access (R10). -/
def regAligned (a n : Nat) : Bool := (n == 4 || n == 8) && a % n == 0

/-- The half or whole of a register that an access reads. -/
def regPart (v : Word) (a n : Nat) : Nat := if n = 8 then v.toNat else natBits v.toNat (8 * (a % 8)) 32

/-- The word at an offset of an engine's register windows (R533), in the copies that are visible. -/
def Engine.window (e : Engine) (o : Nat) : Option Word :=
  if 0x8000 ≤ o && o < 0x8200 then some (e.rA ((o - 0x8000) / 8))
  else if 0x9000 ≤ o && o < 0x9800 then some (w64 (natBits (e.rN ((o - 0x9000) / 32)).toNat (8 * (o % 32 / 8 * 8)) 64))
  else if 0xA000 ≤ o && o < 0xA080 then some (w64 (natBits (e.rAcc ((o - 0xA000) / 16)).toNat (64 * (o / 8 % 2)) 64))
  else if o / 8 = 0xA100 / 8 then some (w64 (e.p.toNat ||| 1))
  else if o / 8 = 0xA108 / 8 then some e.k
  else none

/-- Write a word of a register window. -/
def Engine.setWindow (e : Engine) (o : Nat) (v : Word) : Engine :=
  if 0x8000 ≤ o && o < 0x8200 then e.wA ((o - 0x8000) / 8) v
  else if 0x9000 ≤ o && o < 0x9800 then
    let i := (o - 0x9000) / 32
    e.wN i (BitVec.ofNat 256 (natSetBits (e.rN i).toNat (8 * (o % 32 / 8 * 8)) 64 v.toNat))
  else if 0xA000 ≤ o && o < 0xA080 then
    let i := (o - 0xA000) / 16
    { e with acc := Store.set 0 e.acc i (BitVec.ofNat 80 (natSetBits (e.rAcc i).toNat (64 * (o / 8 % 2)) 64 v.toNat)) }
  else if o / 8 = 0xA100 / 8 then { e with p := v.setWidth 16 &&& 0xFFFE }
  else if o / 8 = 0xA108 / 8 then { e with k := v }
  else e

/-- May an engine's registers be written through the ECS area, and its windows be read (R237, R533)? -/
def Engine.openToArea (e : Engine) : Bool := e.phase == .unreleased || e.halted

/-- The value of a word of the ECS area at offset `o`: a register, or a window while the engine stands open. -/
def Fab.areaWord (f : Fab) (en o : Nat) : Word :=
  let e := f.engine en
  if o < 0x8000 then (if (ecsAt (o / 8)).isSome then f.ecsValue en (o / 8) e.issueAt e.loops else 0)
  else if e.openToArea then (e.window o).getD 0 else 0

/-- Read a register through the ECS area: an unused offset reads 0. -/
def Fab.rdEcs (f : Fab) (m : Master) (a n : Nat) : Acc :=
  match f.refusal m a false with
  | some k => ⟨ones n, false, true, false, f.errLog m a k 0⟩
  | none =>
    if !regAligned a n then ⟨ones n, false, false, false, f⟩
    else
      ⟨regPart (f.areaWord (a / 0x100000) (a % 0x100000 - 0xF0000)) a n, false, false, false, f⟩

/-- Write a register through the ECS area: only while the engine is not released, or is halted (R237). A 32-bit write leaves
the other half (R10). -/
def Fab.wrEcs (f : Fab) (m : Master) (a n v : Nat) : Acc :=
  match f.refusal m a true with
  | some k => ⟨0, false, true, false, f.errLog m a k 0⟩
  | none =>
    let en := a / 0x100000
    let o := a % 0x100000 - 0xF0000
    let i := o / 8
    let e := f.engine en
    if !regAligned a n || !e.openToArea then ⟨0, false, false, false, f⟩
    else if 0x8000 ≤ o then
      match e.window o with
      | some w =>
        let v := if n = 8 then v else natSetBits w.toNat (8 * (a % 8)) 32 v
        ⟨0, false, false, false, f.setEng en (e.setWindow o (w64 v))⟩
      | none => ⟨0, false, false, false, f⟩
    else
      match ecsAt i with
      | some r =>
        let old := (f.ecsValue en i e.issueAt e.loops).toNat &&& r.rw
        let v := if n = 8 then v else natSetBits (natSetBits old (8 * (a % 8)) 32 0) (8 * (a % 8)) 32 v
        ⟨0, false, false, false, (f.perfSync en i).ecsWrite en i e.issueAt 0 (w64 v)⟩
      | none => ⟨0, false, false, false, f⟩

/-! ### The committed view (R363–R365) -/

/-- Where a committed-view offset leads in partition `p`: a word of a state page (engine, byte of the page), or journaled
memory; none reads as all-ones. -/
inductive CvLoc where
  | page (e o : Nat) | mem (a : Nat) | none
  deriving DecidableEq, Repr

def Fab.cvLoc (f : Fab) (p o : Nat) : CvLoc :=
  if o < 192 * 0x800 then
    if f.stateOk p o then .page (o / 0x800) (o % 0x800) else .none
  else if 0x80000000 ≤ o then
    match f.viewDdr p (f.get (Reg.SQ_CVDDR_BASE p) * 0x80000000 + (o - 0x80000000)) with
    | some a => .mem a
    | .none => .none
  else
    match f.viewMem p o with
    | some a => .mem a
    | .none => .none

/-- The journal entry that holds the row's contents at DCN `c`: the earliest of those above it (R364). Newest first in the
list. -/
def Fab.cvEntry (f : Fab) (p a c : Nat) : Option JEntry :=
  let s := f.share p
  let l := if isDdr a then s.dj else Store.get [] s.bj (blockOfAddr a)
  (l.filter (fun j => j.row == a / 32 * 32 && c < j.dcn)).getLast?

/-- Read `n` bytes of one code word through the committed view, from slot `k` and DCN `c`. -/
def Fab.cvPiece (f : Fab) (m : Master) (p k c o n : Nat) : Acc :=
  match f.cvLoc p o with
  | .none => ⟨ones n, false, false, false, f⟩
  | .page e w =>
    if !f.addrOn (slotBase e k + w) then ⟨ones n, false, true, false, f.errLog m (slotBase e k + w) 1 0⟩
    else
      let r := f.read m.src (slotBase e k + w) n
      ⟨if r.bad.isSome then ones n else r.data, r.bad.isSome, false, false, r.fab⟩
  | .mem a =>
    if !f.addrOn a then ⟨ones n, false, true, false, f.errLog m a 1 0⟩
    else
      let r := f.read m.src a n
      match r.fab.cvEntry p a c with
      | none => ⟨if r.bad.isSome then ones n else r.data, r.bad.isSome, false, false, r.fab⟩
      | some j =>
        match r.fab.entryLost j with
        | some x => ⟨ones n, true, false, false, (r.fab.read 2 j.at_ 64).fab.dataLoss p x⟩
        | none =>
          let q := r.fab.read 2 (j.at_ + 32 + a % 32) n
          ⟨if q.bad.isSome then ones n else q.data, q.bad.isSome, false, false, q.fab⟩

def Fab.cvWords (f : Fab) (m : Master) (p k c o n : Nat) : Nat → Acc
  | 0 => ⟨0, false, false, false, f⟩
  | fuel + 1 =>
    if n = 0 then ⟨0, false, false, false, f⟩
    else
      let b := min n (16 - o % 16)
      let r := f.cvPiece m p k c o b
      let t := r.fab.cvWords m p k c (o + b) (n - b) fuel
      ⟨r.data + 2 ^ (8 * b) * t.data, r.bad || t.bad, r.refused || t.refused, false, t.fab⟩

/-- One read request latches its DCN (R365): the Damson core and the debug port in SQ.MCVLAT. -/
def Fab.cvLatch (f : Fab) (m : Master) (p c : Nat) : Fab :=
  let v := if m.code ≤ 1 then Reg.SQ_MCVFLAGS_VALID else Reg.SQ_CVFLAGS_VALID p
  let x := if m.code ≤ 1 then Reg.SQ_MCVFLAGS_MIXED else Reg.SQ_CVFLAGS_MIXED p
  let l := if m.code ≤ 1 then Reg.SQ_MCVLAT_DCN else Reg.SQ_CVLAT_DCN p
  if f.bit v then (if f.get l = c then f else f.set x 1) else (f.set l c).set v 1

/-- A read request of `n` bytes through the committed view of partition `p` (R364): one state, HELD while GRANTED. -/
def Fab.cvRead (f : Fab) (m : Master) (p o n : Nat) : Acc :=
  let s := f.share p
  let held := f.bit (Reg.SQ_VIEW_CTL_GRANTED p)
  let c := if held then s.heldDcn else f.get (Reg.SQ_CDCN_DCN p)
  let k := if held then s.held.getD s.comm else s.comm
  (f.cvLatch m p c).cvWords m p k c o n (wordFuel n)

/-- Write `n` bytes of one code word through the committed view: LIVE and COMMITTED, or journaled memory (R363). -/
def Fab.cvPut (f : Fab) (m : Master) (p o n v : Nat) : Acc :=
  match f.cvLoc p o with
  | .none => ⟨0, false, true, false, f⟩
  | .page e w =>
    let s := f.share p
    if !f.addrOn (slotBase e s.live + w) then ⟨0, false, true, false, f.errLog m (slotBase e s.live + w) 1 0⟩
    else
      let r := f.write m.src (slotBase e s.live + w) n v
      let r' := r.fab.write m.src (slotBase e s.comm + w) n v
      ⟨0, r.dropped || r'.dropped, false, false, r'.fab⟩
  | .mem a =>
    if !f.addrOn a then ⟨0, false, true, false, f.errLog m a 1 0⟩
    else
      let r := f.write m.src a n v
      ⟨0, r.dropped, false, false, r.fab⟩

def Fab.cvPuts (f : Fab) (m : Master) (p o n v : Nat) : Nat → Acc
  | 0 => ⟨0, false, false, false, f⟩
  | fuel + 1 =>
    if n = 0 then ⟨0, false, false, false, f⟩
    else
      let b := min n (16 - o % 16)
      let r := f.cvPut m p o b (v % 2 ^ (8 * b))
      let t := r.fab.cvPuts m p (o + b) (n - b) (v / 2 ^ (8 * b)) fuel
      ⟨0, r.bad || t.bad, r.refused || t.refused, false, t.fab⟩

/-- A write through the committed view of partition `p`: discarded unless the share is STOPPED or HALTED (R363). -/
def Fab.cvWrite (f : Fab) (m : Master) (p o n v : Nat) : Acc :=
  if f.st p = 0 || f.st p = 5 then f.cvPuts m p o n v (wordFuel n) else ⟨0, false, true, false, f⟩

/-! ### Device addresses that are memory -/

/-- Is the device address in the committed view? -/
def inView (a : Nat) : Bool := 0x0400000000 ≤ a && a < 0x0500000000

/-- Is the device address in the device registers? -/
def inRegs (a : Nat) : Bool := 0x0200000000 ≤ a && a < 0x0201000000

/-- The partition that the committed view at 0x04_0000_0000 shows to a master (R363). A master of no single partition sees
none. -/
def Fab.viewPart (f : Fab) (m : Master) : Option Nat :=
  if m.code ≤ 1 then some (f.get Reg.SQ_MVIEW_PART)
  else if m.all then none
  else (List.range 8).find? (fun p => m.parts == 2 ^ p)

/-- A read of `n` bytes at a device address outside the device registers (R232): ECS areas, the committed view, memories. -/
def Fab.rdDev (f : Fab) (m : Master) (a n : Nat) : Acc :=
  if inEcs a then f.rdEcs m a n
  else if inView a then
    match f.viewPart m with
    | some p => f.cvRead m p (a - 0x0400000000) n
    | none => ⟨ones n, false, true, false, f.errLog m a 0 0⟩
  else (f.fenceCount m a n false).rdMem m a n (wordFuel n)

/-- A write of `n` bytes at a device address outside the device registers. -/
def Fab.wrDev (f : Fab) (m : Master) (a n v : Nat) : Acc :=
  if inEcs a then f.wrEcs m a n v
  else if inView a then
    match f.viewPart m with
    | some p => f.cvWrite m p (a - 0x0400000000) n v
    | none => ⟨0, false, true, false, f.errLog m a 0 0⟩
  else (f.fenceCount m a n true).wrMem m a n v (wordFuel n)

end Sys2Proof.Machine
end

