-- ==== Sys2Proof/Machine/Dma.lean ====
section
/-! DEFINITION. Background packets as sent (R316–R318) and the DMA engine (spec/13): the requests of its two engines. What the
responses do stands in DmaCmds.lean, since a channel may reach device registers. -/

namespace Sys2Proof.Machine

/-! ### Sending background packets (R318) -/

/-- The flits of a packet: its header, then its data. -/
def BgPkt.flits (k : BgPkt) : List Flit :=
  rsEncode (0x01 + k.data.length * 2 ^ 8 + k.seq % 4096 * 2 ^ 16 + k.cls % 16 * 2 ^ 28 + k.addr % 2 ^ 40 * 2 ^ 32) ::
    k.data.map rsEncode

/-- Put the flits of a packet on the wire. -/
def Fab.emitPkt (f : Fab) (c : Nat) (k : BgPkt) : Fab := k.flits.foldl (fun g w => g.emit (.flit c w)) f

/-- Send what waits while credits and the replay buffer allow. `fuel` bounds the packets. -/
def Fab.drainTx (f : Fab) (c : Nat) : Nat → Fab
  | 0 => f
  | fuel + 1 =>
    let l := f.port c
    match l.txq with
    | k :: t =>
      if l.credits = 0 || 64 ≤ l.replay.length then f
      else
        let f := f.updPort c (fun l => { l with txq := t, credits := l.credits - 1, replay := l.replay ++ [k] })
        (f.emitPkt c k).drainTx c fuel
    | [] => f

/-- Send a packet of 16-byte words: its SEQ, and the fabric. -/
def Fab.sendPkt (f : Fab) (c cls addr : Nat) (data : List Nat) : Nat × Fab :=
  let s := (f.port c).txSeq
  let k : BgPkt := ⟨s, cls, addr, data⟩
  let f := f.updPort c (fun l => { l with txSeq := (s + 1) % 4096, txq := l.txq ++ [k] })
  (s, f.drainTx c ((f.port c).txq.length))

/-! ### Descriptors (R405, R406) -/

def DmaCh.fld (x : DmaCh) (lo w : Nat) : Nat := natBits x.desc.toNat lo w
def DmaCh.src (x : DmaCh) : Nat := x.fld 0 64
def DmaCh.dst (x : DmaCh) : Nat := x.fld 64 64
def DmaCh.dlen (x : DmaCh) : Nat := x.fld 128 32
def DmaCh.srcSp (x : DmaCh) : Nat := x.fld 160 2
def DmaCh.dstSp (x : DmaCh) : Nat := x.fld 162 2
def DmaCh.cport (x : DmaCh) : Nat := x.fld 164 4
def DmaCh.nxtSp (x : DmaCh) : Bool := x.fld 168 1 == 1
def DmaCh.stop (x : DmaCh) : Bool := x.fld 169 1 == 1
def DmaCh.wb (x : DmaCh) : Bool := x.fld 170 1 == 1
def DmaCh.irq (x : DmaCh) : Bool := x.fld 171 1 == 1
def DmaCh.next (x : DmaCh) : Nat := x.fld 192 64

/-- Is the fetched descriptor of channel `k` valid (R406)? SRC and DST are checked as their accesses are made. -/
def Fab.descOk (f : Fab) (k : Nat) : Bool :=
  let x := f.ch k
  let own := f.chanPart k
  x.fld 172 20 == 0 && x.fld 384 128 == 0 && x.srcSp ≠ 3 && x.dstSp ≠ 3 && !(x.srcSp == 2 && x.dstSp == 2) &&
    (x.dstSp == 2 || x.cport == 0) &&
    (own.isSome || (x.srcSp ≠ 1 && x.dstSp ≠ 1 && !x.nxtSp)) &&
    (x.dstSp ≠ 2 || (f.portActive x.cport && f.unitPart (24 + x.cport) == own)) &&
    (x.stop || x.next % 64 == 0)

/-- Do source and destination of the descriptor overlap (R408)? -/
def DmaCh.overlap (x : DmaCh) : Bool :=
  x.srcSp == x.dstSp && x.srcSp ≤ 1 && x.src < x.dst + x.dlen && x.dst < x.src + x.dlen

/-- The address at which beats are counted: SRC, taken as 0 for a fill (R408). -/
def DmaCh.beat0 (x : DmaCh) : Nat := if x.srcSp = 2 then 0 else x.src

/-! ### Hosts and chunks -/

/-- The host port of a channel, if a partition owns it (R403). -/
def Fab.chanPort (f : Fab) (k : Nat) : Option Nat := (f.chanPart k).map f.portOf

/-- May the channel send requests to a host: it has host space, and the port's Bus Master Enable is 1 (R373, R403)? -/
def Fab.chanBme (f : Fab) (k : Nat) : Bool := (f.chanPort k).any (fun n => f.bit (Reg.HP_STAT_BME n))

/-- Max Payload Size (`lo` 5) or Max Read Request Size (`lo` 12) of the channel's port (R371). -/
def Fab.chanMax (f : Fab) (k lo : Nat) : Nat := 128 * 2 ^ natBits (f.cfgWord ((f.chanPort k).getD 0) 30).toNat lo 3

/-- The chunks of the DMA buffer that a channel holds (R402). -/
def DmaCh.chunks (x : DmaCh) : List Nat := x.rq.map DmaReq.chunk ++ x.fl.map DmaFill.chunk

/-- The chunks in use. -/
def Fab.dmaUsed (f : Fab) : List Nat := ((List.range 32).map (fun k => (f.ch k).chunks)).flatten

/-- The device address of a byte of a chunk. -/
def chunkAt (c o : Nat) : Nat := 0x0300300000 + 256 * c + o

/-- Put `n` bytes of source data into a chunk of the DMA buffer: whole code words, the rest of the last one free. -/
def Fab.chunkPut (f : Fab) (c n data : Nat) : Fab :=
  if n = 0 then f
  else
    let full := (n + 15) / 16 * 16
    let r := f.free (8 * full)
    (r.2.write 6 (chunkAt c 0) full (natSetBits r.1 0 (8 * n) data)).fab

/-- Show chunks in use and quiescence (R421). -/
def Fab.dmaStat (f : Fab) : Fab :=
  let f := f.set Reg.DMA_STAT_BUFUSE f.dmaUsed.length
  f.set Reg.DMA_STAT_QUIESCE (b2n ((List.range 32).all (fun k => f.bit (Reg.DMA_CH_STAT_QUIESCE k))))

/-! ### Halts and failures -/

/-- A channel halts with a status (R411, R414); `raised` says that its completion has already raised DMA_CHk. -/
def Fab.chHalt (f : Fab) (k status : Nat) (raised : Bool) : Fab :=
  let f := f.set (Reg.DMA_CH_STAT_STATE k) 2
  let f := f.set (Reg.DMA_CH_STAT_STATUS k) status
  let f := f.set (Reg.DMA_CH_STAT_QUIESCE k) 1
  let f := (f.updCh k (fun x => { x with stage := .none, rq := [], fl := [], wOut := [] })).dmaStat
  if raised then f else f.raise (81 + k) true

/-- A failure of the descriptor at an address: the status is the first of DATA_TIMEOUT, WRITE_ERR and ERROR, with the address of
the failure that gives it (R417); no further request is issued. -/
def Fab.chFail (f : Fab) (k addr status : Nat) : Fab :=
  let f := if (f.ch k).status < status then f.set (Reg.DMA_CH_ERRADDR_ADDR k) addr else f
  f.updCh k (fun x => { x with status := max x.status status, ended := true })

/-- Free bytes in a range of device memory that the master may write: destination bytes that a failed write leaves
undefined (R416, R418). -/
def Fab.freeFill (f : Fab) (m : Master) (a n : Nat) : Nat → Fab
  | 0 => f
  | fuel + 1 =>
    if n = 0 then f
    else
      let b := min n (16 - a % 16)
      let f := if inView a || inEcs a || inRegs a || (f.refusal m a true).isSome || (f.fencedBy a true).isSome then f
        else
          let r := f.free (8 * b)
          (r.2.write m.src a b r.1).fab
      f.freeFill m (a + b) (n - b) fuel

/-- Fill with free bytes as far as a destination reaches. -/
def Fab.undefined (f : Fab) (m : Master) (a n : Nat) : Fab := f.freeFill m a n (wordFuel n)

/-- A write of the descriptor fails at a destination address (R416, R417): no further data is written, and a device destination is
undefined from there on, also where a write already issued completes. -/
def Fab.chWriteFail (f : Fab) (k addr status : Nat) : Fab :=
  let x := f.ch k
  let f := f.chFail k addr status
  let f := if x.dstSp = 0 then f.undefined (f.chan k) addr (x.dst + x.dlen - addr) else f
  f.updCh k (fun x => { x with fl := [], ovl := true })

/-- The descriptor completes once every write of its data has its response; a host destination is flushed first (R410). -/
def Fab.chSettle (f : Fab) (k : Nat) : Fab :=
  let x := f.ch k
  if x.stage = .run && x.rq = [] && x.fl = [] && x.wOut = [] && (x.ended || x.dlen ≤ x.off) && !(x.dstSp == 1 && x.wOff ≠ 0) then
    f.updCh k (fun x => { x with stage := .done })
  else f

/-! ### The read engine (R401, R408) -/

/-- Ask for the descriptor at an address (R411, R412): the budget is checked at once, and the fetch waits for its turn. -/
def Fab.chFetch (f : Fab) (k addr : Nat) (host raised : Bool) : Fab :=
  let f := f.set (Reg.DMA_CH_CUR_ADDR k) addr
  let f := f.updCh k (fun x => { x with curHost := host })
  if f.get (Reg.DMA_CH_CFG_BUDGET k) ≤ (f.ch k).fetched then f.chHalt k 7 raised
  else if host && !f.chanBme k then f.chHalt k 6 raised
  else f.updCh k (fun x => { x with stage := .want, fetched := x.fetched + 1 })

/-- Has the read engine a request to issue for a channel: a fetch, or a read for which the channel has a free chunk (R402)? -/
def Fab.canRead (f : Fab) (k : Nat) : Bool :=
  let x := f.ch k
  x.stage == .want || (x.stage == .run && !x.ended && x.off < x.dlen && x.chunks.length < f.get (Reg.DMA_CH_CFG_BUFMAX k) &&
    f.dmaUsed.length < 1024)

/-- The length of the next read request (R408): up to a 256-byte boundary of the source, and for a host within its Max Read Request
Size, at a multiple of it (log 38). -/
def Fab.rdLen (f : Fab) (k : Nat) : Nat :=
  let x := f.ch k
  let a := x.beat0 + x.off
  let n := min (x.dlen - x.off) (256 - a % 256)
  if x.srcSp = 1 then min n (f.chanMax k 12 - a % f.chanMax k 12) else n

/-- A turn of the read engine for a channel: the fetch of its descriptor, or its next read. A fill takes its chunk and reads
nothing. -/
def Fab.readTurn (f : Fab) (k : Nat) : Fab :=
  let x := f.ch k
  if x.stage = .want then
    let f := f.updCh k (fun x => { x with stage := .fetch })
    if x.curHost then f.emit (.hostRead ((f.chanPort k).getD 0) (f.get (Reg.DMA_CH_CUR_ADDR k)) 64) else f
  else
    let n := f.rdLen k
    let f := f.set (Reg.DMA_CH_COUNT_COUNT k) (x.dlen - x.off - n)
    if x.srcSp = 1 && !f.chanBme k then (f.chFail k (x.src + x.off) 2).chSettle k
    else
      let used := f.dmaUsed
      let c := ((List.range 1024).find? (fun c => !used.contains c)).getD 0
      if x.srcSp = 2 then
        let b := (List.range n).foldl (fun v i => v + natBits x.src (8 * ((x.off + i) % 8)) 8 * 2 ^ (8 * i)) 0
        ((f.chunkPut c n b).updCh k (fun x => { x with off := x.off + n, fl := x.fl ++ [⟨c, 0, n⟩] })).dmaStat
      else
        let f := (f.updCh k (fun y => { y with off := y.off + n, rq := y.rq ++ [⟨y.off, n, c⟩] })).dmaStat
        if x.srcSp = 1 then f.emit (.hostRead ((f.chanPort k).getD 0) (x.src + x.off) n) else f

/-! ### The write engine (R401, R408, R410) -/

/-- Has the write engine a request to issue for a channel: a data write, or the flush read of a host destination? -/
def Fab.canWrite (f : Fab) (k : Nat) : Bool :=
  let x := f.ch k
  x.stage == .run && (x.fl ≠ [] || (x.dstSp == 1 && x.wOff ≠ 0 && x.rq = [] && (x.ended || x.dlen ≤ x.off)))

/-- The length of the next write request from the first filled chunk (R408): up to a 256-byte boundary of the destination, and for a
host at most its Max Payload Size. -/
def Fab.wrLen (f : Fab) (k : Nat) : Nat :=
  let x := f.ch k
  let n := min (x.fl.head?.elim 0 DmaFill.len) (256 - (x.dst + x.wOff) % 256)
  if x.dstSp = 1 then min n (f.chanMax k 5) else n

/-- The next `n` bytes are issued: their chunk is freed with its last byte (R402). -/
def Fab.chIssued (f : Fab) (k n : Nat) (w : List DmaWr) : Fab :=
  ((f.updCh k (fun x => { x with
    wOff := x.wOff + n
    wOut := x.wOut ++ w
    fl := match x.fl with
      | q :: t => if q.len ≤ n then t else ⟨q.chunk, q.pos + n, q.len - n⟩ :: t
      | [] => [] })).dmaStat).chSettle k

/-- A code word of the chunk in turn reads as poison: a read of the source fails at its beat (R414, R415). -/
def Fab.chunkBad (f : Fab) (k bad : Nat) : Fab :=
  let x := f.ch k
  match x.fl with
  | q :: _ =>
    let o := x.wOff + (bad - chunkAt q.chunk q.pos)
    let beat := max x.beat0 ((x.beat0 + o) / 64 * 64)
    let n := beat - x.beat0 - x.wOff
    (((f.chFail k beat 2).updCh k (fun x => { x with
      fl := if n = 0 then [] else [{ q with len := n }] })).dmaStat).chSettle k
  | [] => f

/-- A turn of the write engine for a channel. Where source and destination overlap, the data is free. -/
def Fab.writeTurn (f : Fab) (k : Nat) : Fab :=
  let x := f.ch k
  match x.fl with
  | [] =>
    if !f.chanBme k then (f.chFail k (x.dst + x.wOff - 1) 3).updCh k (fun x => { x with stage := .done })
    else (f.emit (.hostRead ((f.chanPort k).getD 0) (x.dst + x.wOff - 1) 0)).updCh k (fun x => { x with stage := .flush })
  | q :: _ =>
    let n := f.wrLen k
    let r := f.read 6 (chunkAt q.chunk q.pos) n
    match r.bad with
    | some b => r.fab.chunkBad k b
    | none =>
      let d := if x.ovl then r.fab.free (8 * n) else (r.data, r.fab)
      let f := d.2
      let a := x.dst + x.wOff
      if x.dstSp = 0 then f.chIssued k n [⟨a, n, d.1, 0⟩]
      else if x.dstSp = 1 then
        if !f.chanBme k then ((f.chWriteFail k a 3).dmaStat).chSettle k
        else (f.emit (.hostWrite ((f.chanPort k).getD 0) a n d.1)).chIssued k n []
      else if !f.portActive x.cport || 2 ^ 40 < a + n then ((f.chWriteFail k a 3).dmaStat).chSettle k
      else
        let lo := a % 16
        let words := (lo + n + 15) / 16
        let pad := f.free (128 * words)
        let v := natSetBits pad.1 (8 * lo) (8 * n) d.1
        let p := pad.2.sendPkt x.cport 0 (a - lo) ((List.range words).map (fun i => natBits v (128 * i) 128))
        p.2.chIssued k n [⟨a, n, 0, p.1⟩]

/-! ### Turns (R401) -/

/-- The channel that an engine serves next: the first after the one it served last that has a request. -/
def turnOf (last : Nat) (can : Nat → Bool) : Option Nat :=
  ((List.range 32).map (fun i => (last + 1 + i) % 32)).find? can

/-- Both engines serve the channels in round robin, one request per turn, until no request can be issued. `fuel` bounds the
turns. -/
def Fab.dmaServe (f : Fab) : Nat → Fab
  | 0 => f
  | fuel + 1 =>
    let r := turnOf f.dmaR f.canRead
    let f := match r with
      | some k => { f.readTurn k with dmaR := k }
      | none => f
    let w := turnOf f.dmaW f.canWrite
    let f := match w with
      | some k => { f.writeTurn k with dmaW := k }
      | none => f
    if r.isNone && w.isNone then f else f.dmaServe fuel

/-- Turns enough for every request of the channels: each moves a byte at least, or fetches or flushes. -/
def Fab.dmaFuel (f : Fab) : Nat := ((List.range 32).map (fun k => 2 * (f.ch k).dlen + 4)).sum

/-- The engines issue what they can. -/
def Fab.dmaRun (f : Fab) : Fab := f.dmaServe f.dmaFuel

/-! ### Starts, stops and lost responses -/

/-- DMA_START: a write of 1 to DMA.CH_CTL.START by a master (R407). -/
def Fab.dmaStart (f : Fab) (m : Master) (k : Nat) : Fab :=
  let ok := match f.chanPart k with
    | some p => m.code == 0 || m.code == 2 + f.portOf p
    | none => m.code == 0
  let st := f.get (Reg.DMA_CH_STAT_STATE k)
  if f.bit Reg.DMA_CTL_DISABLE || !ok || !(st = 0 || (st = 2 && f.bit (Reg.DMA_CH_STAT_QUIESCE k))) then
    f.set (Reg.DMA_CH_STAT_STARTERR k) 1
  else
    let f := (f.set (Reg.DMA_CH_STAT_STATE k) 1).set (Reg.DMA_CH_STAT_QUIESCE k) 0
    let f := f.set (Reg.DMA_CH_STAT_DONE k) 0
    let f := (f.updCh k (fun _ => DmaCh.reset)).dmaStat
    (f.chFetch k (f.get (Reg.DMA_CH_HEAD_ADDR k) * 64) (f.bit (Reg.DMA_CH_CFG_HEADSP k)) false).dmaRun

/-- Has a channel a request outstanding? -/
def DmaCh.busy (x : DmaCh) : Bool :=
  x.stage == .fetch || x.stage == .flush || x.rq ≠ [] || x.wOut ≠ [] || (x.stage == .done && x.wb)

/-- Disable one channel (R418). Its outstanding requests end with DMA_QUIESCE, which performs or discards the writes to the device
among them. -/
def Fab.dmaDisable (f : Fab) (k : Nat) : Fab :=
  let x := f.ch k
  let wait := x.busy || (x.stage == .none && !f.bit (Reg.DMA_CH_STAT_QUIESCE k))
  let wbq : DmaWr := ⟨f.get (Reg.DMA_CH_CUR_ADDR k) + 32, 8, x.status + f.get (Reg.DMA_CH_COUNT_COUNT k) * 2 ^ 32, 0⟩
  let c := f.free 32
  let e := c.2.free 64
  let d := e.2.free 16
  let f := ((d.2.set (Reg.DMA_CH_COUNT_COUNT k) c.1).set (Reg.DMA_CH_ERRADDR_ADDR k) e.1).set (Reg.DMA_CH_STAT_DONE k) d.1
  let f := (f.set (Reg.DMA_CH_STAT_STATE k) 2).set (Reg.DMA_CH_STAT_STATUS k) 8
  let f := f.set (Reg.DMA_CH_STAT_QUIESCE k) (b2n !wait)
  (f.updCh k (fun y => if !wait then DmaCh.reset else { y with
    stage := .none
    wOut := if x.stage == .done then (if x.curHost then [] else [wbq]) else if x.stage == .none || x.dstSp == 0 then y.wOut
      else [] })).dmaStat

/-- A write of DMA.CTL.DISABLE (R418). -/
def Fab.dmaCtl (f : Fab) (v : Bool) : Fab :=
  let f := f.set Reg.DMA_CTL_DISABLE (b2n v)
  if v then (List.range 32).foldl (fun g k => g.dmaDisable k) f else f

/-- A packet is acknowledged (R410): the channel that waits for it goes on. -/
def Fab.dmaAcked (f : Fab) (c seq : Nat) : Fab :=
  match (List.range 32).find? (fun k =>
    let x := f.ch k
    x.dstSp == 2 && x.cport == c && x.wOut.any (fun w => w.seq == seq)) with
  | some k => ((f.updCh k (fun x => { x with wOut := x.wOut.filter (fun w => w.seq ≠ seq) })).chSettle k).dmaRun
  | none => f

/-- A port leaves ACTIVE (R410): every descriptor that waits for one of its ACKs fails. -/
def Fab.dmaPortLost (f : Fab) (c : Nat) : Fab :=
  ((List.range 32).foldl (fun g k =>
    let x := g.ch k
    if x.dstSp == 2 && x.cport == c then
      match x.wOut with
      | w :: _ =>
        let g := g.updCh k (fun x => { x with wOut := [] })
        if x.stage = .run then ((g.chWriteFail k w.addr 3).dmaStat).chSettle k else g
      | [] => g
    else g) f).dmaRun

/-- Does the outstanding request of an engine of the channel wait for the DDR sweep? The wait counts toward no timeout (R284, R409). -/
def Fab.chUnswept (f : Fab) (k : Nat) (wr : Bool) : Bool :=
  let x := f.ch k
  let cur := f.get (Reg.DMA_CH_CUR_ADDR k)
  match x.stage with
  | .fetch => !x.curHost && f.unswept (cur + 63)
  | .run =>
    if wr then x.dstSp == 0 && x.wOut.head?.any (fun w => f.unswept (w.addr + w.len - 1))
    else x.srcSp == 0 && x.rq.head?.any (fun q => f.unswept (x.src + q.off + q.len - 1))
  | .done => x.wb && !x.curHost && f.unswept (cur + 39)
  | _ => false

/-- DMA_TIMEOUT (R413, R417): the oldest request of the write engine (`wr`) or of the read engine has had no response for 64 µs. A
device write that times out has been performed or not, freely: its bytes are undefined. -/
def Fab.dmaTimeout (f : Fab) (k : Nat) (wr : Bool) : Fab :=
  let x := f.ch k
  let f := if f.chUnswept k wr then f
    else match x.stage with
      | .fetch => if wr then f else f.chHalt k 5 false
      | .run =>
        if wr then
          match x.wOut with
          | w :: t => (((f.updCh k (fun x => { x with wOut := t })).chWriteFail k w.addr 4).dmaStat).chSettle k
          | [] => f
        else
          match x.rq with
          | q :: t => (((f.chFail k (x.src + q.off) 4).updCh k (fun x => { x with rq := t })).dmaStat).chSettle k
          | [] => f
      | .flush => if wr then (f.chFail k (x.dst + x.wOff - 1) 4).updCh k (fun x => { x with stage := .done }) else f
      | .done =>
        if wr && x.wb then
          (if x.curHost then f else f.undefined (f.chan k) (f.get (Reg.DMA_CH_CUR_ADDR k)) 64).chHalt k 4 false
        else f
      | _ => f
  f.dmaRun

/-! ### The meanings that reach no memory -/

/-- Run an operation that acts on a DMA channel. -/
def onChan (k : Nat) (g : Fab → Fab) (s : State) : Host.Outcome State Fault Refusal :=
  if k < 32 then .next { s with fab := s.fab.whenActive g } else .refused .noSuchUnit

/-- The master of a code: 0 Damson core, 1 debug port, 2–5 HP0–HP3. -/
def Fab.master (f : Fab) (code : Nat) : Master :=
  if code = 0 then damson else if code = 1 then dbgPort else f.host (code - 2)

/-- DMA_START by the master of a code. -/
def execDmaStart (master k : Nat) (s : State) : Host.Outcome State Fault Refusal :=
  if master < 6 then onChan k (fun f => f.dmaStart (f.master master) k) s else .refused .noSuchUnit

/-- DMA_DISABLE. -/
def execDmaDisable (k : Nat) (s : State) : Host.Outcome State Fault Refusal := onChan k (fun f => f.dmaDisable k) s

/-- DMA_CTL_DISABLE. -/
def execDmaCtlDisable (v : Bool) (s : State) : Host.Outcome State Fault Refusal := .next { s with fab := s.fab.whenActive (fun f => f.dmaCtl v) }

/-- DMA_TIMEOUT. -/
def execDmaTimeout (x : DmaLate) (s : State) : Host.Outcome State Fault Refusal := onChan x.k (fun f => f.dmaTimeout x.k x.wr) s

end Sys2Proof.Machine
end

