-- ==== Sys2Proof/Machine/Link.lean ====
section
/-! DEFINITION. Caluf ports (spec/10): training, the timebase, scheduled flits, control flits and link-down. -/

namespace Sys2Proof.Machine

/-! ### Port states (R319, R332) -/

/-- States of LINK.STAT.STATE. -/
def lsDisabled : Nat := 0
def lsElec : Nat := 1
def lsAlign : Nat := 2
def lsExchange : Nat := 3
def lsSync : Nat := 4
def lsPin : Nat := 5
def lsActive : Nat := 6
def lsDown : Nat := 7

def Fab.lst (f : Fab) (c : Nat) : Nat := f.get (Reg.LINK_STAT_STATE c)

/-- Send the levels of LINK_DOWN that port `c` has a part in (R425): high while a port is DOWN. -/
def Fab.linkLevels (f : Fab) (c : Nat) : Fab :=
  let f := f.raise 3 ((List.range 16).any (fun x => f.lst x == lsDown))
  match f.portPart c with
  | some p => f.raise (33 + p) ((f.portsOf p).any (fun x => f.lst x == lsDown))
  | none => f

/-- The alignment pattern of frame flits (R314). -/
def framePattern : Flit := BitVec.ofNat 160 0x010B1A10

/-- The frame flit that carries a map (R314). -/
def frameFlitOf (map : Nat) : Flit := rsEncode map ^^^ framePattern

/-- Move a port to a state; entering or leaving DOWN changes the levels. Entering PIN starts its measurement (R323), and
leaving the trained states loses the frame lock. In ALIGN the frames begin, with an empty map (R314, R319; log 99). -/
def Fab.linkGo (f : Fab) (c st : Nat) : Fab :=
  let old := f.lst c
  let f := f.set (Reg.LINK_STAT_STATE c) st
  let f := if st = lsPin then
      (f.setReg (Reg.LINK_MEAS c) 0).updPort c (fun l => { l with probes := 0 })
    else if st = lsActive then f.updPort c (fun l => { l with
      mapBad := false, rxSeq := 0, txSeq := 0, replay := [], txq := [], credits := 32, resend := 0 })
    else if st ≤ lsElec || st = lsDown then f.updPort c (fun l => { l with
      hits := 0, miss := 0, lock := false, mapBad := false, pos := 136, sqq := [] })
    else if st = lsAlign then f.emit (.flit c (frameFlitOf 0))
    else f
  if (old == lsDown) ≠ (st == lsDown) then f.linkLevels c else f

/-- A DOWN flit with a cause (R316). -/
def downFlit (cause : Nat) : Flit := rsEncode (0x3F + cause % 16 * 2 ^ 8)

/-- The partitions that own a Caluf port. -/
def Fab.portOwners (f : Fab) : List Nat := (List.range 8).filter (fun p => f.portsOf p ≠ [])

/-- A port leaves ACTIVE for a state (R332): held flits are discarded, LINK_DOWN is raised, the owner halts. -/
def Fab.leaveActive (f : Fab) (c st : Nat) : Fab :=
  let f := f.updPort c (fun l => { l with held := [] })
  let f := f.raise 3 true
  let f := match f.portPart c with
    | some p => (f.raise (33 + p) true).halt p 3
    | none => f
  let f := (f.linkGo c st).dmaPortLost c
  if st = lsDown then f else f.linkLevels c

/-- An ACTIVE port goes DOWN with a cause. -/
def Fab.portDown (f : Fab) (c cause : Nat) : Fab :=
  if f.portActive c then
    let f := f.emit (.flit c (downFlit cause))
    (f.set (Reg.LINK_STAT_CAUSE c) cause).leaveActive c lsDown
  else f

/-- The timebase parent port has left ACTIVE (R322): holdover, every partition that owns a port halts, and the other ports go
DOWN. -/
def Fab.parentLost (f : Fab) (c : Nat) : Fab :=
  if f.get Reg.LINK_TBCTL_PARENT = c then
    let f := (f.set Reg.LINK_TBCTL_HOLDOVER 1).set Reg.LINK_TBCTL_VALID 0
    let f := f.portOwners.foldl (fun g p => g.halt p 6) f
    (List.range 16).foldl (fun g x => g.portDown x 12) f
  else f

/-- An ACTIVE port fails with a cause (R319, R322, R332). -/
def Fab.linkFail (f : Fab) (c cause : Nat) : Fab := if f.portActive c then (f.portDown c cause).parentLost c else f

/-- A port in training goes DOWN with a cause. -/
def Fab.trainFail (f : Fab) (c cause : Nat) : Fab := (f.set (Reg.LINK_STAT_CAUSE c) cause).linkGo c lsDown

/-- Does a share of the port's owner stand outside STOPPED and HALTED? -/
def Fab.portBusy (f : Fab) (c : Nat) : Bool :=
  match f.portPart c with
  | some p => f.st p ≠ 0 && f.st p ≠ 5
  | none => false

/-- A write of LINK.CTL.EN (R319). -/
def Fab.linkEn (f : Fab) (c : Nat) (v : Bool) : Fab :=
  if v then
    let f := f.set (Reg.LINK_CTL_EN c) 1
    if f.lst c = lsDisabled then f.linkGo c lsElec else f
  else
    let f := f.set (Reg.LINK_CTL_EN c) 0
    if f.lst c = lsDisabled then f
    else
      let f := f.emit (.flit c (downFlit 0))
      if f.portActive c then
        (if f.portBusy c then f.leaveActive c lsDisabled
          else ((f.updPort c (fun l => { l with held := [] })).linkGo c lsDisabled).dmaPortLost c).parentLost c
      else f.linkGo c lsDisabled

/-- LINK.CTL.RETRAIN := 1 (R319). -/
def Fab.linkRetrain (f : Fab) (c : Nat) : Fab :=
  if f.lst c = lsDown then f.linkGo c lsElec
  else if f.portActive c then ((f.emit (.flit c (downFlit 0))).leaveActive c lsElec).parentLost c
  else f

/-- A write of LINK.LAT (R335, R319): an ACTIVE port repeats its measurement, and leaves ACTIVE for it (R322, R332). -/
def Fab.linkLat (f : Fab) (c v : Nat) : Fab :=
  if (f.portPart c).any f.runs then f
  else
    let f := f.set (Reg.LINK_LAT_LAT c) (max 16 (v % 4096))
    if f.portActive c then (f.leaveActive c lsPin).parentLost c else f

/-- ELEC_DONE. -/
def Fab.elecDone (f : Fab) (c : Nat) : Fab := if f.lst c = lsElec then f.linkGo c lsAlign else f

/-- ELEC_TIMEOUT: 500 ms have passed in ELEC. -/
def Fab.elecTimeout (f : Fab) (c : Nat) : Fab := if f.lst c = lsElec then f.trainFail c 1 else f

/-- The TRAIN flit of this end (R316). Bit 39 carries the precoding that the receiver wants, which the spec ties to no
register: a free bit. -/
def Fab.trainFlit (f : Fab) (c : Nat) : Fab :=
  let r := f.free 1
  r.2.emit (.flit c (rsEncode (0x30 + f.mgmt.did * 2 ^ 8 + c * 2 ^ 22 + f.get (Reg.LINK_CTL_FEC c) * 2 ^ 26 +
    f.get (Reg.LINK_LAT_LAT c) * 2 ^ 27 + r.1 * 2 ^ 39)))

/-- ALIGN_LOCK (R312, R319): every lane has locked, with the lane order and polarities found, and frame lock. -/
def Fab.alignLock (f : Fab) (c : Nat) (lrev : Bool) (lpol : Nat) : Fab :=
  if f.lst c = lsAlign && (f.port c).lock then
    let f := (f.set (Reg.LINK_STAT_LREV c) (b2n lrev)).set (Reg.LINK_STAT_LPOL c) lpol
    (f.linkGo c lsExchange).trainFlit c
  else f

/-- ALIGN_FAIL. -/
def Fab.alignFail (f : Fab) (c : Nat) : Fab := if f.lst c = lsAlign then f.trainFail c 2 else f

/-- The cause with which a peer's TRAIN disagrees (R319): FEC, then latency, then cabling. -/
def Fab.trainBad (f : Fab) (c pay : Nat) : Option Nat :=
  let did := natBits pay 8 14
  let named := f.get (Reg.LINK_EXPECT_DID c) == did
  if natBits pay 26 1 ≠ f.get (Reg.LINK_CTL_FEC c) then some 4
  else if natBits pay 27 12 ≠ f.get (Reg.LINK_LAT_LAT c) then some 5
  else if f.bit (Reg.LINK_EXPECT_CHECK c) && !(named && f.get (Reg.LINK_EXPECT_PORT c) == natBits pay 22 4) then some 3
  else if did = f.mgmt.did && !named then some 3
  else none

/-- A control flit with a timebase value (R316). -/
def stampFlit (ty t : Nat) : Flit := rsEncode (ty + t % 2 ^ 64 * 2 ^ 64)

/-- TRAIN (R319). The child sends TIMESYNC as it enters SYNC (R322). -/
def Fab.rxTrain (f : Fab) (c now : Nat) (w : Flit) : Fab :=
  match f.rxCtl c now w 0x30 with
  | (some pay, f) =>
    if f.lst c ≠ lsExchange then f
    else
      match f.trainBad c pay with
      | some k => f.trainFail c k
      | none =>
        let f := (f.set (Reg.LINK_PEER_DID c) (natBits pay 8 14)).set (Reg.LINK_PEER_PORT c) (natBits pay 22 4)
        let f := (f.set (Reg.LINK_PEER_FEC c) (natBits pay 26 1)).set (Reg.LINK_PEER_LAT c) (natBits pay 27 12)
        let f := f.set (Reg.LINK_PEER_VALID c) 1
        if f.get Reg.LINK_TBCTL_PARENT = c then (f.linkGo c lsSync).emit (.flit c (stampFlit 0x10 f.tbNow))
        else f.linkGo c lsPin
  | (none, f) => f

/-! ### The timebase (R320–R324) -/

/-- TIMESYNC arrives and is echoed (R322); `now` is this device's timebase. -/
def Fab.rxTimesync (f : Fab) (c now : Nat) (w : Flit) : Fab :=
  match f.rxCtl c now w 0x10 with
  | (some _, f) =>
    if lsExchange ≤ f.lst c && f.lst c ≠ lsDown then (f.seenTb now).emit (.flit c (stampFlit 0x11 now)) else f
  | (none, f) => f

/-- TIMESYNC_ECHO completes the exchange (R322): the child sets its timebase to the parent's plus half the measured round
trip `rtt`. -/
def Fab.rxEcho (f : Fab) (c now rtt : Nat) (w : Flit) : Fab :=
  match f.rxCtl c now w 0x11 with
  | (some pay, f) =>
    if f.lst c = lsSync && f.get Reg.LINK_TBCTL_PARENT = c then
      let f := (f.seenTb now).setTb (natBits pay 64 64 + rtt / 2)
      let f := (f.set Reg.LINK_TBCTL_VALID 1).set Reg.LINK_TBCTL_HOLDOVER 0
      f.linkGo c lsPin
    else f
  | (none, f) => f

/-- The ECLK of a port's owning partition in units of 10 MHz (R323, R555); a port of no partition counts as 1.6 GHz. -/
def Fab.portFreq (f : Fab) (c : Nat) : Nat :=
  match f.portPart c with
  | some p =>
    match f.blocks p with
    | b :: _ => f.get (Reg.PWR_ECLK_FREQ ((b % 6) / 2 + 3 * (b / 12)))
    | [] => 160
  | none => 160

/-- The pinning inequality of R323 for a measurement. -/
def Fab.pinOk (f : Fab) (c meas : Nat) : Bool :=
  (meas + f.get (Reg.LINK_CTL_MARGIN c)) * f.portFreq c ≤ f.get (Reg.LINK_LAT_LAT c) * 160

/-- LATPROBE (R323, R324): the timebase at arrival minus the stamp is measured. -/
def Fab.rxLatprobe (f : Fab) (c now : Nat) (w : Flit) : Fab :=
  match f.rxCtl c now w 0x12 with
  | (some pay, f) =>
    let f := f.seenTb now
    let v := min (now - natBits pay 64 64) 0xFFFF
    if f.lst c = lsPin then
      (f.set (Reg.LINK_MEAS_MEAS c) (max (f.get (Reg.LINK_MEAS_MEAS c)) v)).updPort c
        (fun l => { l with probes := min (l.probes + 1) 64 })
    else if f.portActive c then
      let f := f.set (Reg.LINK_MEAS_MAX c) (max (f.get (Reg.LINK_MEAS_MAX c)) v)
      if f.pinOk c v then f
      else
        let f := (f.set (Reg.LINK_STAT_LATWARN c) 1).raise 5 true
        match f.portPart c with
        | some p => f.raise (49 + p) true
        | none => f
    else f
  | (none, f) => f

/-- PIN_COMPLETE (R319, R323): 64 probes each way; `peerOk` says that the other direction meets the inequality and that the
timebase of the other end is valid. -/
def Fab.pinComplete (f : Fab) (c : Nat) (peerOk : Bool) : Fab :=
  if f.lst c = lsPin && (f.port c).probes = 64 && f.bit Reg.LINK_TBCTL_VALID then
    if f.pinOk c (f.get (Reg.LINK_MEAS_MEAS c)) && peerOk then f.linkGo c lsActive else f.trainFail c 6
  else f

/-- LATPROBE_SEND (R323, R324). -/
def Fab.sendProbe (f : Fab) (c now : Nat) : Fab :=
  if f.lst c = lsPin || f.portActive c then (f.seenTb now).emit (.flit c (stampFlit 0x12 now)) else f

/-- TBLSYNC (R326): the peer's TXCNT is compared with RXCNT. -/
def Fab.rxTblsync (f : Fab) (c now : Nat) (w : Flit) : Fab :=
  match f.rxCtl c now w 0x13 with
  | (some pay, f) =>
    if f.portActive c && natBits pay 16 13 ≠ f.get (Reg.LINK_TBL_RXCNT c) then f.set (Reg.LINK_STAT_TBLERR c) 1 else f
  | (none, f) => f

/-! ### Frames and scheduled flits (R314, R327–R331) -/

/-- FRAME_FLIT (R314, R331): the syndrome SF is a hit, and 4 hits gain frame lock; the flit, also as corrected, gives the frame's
map. -/
def Fab.frameFlit (f : Fab) (c now : Nat) (w : Flit) : Fab :=
  if f.lst c < lsAlign || f.lst c = lsDown then f
  else
    let r := rsDecode false (w ^^^ framePattern)
    let used := r.out == .clean || r.out == .corrected
    let hit := r.out == .clean
    let f := if r.out = .corrected then f.linkCe c else if used then f else f.linkUe c now
    f.updPort c (fun l => { l with
      pos := 1
      hits := if hit then min (l.hits + 1) 4 else 0
      miss := if hit then 0 else min (l.miss + 1) 4
      lock := l.lock || (hit && 3 ≤ l.hits)
      mapBad := l.lock && !used
      map := if used then BitVec.ofNat 128 (natBits r.word.toNat 32 128) else l.map })

/-- SCHEDULED_FLIT (R328, R331): the next scheduled flit since the release arrives, in a position that the map marks (R314); it is held for its entry, or discarded
when its release has passed. -/
def Fab.schedFlit (f : Fab) (c now : Nat) (w : Flit) : Fab :=
  match (if f.portActive c then f.nextPos c true else none) with
  | none => f
  | some i =>
    let f := f.atPos c i
    let bad := (f.port c).mapBad
    let r := rsDecode false w
    let f := if bad || r.out = .uncorrectable then f.linkUe c now else if r.out = .corrected then f.linkCe c else f
    if (f.portPart c).any (fun p => f.st p == 2) then
      let w := if bad then BitVec.ofNat 160 0x0101 else r.word
      f.updPort c (fun l => if l.k < l.rel then { l with k := l.k + 1 } else { l with k := l.k + 1, held := l.held ++ [w] })
    else f

/-- The router of a Caluf port (R302). -/
def portRouter (c : Nat) : Nat :=
  if c < 4 then 6 * c else if c < 8 then 6 * (c - 4) + 5 else if c < 12 then c - 7 else c + 7

/-- The next flit of a port enters the Boulevard at ECLK `t` (R328): a code word for the engine that its entry names. -/
def Fab.linkWrite (f : Fab) (p c ent t : Nat) (w : Flit) : Fab :=
  let b := entEng ent / 8
  let u : Put := ⟨none, entEng ent, entByte ent, 16, BitVec.ofNat 256 w.toNat, t + 2 + 2 * hops (portRouter c) b, true,
    routeOf (portRouter c) b t, none, true⟩
  f.launch p u

/-- FLIT_RELEASE (R328, R329): the port reaches the release of the next receive entry at ECLK `now`. -/
def Fab.flitRelease (f : Fab) (c now : Nat) : Fab :=
  match f.portPart c with
  | none => f
  | some p =>
    let l := f.port c
    let cnt := f.get (Reg.LINK_TBL_RXCNT c)
    if f.st p ≠ 2 || cnt = 0 then f
    else
      let ent := f.slotEntry c true (l.rel % cnt)
      let cyc := f.nextCycle p c
      let due := if f.barrierMode p then
          cyc ≤ f.curDc p && l.held ≠ [] && (f.engine (entEng ent)).bnd.2 ≤ now
        else cyc == f.curDc p && now == (f.share p).openB + entOff ent
      if !due then f
      else
        let f := f.updPort c (fun l => { l with rel := l.rel + 1, held := l.held.tail })
        match l.held with
        | w :: _ => if (rsDecode false w).out = .uncorrectable then f else f.linkWrite p c ent now w
        | [] =>
          let f := f.set (Reg.LINK_STAT_LATE c) 1
          (f.stick (Reg.LINK_ERRCNT_LATE c) 1).failInterval p 3 (f.curDc p) now

/-- What a link read at ECLK `s` sends (R327): the word with every port-A store issued before `s`, as decoded, poison where it reads
poison; free bits where it meets a port-A store of ECLK `s` to the same word (R301). The flag says that it met one. -/
def Fab.linkWord (f : Fab) (en off s : Nat) : Flit × Bool × Fab :=
  let e := f.engine en
  let hit := e.portA.any (fun a => !a.load && a.iss == s && a.off / 16 ≤ off / 16 && off / 16 ≤ (a.off + a.len - 1) / 16)
  let src := f.free 4
  let m := src.2.read src.1 (arcBase en + off) 16
  if hit then
    let d := m.fab.free 128
    let x := d.2.free 8
    let f := x.2.updEng en (fun e => (e.set Ecs.ARCADE_BUSY_LASTOFF off).set Ecs.ARCADE_BUSY_SRC x.1)
    (rsEncode d.1, true, f)
  else (if m.bad.isSome then poisonWord else rsEncode m.data, false, m.fab)

/-- LINK_READ (R327): at the offset of the next transmit entry the port reads its word through port B. -/
def Fab.linkRead (f : Fab) (c now : Nat) : Fab :=
  match f.portPart c with
  | none => f
  | some p =>
    let l := f.port c
    let n := f.curDc p
    let idx := if l.txDcn = n then l.txIdx else 0
    let ent := f.slotEntry c false idx
    if f.st p ≠ 2 || !f.portActive c || f.get (Reg.LINK_TBL_TXCNT c) ≤ idx || now ≠ (f.share p).openB + entOff ent then f
    else
      let f := f.updPort c (fun l => { l with txDcn := n, txIdx := idx + 1 })
      let en := entEng ent
      match f.portB en now with
      | (none, f) => f.failInterval p 3 n now
      | (some s, f) =>
        let r := (f.meetPut en s).linkWord en (entByte ent) s
        let h := hops (en / 8) (portRouter c)
        let route := routeOf (en / 8) (portRouter c) (s + 2)
        let out (x : Nat × Nat × Nat × Nat) : Nat × Nat × Nat × Nat := if x.2.1 = 4 then (x.1, 5, x.2.2) else x
        let u : Put := ⟨none, 192 + c, 0, 16, BitVec.ofNat 256 r.1.toNat, s + 2 + 2 * h, true, route.map out, none, true⟩
        let f := r.2.2.launch p u
        if r.2.1 || s ≠ now then f.failInterval p 3 n now else f

/-! ### Other flits -/

/-- IDLE. -/
def Fab.rxIdle (f : Fab) (c now : Nat) (w : Flit) : Fab := (f.rxCtl c now w 0x00).2

/-- WAKE sets LINK(p) in PWR.WAKE_STAT (R553). -/
def Fab.rxWake (f : Fab) (c now : Nat) (w : Flit) : Fab :=
  match f.rxCtl c now w 0x3E with
  | (some _, f) =>
    if f.portActive c then f.set Reg.PWR_WAKE_STAT_LINK (f.get Reg.PWR_WAKE_STAT_LINK ||| 2 ^ c) else f
  | (none, f) => f

/-- DOWN: the peer's DOWN flit takes an ACTIVE port down (R319). -/
def Fab.rxDown (f : Fab) (c now : Nat) (w : Flit) : Fab :=
  match f.rxCtl c now w 0x3F with
  | (some _, f) => f.linkFail c 11
  | (none, f) => f

/-! ### Background packets as received (R316, R318) -/

/-- Send an ACK, or a NAK, of a SEQ. -/
def Fab.sendAck (f : Fab) (c seq : Nat) (nak : Bool) : Fab :=
  f.emit (.flit c (rsEncode (0x02 + seq % 4096 * 2 ^ 16 + b2n nak * 2 ^ 28)))

/-- Return background buffers. -/
def Fab.sendCredit (f : Fab) (c n : Nat) : Fab := f.emit (.flit c (rsEncode (0x03 + n % 256 * 2 ^ 8)))

/-- The master that a port's packets act as (R318): its owner, or the management subsystem on a FREE port. -/
def Fab.bgMaster (f : Fab) (c : Nat) : Master :=
  match f.portPart c with
  | some p => ⟨6, 2 ^ p, false⟩
  | none => damson

/-- Store one 16-byte word of a packet. A FREE port reaches the management subsystem only, without the vault (R261). -/
def Fab.bgWord (f : Fab) (c a : Nat) (w : Flit) : Acc :=
  let m := f.bgMaster c
  let r := rsDecode false w
  if (f.portPart c).isNone && (!(0x0300000000 ≤ a && a < 0x0300400000) || (0x0300200000 ≤ a && a < 0x0300240000)) then ⟨0, false, true, false, f.errLog m a 0 0⟩
  else if r.out.bad then
    match f.refusal m a true with
    | some k => ⟨0, false, true, false, f.errLog m a k 0⟩
    | none =>
      match f.fencedBy a true with
      | some p => ⟨0, false, true, false, f.fenceLog p a m⟩
      | none => if f.unswept a then ⟨0, false, false, true, f⟩ else ⟨0, false, false, false, f.poison (a / 16)⟩
  else f.wrDev m a 16 (natBits r.word.toNat 32 128)

/-- Store the words of a packet in order. -/
def Fab.bgWords (f : Fab) (c a : Nat) : List Flit → Acc
  | [] => ⟨0, false, false, false, f⟩
  | w :: t =>
    let r := f.bgWord c a w
    let q := r.fab.bgWords c (a + 16) t
    ⟨0, r.bad || q.bad, r.refused || q.refused, r.wait || q.wait, q.fab⟩

/-- A data flit of a background packet counts its correction or its loss (R331). -/
def Fab.dataFlit (f : Fab) (c now : Nat) (w : Flit) : Fab :=
  let f := match f.nextPos c false with
    | some i => f.atPos c i
    | none => f
  let r := rsDecode false w
  if (f.port c).mapBad || r.out = .uncorrectable then f.linkUe c now
  else if r.out = .corrected then f.linkCe c else f

/-- BG_HDR (R318, R331): a packet arrives, its header and its data flits. An uncorrectable flit or a SEQ out of order is
answered by a NAK of the SEQ expected; otherwise the packet is delivered, acknowledged and its buffer returned. -/
def Fab.rxPacket (f : Fab) (c now : Nat) (w : Flit) (data : List Flit) : Fab :=
  if !f.portActive c then f
  else
    let seq := (f.port c).rxSeq
    let h := f.rxCtl c now w 0x01
    match (h.1, data.foldl (fun g d => g.dataFlit c now d) h.2) with
    | (none, f) => f.sendAck c seq true
    | (some pay, f) =>
      let len := natBits pay 8 8
      if len = 0 || 16 < len || data.length ≠ len then (f.linkUe c now).sendAck c seq true
      else if natBits pay 16 12 ≠ seq || data.any (fun d => (rsDecode false d).out == .uncorrectable) then f.sendAck c seq true
      else
        let r := f.bgWords c (natBits pay 32 40) data
        if r.wait then f
        else
          let f := r.fab.updPort c (fun l => { l with rxSeq := (seq + 1) % 4096 })
          (f.sendAck c seq false).sendCredit c 1

/-- Drop the packets of the replay buffer up to the one of a SEQ, which a channel may wait for (R318, R410). -/
def Fab.ackUpTo (f : Fab) (c seq : Nat) : Fab :=
  let l := (f.port c).replay
  match l.findIdx? (fun k => k.seq == seq) with
  | some i =>
    let f := f.updPort c (fun l => { l with replay := l.replay.drop (i + 1), resend := 0 })
    let f := (l.take (i + 1)).foldl (fun g k => g.dmaAcked c k.seq) f
    f.drainTx c (f.port c).txq.length
  | none => f

/-- Send every packet of the replay buffer from a SEQ again (R318): the eighth consecutive resend of one packet takes the
port down. -/
def Fab.resendFrom (f : Fab) (c seq : Nat) : Fab :=
  let l := f.port c
  match l.replay.findIdx? (fun k => k.seq == seq) with
  | some i =>
    let f := f.updPort c (fun l => { l with resend := l.resend + 1 })
    if 8 ≤ l.resend + 1 then (f.stick (Reg.LINK_ERRCNT_REPLAY c) 1).linkFail c 9
    else (l.replay.drop i).foldl (fun g k => (g.stick (Reg.LINK_ERRCNT_REPLAY c) 1).emitPkt c k) f
  | none => f

/-- ACK (R318): an acknowledgement, or a NAK. -/
def Fab.rxAck (f : Fab) (c now : Nat) (w : Flit) : Fab :=
  match f.rxCtl c now w 0x02 with
  | (some pay, f) =>
    if !f.portActive c then f
    else if natBits pay 28 1 = 1 then f.resendFrom c (natBits pay 16 12)
    else f.ackUpTo c (natBits pay 16 12)
  | (none, f) => f

/-- CREDIT (R318). -/
def Fab.rxCredit (f : Fab) (c now : Nat) (w : Flit) : Fab :=
  match f.rxCtl c now w 0x03 with
  | (some pay, f) =>
    if !f.portActive c then f
    else
      let f := f.updPort c (fun l => { l with credits := min 32 (l.credits + natBits pay 8 8) })
      f.drainTx c (f.port c).txq.length
  | (none, f) => f

/-- LOSS_OF_FRAME_LOCK (R314): four frame flits in a row have missed. -/
def Fab.frameLost (f : Fab) (c : Nat) : Fab :=
  if (f.port c).lock && (f.port c).miss = 4 then
    (f.updPort c (fun l => { l with lock := false, hits := 0, miss := 0 })).linkFail c 8
  else f

/-! ### The meanings -/

/-- LINK_CTL_EN. -/
def execLinkCtlEn (c : Nat) (v : Bool) (s : State) : Host.Outcome State Fault Refusal := onPort c (fun f => f.linkEn c v) s

/-- LINK_CTL_RETRAIN. -/
def execLinkCtlRetrain (c : Nat) (s : State) : Host.Outcome State Fault Refusal := onPort c (fun f => f.linkRetrain c) s

/-- LINK_LAT_WRITE. -/
def execLinkLatWrite (c : Nat) (v : Word) (s : State) : Host.Outcome State Fault Refusal :=
  onPort c (fun f => f.linkLat c v.toNat) s

/-- ELEC_DONE. -/
def execElecDone (c : Nat) (s : State) : Host.Outcome State Fault Refusal := onPort c (fun f => f.elecDone c) s

/-- ELEC_TIMEOUT. -/
def execElecTimeout (c : Nat) (s : State) : Host.Outcome State Fault Refusal := onPort c (fun f => f.elecTimeout c) s

/-- ALIGN_LOCK. -/
def execAlignLock (c : Nat) (lrev : Bool) (lpol : BitVec 4) (s : State) : Host.Outcome State Fault Refusal :=
  onPort c (fun f => f.alignLock c lrev lpol.toNat) s

/-- ALIGN_FAIL. -/
def execAlignFail (c : Nat) (s : State) : Host.Outcome State Fault Refusal := onPort c (fun f => f.alignFail c) s

/-- TRAIN. -/
def execTrain (c now : Nat) (w : Flit) (s : State) : Host.Outcome State Fault Refusal :=
  onPort c (fun f => f.rxTrain c now w) s

/-- TIMESYNC. -/
def execTimesync (c now : Nat) (w : Flit) (s : State) : Host.Outcome State Fault Refusal :=
  onPort c (fun f => f.rxTimesync c now w) s

/-- TIMESYNC_ECHO. -/
def execTimesyncEcho (c now rtt : Nat) (w : Flit) (s : State) : Host.Outcome State Fault Refusal :=
  onPort c (fun f => f.rxEcho c now rtt w) s

/-- LATPROBE. -/
def execLatprobe (c now : Nat) (w : Flit) (s : State) : Host.Outcome State Fault Refusal :=
  onPort c (fun f => f.rxLatprobe c now w) s

/-- PIN_COMPLETE. -/
def execPinComplete (c : Nat) (peerOk : Bool) (s : State) : Host.Outcome State Fault Refusal :=
  onPort c (fun f => f.pinComplete c peerOk) s

/-- LATPROBE_SEND. -/
def execLatprobeSend (c now : Nat) (s : State) : Host.Outcome State Fault Refusal := onPort c (fun f => f.sendProbe c now) s

/-- TBLSYNC. -/
def execTblsync (c now : Nat) (w : Flit) (s : State) : Host.Outcome State Fault Refusal :=
  onPort c (fun f => f.rxTblsync c now w) s

/-- FRAME_FLIT. -/
def execFrameFlit (c now : Nat) (w : Flit) (s : State) : Host.Outcome State Fault Refusal :=
  onPort c (fun f => f.frameFlit c now w) s

/-- SCHEDULED_FLIT. -/
def execScheduledFlit (c now : Nat) (w : Flit) (s : State) : Host.Outcome State Fault Refusal :=
  onPort c (fun f => f.schedFlit c now w) s

/-- FLIT_RELEASE. -/
def execFlitRelease (c now : Nat) (s : State) : Host.Outcome State Fault Refusal :=
  onPort c (fun f => f.flitRelease c now) s

/-- LINK_READ. -/
def execLinkRead (c now : Nat) (s : State) : Host.Outcome State Fault Refusal := onPort c (fun f => f.linkRead c now) s

/-- IDLE. -/
def execIdleFlit (c now : Nat) (w : Flit) (s : State) : Host.Outcome State Fault Refusal :=
  onPort c (fun f => f.rxIdle c now w) s

/-- WAKE. -/
def execWake (c now : Nat) (w : Flit) (s : State) : Host.Outcome State Fault Refusal :=
  onPort c (fun f => f.rxWake c now w) s

/-- BG_HDR: the header flit and the data flits that follow it. -/
def execBgHdr (c now : Nat) (w : Flit) (data : List Flit) (s : State) : Host.Outcome State Fault Refusal :=
  onPort c (fun f => f.rxPacket c now w data) s

/-- ACK. -/
def execAckFlit (c now : Nat) (w : Flit) (s : State) : Host.Outcome State Fault Refusal :=
  onPort c (fun f => f.rxAck c now w) s

/-- CREDIT. -/
def execCredit (c now : Nat) (w : Flit) (s : State) : Host.Outcome State Fault Refusal :=
  onPort c (fun f => f.rxCredit c now w) s

/-- DOWN. -/
def execDown (c now : Nat) (w : Flit) (s : State) : Host.Outcome State Fault Refusal :=
  onPort c (fun f => f.rxDown c now w) s

/-- LOSS_OF_SIGNAL (R319). -/
def execLossOfSignal (c : Nat) (s : State) : Host.Outcome State Fault Refusal := onPort c (fun f => f.linkFail c 7) s

/-- LOSS_OF_FRAME_LOCK. -/
def execLossOfFrameLock (c : Nat) (s : State) : Host.Outcome State Fault Refusal := onPort c (fun f => f.frameLost c) s

/-- EB_OVERFLOW (R321). -/
def execEbOverflow (c : Nat) (s : State) : Host.Outcome State Fault Refusal := onPort c (fun f => f.linkFail c 10) s

end Sys2Proof.Machine
end

