-- ==== Sys2Proof/Machine/Scrub.lean ====
section
/-! DEFINITION. The scrubber, the background tester, error injection and the DDR sweep (spec/09). -/

namespace Sys2Proof.Machine

/-! ### Where the walkers walk (R287, R290) -/

/-- The end of the piece of the device map that holds address `a` below the DDR path, and whether the piece is on-die SRAM
outside the enclave (R232, R282). IM banks alternate by rows, so a piece of IM is one row. -/
def sramPiece (a : Nat) : Nat × Bool :=
  if a < 0x0C000000 then
    let e := engBase (a / 0x100000)
    let o := a % 0x100000
    if o < 0x20000 then (a / 32 * 32 + 32, true)
    else if o < 0x30000 then (e + 0x30000, true)
    else if o < 0x40000 then (e + 0x40000, false)
    else if o < 0x80000 then (a / 0x4000 * 0x4000 + 0x4000, true)
    else (e + 0x100000, false)
  else if a < 0x0100000000 then (0x0100000000, false)
  else if a < 0x0103000000 then
    let o := (a - 0x0100000000) % 0x200000
    if o < 0x180000 then (a / 0x20000 * 0x20000 + 0x20000, true) else (a / 0x200000 * 0x200000 + 0x200000, false)
  else if a < 0x0300100000 then (0x0300100000, false)
  else if a < 0x0300240000 then (0x0300240000, true)
  else if a < 0x0300300000 then (0x0300300000, false)
  else if a < 0x0300340000 then (0x0300340000, true)
  else if a < 0x0300400000 then (0x0300400000, false)
  else if a < 0x0300A00000 then (a / 0x40000 * 0x40000 + 0x40000, true)
  else (ddrBase, false)

/-- The first code word at or after `a` that the SRAM walker visits: of a piece of SRAM that is ON. -/
def Fab.sramNext (f : Fab) (a : Nat) : Nat → Option Nat
  | 0 => none
  | fuel + 1 =>
    if 0x0300A00000 ≤ a then none
    else
      let x := sramPiece a
      if x.2 && f.addrOn a then some (a / 16 * 16) else f.sramNext x.1 fuel

/-- The first code word at or after `a` that a walker visits. -/
def Fab.scrubNext (f : Fab) (isD : Bool) (a : Nat) : Option Nat :=
  if isD then
    let a := max a ddrBase
    if a < ddrBase + f.ddrBytes then some a else none
  else f.sramNext a 1000000

/-- Is the ownership unit of an address WIPING? Its wipe then holds the maintenance tokens (R293). -/
def Fab.wipingAt (f : Fab) (a : Nat) : Bool :=
  match unitOf a with
  | some (d, i) => f.get (ownFld d i) == 9
  | none => false

/-! ### The scrubber (R287–R289) -/

/-- The scrubber finds an uncorrectable word (R288, R289). -/
def Fab.scrubUe (f : Fab) (a syn : Nat) : Fab :=
  let ds (p : Nat) : Bool := f.designState p a
  let own := f.addrPart a
  let lossy := own.any ds
  let dcn := match own with
    | some p => if ds p then f.get (Reg.SQ_CDCN_DCN p) else 0
    | none => 0
  let f := f.logUe 0 (a / 16) syn lossy false dcn
  let f := f.stick (if isDdr a then Reg.SCRUB_ERRCNT_DDR_UE else Reg.SCRUB_ERRCNT_SRAM_UE) 1
  let f := f.poison (a / 16)
  match own with
  | some p => (if lossy then f.dataLoss p a else f).raise (41 + p) true
  | none => f.raise 2 true

/-- The walker reads the code word at `a`. -/
def Fab.scrubAt (f : Fab) (a : Nat) : Fab :=
  let r := f.decodeWord (a / 16)
  match r.out with
  | .corrected => f.noteCe 0 (a / 16) r
  | .uncorrectable => f.scrubUe a r.syn
  | _ => f

/-- The walker goes to its next word; at the end a pass is counted (R295). -/
def Fab.scrubMove (f : Fab) (isD : Bool) (a : Nat) : Fab :=
  let pos := if isD then Reg.SCRUB_POS_DDR_ADDR else Reg.SCRUB_POS_SRAM_ADDR
  match f.scrubNext isD (a + 16) with
  | some b => f.set pos b
  | none =>
    (f.set pos (if isD then ddrBase else 0)).stick
      (if isD then Reg.SCRUB_STAT_DDR_PASSES else Reg.SCRUB_STAT_SRAM_PASSES) 1

/-- SCRUB_WORD: a walker visits its next word. It waits for the token of a WIPING unit or of a borrowed bank (R293). -/
def Fab.scrubWord (f : Fab) (isD : Bool) : Fab :=
  if !f.bit (if isD then Reg.SCRUB_CTL_DDR_EN else Reg.SCRUB_CTL_SRAM_EN) then f
  else
    match f.scrubNext isD (f.get (if isD then Reg.SCRUB_POS_DDR_ADDR else Reg.SCRUB_POS_SRAM_ADDR)) with
    | none => f
    | some a =>
      if f.unswept a then f
      else if f.wipingAt a || f.borrowed a then (f.confWait a 4 1).set Reg.MEM_MAINT_BUSY_SCRUB 1
      else ((f.confWait a 4 0).scrubAt a).scrubMove isD a

/-- SCRUB_PASS_OVERRUN (R287). -/
def Fab.scrubLag (f : Fab) (isD : Bool) : Fab :=
  if f.bit (if isD then Reg.SCRUB_CTL_DDR_EN else Reg.SCRUB_CTL_SRAM_EN) then
    f.set (if isD then Reg.SCRUB_STAT_DDR_LAG else Reg.SCRUB_STAT_SRAM_LAG) 1
  else f

/-! ### The background tester (R290–R293) -/

/-- The chunk after the one at `a`: of the same bank, else of the next bank. -/
def chunkNext (a : Nat) : Nat :=
  if a < 0x0C000000 && a % 0x100000 < 0x20000 then
    let o := a % 0x100000
    if o + 3072 < 0x20000 then a + 3072
    else engBase (a / 0x100000) + (if o / 32 % 3 < 2 then 32 * (o / 32 % 3 + 1) else 0x20000)
  else a + 1024

/-- The first chunk of the next bank after the one that holds `a`. -/
def bankNext (a : Nat) : Nat :=
  if a < 0x0C000000 && a % 0x100000 < 0x20000 then
    engBase (a / 0x100000) + (if a % 0x100000 / 32 % 3 < 2 then 32 * (a % 0x100000 / 32 % 3 + 1) else 0x20000)
  else if 0x0300100000 ≤ a && a < 0x0300200000 then 0x0300200000
  else (sramPiece a).1

/-- Does the schedule declaration let the tester borrow the bank of an address (R291, R296)? -/
def Fab.testElig (f : Fab) (a : Nat) : Bool :=
  if a < 0x0C000000 then
    let e := a / 0x100000
    let o := a % 0x100000
    let v := f.reg (Reg.TEST_ELIG (e / 8) (e % 8))
    if o < 0x20000 then v.getLsbD (17 + o / 32 % 3) else if o < 0x30000 then v.getLsbD 16
    else v.getLsbD ((o - 0x40000) / 0x4000)
  else if a < 0x0103000000 then
    (f.reg (Reg.TEST_ELIG0 ((a - 0x0100000000) / 0x200000))).getLsbD ((a - 0x0100000000) % 0x200000 / 0x20000)
  else false

/-- May the tester borrow the bank of an address now: it is on-die SRAM but the vault, ON, and eligible where a running share in
timed lock-step owns it (R290, R291)? -/
def Fab.testable (f : Fab) (a : Nat) : Bool :=
  (sramPiece a).2 && !(0x0300200000 ≤ a && a < 0x0300240000) && f.addrOn a && (!(f.addrPart a).any f.lockMode || f.testElig a)

/-- The first chunk at or after `a` that the tester can run. -/
def Fab.testNext (f : Fab) (a : Nat) : Nat → Option Nat
  | 0 => none
  | fuel + 1 =>
    if 0x0300A00000 ≤ a then none
    else if f.testable a then some a
    else f.testNext (bankNext a) fuel

/-- The first difference of a march (R292): word of the chunk, symbol, element. -/
def Fab.marchFail (f : Fab) (wa sym elem : Nat) : Fab :=
  let f := (f.set Reg.TEST_STAT_FAIL 1).raise 4 true
  if f.bit Reg.TEST_FAIL_LOG_VALID then f
  else
    let f := f.set Reg.TEST_FAIL_LOG_ADDR (16 * wa)
    let f := f.set Reg.TEST_FAIL_LOG_SYM sym
    let f := f.set Reg.TEST_FAIL_LOG_ELEM elem
    f.set Reg.TEST_FAIL_LOG_VALID 1

/-- The tester takes the bank's token, borrows it and copies the chunk at `a` (R290). A word of the copy that reads UNCORRECTABLE is
noted; the rows lose their reservations (R228). -/
def Fab.testBegin (f : Fab) (a : Nat) : Fab :=
  let ws := chunkWords a
  let g := ws.foldl (fun g wa => (g.noteRead 7 wa (g.decodeWord wa)).loseResv (16 * wa)) (f.confWait a 5 0)
  let bad := ws.zipIdx.foldl (fun m x => if (f.decodeWord x.1).out = .uncorrectable then m + 2 ^ x.2 else m) 0
  (({ g with tBad := BitVec.ofNat 64 bad }).set Reg.TEST_POS_ADDR a).set Reg.TEST_STAT_ACTIVE 1

/-- The march over the chunk ends and the bank is returned (R290, R292). `bad` is the first difference that a march read showed;
`lost` has a bit for each word that reads back different from its save copy. -/
def Fab.testEnd (f : Fab) (bad : Option MarchBad) (lost : BitVec 64) : Fab :=
  let a := f.get Reg.TEST_POS_ADDR
  let f := match bad with
    | some x => f.marchFail ((chunkWords a).getD x.word 0) x.sym x.elem
    | none => f
  let f := (f.chunkLost (f.tBad ||| lost)).set Reg.TEST_STAT_ACTIVE 0
  match f.testNext (chunkNext a) 20000 with
  | some b => f.set Reg.TEST_POS_ADDR b
  | none => (f.set Reg.TEST_POS_ADDR 0).stick Reg.TEST_STAT_PASSES 1

/-- TESTER_CHUNK: the tester begins its next chunk, or ends the one in progress. -/
def Fab.testChunk (f : Fab) (bad : Option MarchBad) (lost : BitVec 64) : Fab :=
  if f.bit Reg.TEST_STAT_ACTIVE then f.testEnd bad lost
  else if !f.bit Reg.TEST_CTL_EN then f
  else
    match f.testNext (f.get Reg.TEST_POS_ADDR) 20000 with
    | none => f
    | some a =>
      if f.wipingAt a then (f.confWait a 5 1).set Reg.MEM_MAINT_BUSY_TEST 1 else f.testBegin a

/-! ### Injection (R294, R295) -/

/-- Does the address name a code word of an ON bank of on-die SRAM, or of installed DDR? If not, the KIND of the refusal. -/
def Fab.injectRefused (f : Fab) (a : Nat) : Option Nat :=
  if isDdr a then (if a < ddrBase + f.ddrBytes then none else some 0)
  else if !(sramPiece a).2 then some 0
  else if f.addrOn a then none
  else some 1

/-- XOR a mask into symbols `sym` … `sym + n − 1`, taken modulo 20, of a stored word. -/
def symbolMask (sym n mask : Nat) : Flit :=
  (List.range n).foldl (fun w i => w ^^^ BitVec.ofNat 160 (mask <<< (8 * ((sym + i) % 20)))) 0

/-- Write the injection that SCRUB.INJECT describes. It is a write of the word: a pending write-back is discarded (R277). -/
def Fab.injectNow (f : Fab) : Fab :=
  let a := f.get Reg.SCRUB_INJECT_ADDR
  let kind := f.get Reg.SCRUB_INJECT_KIND
  let f := { f with injWait := false }
  if kind = 3 then f.poison (a / 16)
  else
    let m := symbolMask (f.get Reg.SCRUB_INJECT_SYM) (kind + 1) (f.get Reg.SCRUB_INJECT_MASK)
    let f := if (Store.get (⟨0, false⟩ : Repair) f.repair (f.repairKey a)).addr = a / 16 * 16 + 1 then f.freeRepair a else f
    { f with err := Store.set 0 f.err (a / 16) (Store.get 0 f.err (a / 16) ^^^ m) }

/-- Perform the injection that SCRUB.INJECT describes. Above the sweep's watermark it waits (R284). -/
def Fab.inject (f : Fab) : Fab :=
  let a := f.get Reg.SCRUB_INJECT_ADDR
  match f.injectRefused a with
  | some k => f.errLog damson a k 0
  | none => if f.unswept a then { f with injWait := true } else (f.yieldAt a).injectNow

/-- SCRUB_INJECT: a write of SCRUB.INJECT by a master. -/
def Fab.scrubInject (f : Fab) (m : Master) (v : Word) : Fab :=
  if m.code ≠ 0 then f
  else
    let f := f.setReg Reg.SCRUB_INJECT (v &&& 0x00FF7FFFFFFFFFFF)
    if v.getLsbD 63 then f.inject else f

/-! ### The DDR sweep (R283) -/

/-- DDR_SWEEP: the sweep writes zero markers to its next `n` code words. An injection that waits is made once it has passed. -/
def Fab.ddrSweep (f : Fab) (n : Nat) : Fab :=
  if f.bit Reg.DDR_SWEEP_DONE || f.ddrBytes = 0 then f
  else
    let w := f.get Reg.DDR_SWEEP_WM
    let t := min (w + n) (f.ddrBytes / 16)
    let f := f.zeroRange (ddrBase + 16 * w) (ddrBase + 16 * t)
    let f := f.set Reg.DDR_SWEEP_WM t
    let f := if f.injWait && !f.unswept (f.get Reg.SCRUB_INJECT_ADDR) then f.injectNow else f
    if t = f.ddrBytes / 16 then f.set Reg.DDR_SWEEP_DONE 1 else f

/-! ### The meanings -/

/-- SCRUB_WORD of the SRAM walker, or of the DDR walker. -/
def execScrubWord (isD : Bool) (s : State) : Host.Outcome State Fault Refusal :=
  .next { s with fab := s.fab.whenActive (fun f => f.scrubWord isD) }

/-- SCRUB_PASS_OVERRUN. -/
def execScrubPassOverrun (isD : Bool) (s : State) : Host.Outcome State Fault Refusal :=
  .next { s with fab := s.fab.whenActive (fun f => f.scrubLag isD) }

/-- TESTER_CHUNK. -/
def execTesterChunk (fails : Bool) (bad : MarchBad) (lost : BitVec 64) (s : State) : Host.Outcome State Fault Refusal :=
  if fails && (64 ≤ bad.word || 20 ≤ bad.sym || 6 ≤ bad.elem) then .refused .noSuchUnit
  else .next { s with fab := s.fab.whenActive (fun f => f.testChunk (if fails then some bad else none) lost) }

/-- SCRUB_INJECT by the master of a code. -/
def execScrubInject (master : Nat) (v : Word) (s : State) : Host.Outcome State Fault Refusal :=
  if master < 6 then .next { s with fab := s.fab.byReg (s.fab.master master) Reg.SCRUB_INJECT (fun f => f.scrubInject (s.fab.master master) v) } else .refused .noSuchUnit

/-- DDR_SWEEP. -/
def execDdrSweep (n : Nat) (s : State) : Host.Outcome State Fault Refusal :=
  .next { s with fab := s.fab.whenActive (fun f => f.ddrSweep n) }

end Sys2Proof.Machine
end

