-- ==== Sys2Proof/Machine/Sha.lean ====
section
/-! DEFINITION. SHA-512 (FIPS 180-4), by which the management subsystem digests images, options and log entries (R475, R488,
R491), on bytes and as the standard writes it. -/

namespace Sys2Proof.Machine

/-- A word of SHA-512. -/
abbrev ShaWord := BitVec 64

/-- The round constants: the first 64 bits of the fractional parts of the cube roots of the first eighty primes. -/
def shaK0 : List ShaWord :=
  [0x428a2f98d728ae22, 0x7137449123ef65cd, 0xb5c0fbcfec4d3b2f, 0xe9b5dba58189dbbc,
    0x3956c25bf348b538, 0x59f111f1b605d019, 0x923f82a4af194f9b, 0xab1c5ed5da6d8118,
    0xd807aa98a3030242, 0x12835b0145706fbe, 0x243185be4ee4b28c, 0x550c7dc3d5ffb4e2,
    0x72be5d74f27b896f, 0x80deb1fe3b1696b1, 0x9bdc06a725c71235, 0xc19bf174cf692694,
    0xe49b69c19ef14ad2, 0xefbe4786384f25e3, 0x0fc19dc68b8cd5b5, 0x240ca1cc77ac9c65]
def shaK1 : List ShaWord :=
  [0x2de92c6f592b0275, 0x4a7484aa6ea6e483, 0x5cb0a9dcbd41fbd4, 0x76f988da831153b5,
    0x983e5152ee66dfab, 0xa831c66d2db43210, 0xb00327c898fb213f, 0xbf597fc7beef0ee4,
    0xc6e00bf33da88fc2, 0xd5a79147930aa725, 0x06ca6351e003826f, 0x142929670a0e6e70,
    0x27b70a8546d22ffc, 0x2e1b21385c26c926, 0x4d2c6dfc5ac42aed, 0x53380d139d95b3df,
    0x650a73548baf63de, 0x766a0abb3c77b2a8, 0x81c2c92e47edaee6, 0x92722c851482353b]
def shaK2 : List ShaWord :=
  [0xa2bfe8a14cf10364, 0xa81a664bbc423001, 0xc24b8b70d0f89791, 0xc76c51a30654be30,
    0xd192e819d6ef5218, 0xd69906245565a910, 0xf40e35855771202a, 0x106aa07032bbd1b8,
    0x19a4c116b8d2d0c8, 0x1e376c085141ab53, 0x2748774cdf8eeb99, 0x34b0bcb5e19b48a8,
    0x391c0cb3c5c95a63, 0x4ed8aa4ae3418acb, 0x5b9cca4f7763e373, 0x682e6ff3d6b2b8a3,
    0x748f82ee5defb2fc, 0x78a5636f43172f60, 0x84c87814a1f0ab72, 0x8cc702081a6439ec]
def shaK3 : List ShaWord :=
  [0x90befffa23631e28, 0xa4506cebde82bde9, 0xbef9a3f7b2c67915, 0xc67178f2e372532b,
    0xca273eceea26619c, 0xd186b8c721c0c207, 0xeada7dd6cde0eb1e, 0xf57d4f7fee6ed178,
    0x06f067aa72176fba, 0x0a637dc5a2c898a6, 0x113f9804bef90dae, 0x1b710b35131c471b,
    0x28db77f523047d84, 0x32caab7b40c72493, 0x3c9ebe0a15c9bebc, 0x431d67c49c100d4c,
    0x4cc5d4becb3e42b6, 0x597f299cfc657e2a, 0x5fcb6fab3ad6faec, 0x6c44198c4a475817]

/-- The initial hash value: the fractional parts of the square roots of the first eight primes. -/
def shaInit : List ShaWord :=
  [0x6a09e667f3bcc908, 0xbb67ae8584caa73b, 0x3c6ef372fe94f82b, 0xa54ff53a5f1d36f1,
    0x510e527fade682d1, 0x9b05688c2b3e6c1f, 0x1f83d9abfb41bd6b, 0x5be0cd19137e2179]

/-- A word of a list. -/
def shaAt (l : List ShaWord) (i : Nat) : ShaWord := l.getD i 0

/-- The next word of the message schedule, from the sixteen before it. -/
def shaNext (w : List ShaWord) : ShaWord :=
  let x := shaAt w 14
  let y := shaAt w 1
  (x.rotateRight 19 ^^^ x.rotateRight 61 ^^^ (x >>> 6)) + shaAt w 9 +
    (y.rotateRight 1 ^^^ y.rotateRight 8 ^^^ (y >>> 7)) + shaAt w 0

/-- One round on the working variables a to h, with a constant and a word of the schedule. -/
def shaRound (v : List ShaWord) (k w : ShaWord) : List ShaWord :=
  let a := shaAt v 0
  let b := shaAt v 1
  let c := shaAt v 2
  let e := shaAt v 4
  let t1 := shaAt v 7 + (e.rotateRight 14 ^^^ e.rotateRight 18 ^^^ e.rotateRight 41) +
    ((e &&& shaAt v 5) ^^^ (~~~e &&& shaAt v 6)) + k + w
  let t2 := (a.rotateRight 28 ^^^ a.rotateRight 34 ^^^ a.rotateRight 39) + ((a &&& b) ^^^ (a &&& c) ^^^ (b &&& c))
  [t1 + t2, a, b, c, shaAt v 3 + t1, e, shaAt v 5, shaAt v 6]

/-- Rounds with the constants given, on a window of sixteen words of the schedule and the working variables. -/
def shaRounds : List ShaWord → List ShaWord → List ShaWord → List ShaWord
  | [], _, v => v
  | k :: t, w, v => shaRounds t (w.drop 1 ++ [shaNext w]) (shaRound v k (shaAt w 0))

/-- The number that bytes spell, highest first. -/
def bytesBig (l : List Nat) : Nat := l.foldl (fun v b => 256 * v + b % 256) 0

/-- The hash value after a block of 128 bytes. -/
def shaBlock (h : List ShaWord) (b : List Nat) : List ShaWord :=
  let w := (List.range 16).map (fun i => BitVec.ofNat 64 (bytesBig ((b.drop (8 * i)).take 8)))
  List.zipWith (· + ·) h (shaRounds (shaK0 ++ shaK1 ++ shaK2 ++ shaK3) w h)

/-- The hash value after the first `n` blocks of bytes. -/
def shaBlocks : Nat → List ShaWord → List Nat → List ShaWord
  | 0, h, _ => h
  | n + 1, h, l => shaBlocks n (shaBlock h (l.take 128)) (l.drop 128)

/-- Eight bytes of a word, highest first. -/
def shaBytes (w : ShaWord) : List Nat := (List.range 8).map (fun i => w.toNat / 256 ^ (7 - i) % 256)

/-- A message padded to whole blocks: a 1 bit, zeros, and its length in bits. -/
def shaPad (l : List Nat) : List Nat :=
  let n := l.length
  l ++ [0x80] ++ List.replicate ((239 - n % 128) % 128) 0 ++ List.replicate 8 0 ++ shaBytes (BitVec.ofNat 64 (8 * n))

/-- SHA-512 of bytes, as 64 bytes. -/
def sha (l : List Nat) : List Nat :=
  ((shaBlocks ((l.length + 144) / 128) shaInit (shaPad l)).map shaBytes).flatten

end Sys2Proof.Machine
end

