-- ==== Sys2Proof/Machine/Flash.lean ====
section
/-! DEFINITION. The external flash, the event log (R488), the OTP rows (R469–R472) and images with their verification
(R474–R477). -/

namespace Sys2Proof.Machine

/-! ### Bytes -/

/-- `n` bytes of a number, lowest first. -/
def toBytes (v : Nat) : Nat → List Nat
  | 0 => []
  | n + 1 => v % 256 :: toBytes (v / 256) n

/-- The number that a list of bytes spells, lowest first. -/
def ofBytes : List Nat → Nat
  | [] => 0
  | b :: t => b % 256 + 256 * ofBytes t

/-! ### Flash (R473) -/

/-- Bytes of the flash. -/
def flashSize : Nat := 0x4000000

/-- The byte at a flash offset; erased bytes read 0xFF. -/
def Mgmt.flashByte (m : Mgmt) (o : Nat) : Nat := (Store.get (0xFF : Byte) m.flash o).toNat

/-- `n` bytes of the flash. -/
def Mgmt.flashBytes (m : Mgmt) (o : Nat) : Nat → List Nat
  | 0 => []
  | n + 1 => m.flashByte o :: m.flashBytes (o + 1) n

/-- A number of `n` bytes in the flash. -/
def Mgmt.flashNum (m : Mgmt) (o n : Nat) : Nat := ofBytes (m.flashBytes o n)

/-- The configuration section of the image at an offset: its body beyond CODELEN (R474). -/
def Mgmt.cfgSection (m : Mgmt) (o code : Nat) : List Nat := m.flashBytes (o + 0x2000 + code) (m.flashNum (o + 16) 4 - code)

/-- The DID of a device from its torus coordinates (R5). -/
def didOf (w x y z : Nat) : Nat := w % 16 + 16 * (x % 16) + 256 * (y % 8) + 2048 * (z % 8)

/-- Program bytes: NOR programming clears bits only (R476). -/
def Mgmt.program (m : Mgmt) (o : Nat) : List Nat → Mgmt
  | [] => m
  | b :: t =>
    { m with flash := Store.set (0xFF : Byte) m.flash o (Store.get (0xFF : Byte) m.flash o &&& BitVec.ofNat 8 b) }.program
      (o + 1) t

/-- Erase the bytes of [lo, hi). -/
def Mgmt.erase (m : Mgmt) (lo hi : Nat) : Mgmt := { m with flash := Store.clear m.flash lo hi }

/-! ### OTP (R469–R472) -/

/-- CRC-8 of polynomial x⁸ + x² + x + 1 over the eight data bytes, each most significant bit first. -/
def crc8 (v : Nat) : Nat :=
  (List.range 64).foldl (fun c i =>
    let b := natBits v (8 * (i / 8) + (7 - i % 8)) 1
    let top := (natBits c 7 1 + b) % 2
    (2 * c % 256) ^^^ (if top = 1 then 0x07 else 0)) 0

/-- The data of an OTP row, when its check is valid. -/
def otpIntact (o : Store Nat) (r : Nat) : Option Nat :=
  let x := Store.get 0 o r
  if crc8 (x % 2 ^ 64) = x / 2 ^ 64 then some (x % 2 ^ 64) else none

/-- Burn bits of a row's data, with the check of the result. A burnt bit never clears. -/
def burnRow (o : Store Nat) (r v : Nat) : Store Nat :=
  let d := (Store.get 0 o r % 2 ^ 64) ||| (v % 2 ^ 64)
  Store.set 0 o r (d + 2 ^ 64 * crc8 d)

/-- A word of three copies (R470): its value where consistent, the row to report, and whether a copy disagrees (0 no, 1 an
intact third copy differs, 2 a copy is not intact). -/
structure OtpWord where
  val : Option Nat
  note : Nat
  row : Nat
  deriving DecidableEq, Repr

/-- Read the word whose copies stand at three rows (R470). -/
def otpWord (o : Store Nat) (r0 r1 r2 : Nat) : OtpWord :=
  let a := otpIntact o r0
  let b := otpIntact o r1
  let c := otpIntact o r2
  let third (x : Option Nat) (v r : Nat) : OtpWord :=
    match x with
    | some y => if y = v then ⟨some v, 0, 0⟩ else ⟨some v, 1, r⟩
    | none => ⟨some v, 2, r⟩
  match a, b, c with
  | some x, some y, _ => if x = y then third c x r2 else if c = some x then third b x r1 else if c = some y then third a y r0
      else ⟨none, 0, 0⟩
  | some x, none, _ => if c = some x then third b x r1 else ⟨none, 0, 0⟩
  | none, some y, _ => if c = some y then third a y r0 else ⟨none, 0, 0⟩
  | none, none, _ => ⟨none, 0, 0⟩

/-- Rows of the copies of option word `k` of generation `g` (R469). -/
def optRow (g k c : Nat) : Nat := 136 + 48 * g + 16 * c + k

/-- An option word of a generation. -/
def optWord (o : Store Nat) (g k : Nat) : OtpWord := otpWord o (optRow g k 0) (optRow g k 1) (optRow g k 2)

/-- The current generation of options (R471). -/
def optGen (o : Store Nat) : Option Nat :=
  (List.range 4).foldl (fun m g =>
    if (otpWord o (328 + 3 * g) (329 + 3 * g) (330 + 3 * g)).val = some 0x5A5A5A5A5A5A5A5A then some g else m) none

/-- Vendor defaults of the option words (R472); `vendor` is the Vendor ID of trim. -/
def optDefault (vendor k : Nat) : Nat :=
  if k = 0 then vendor % 65536 + 0x0192 * 65536
  else if k = 1 then 160
  else if k = 2 then 50
  else if k = 3 then 0x3A + 4340 * 256
  else if k = 4 then 3
  else 0

/-- The bitwise majority of three rows' data, whatever their checks (R472, R482). -/
def otpMajority (o : Store Nat) (r0 r1 r2 : Nat) : Nat :=
  let a := Store.get 0 o r0 % 2 ^ 64
  let b := Store.get 0 o r1 % 2 ^ 64
  let c := Store.get 0 o r2 % 2 ^ 64
  (a &&& b) ||| (a &&& c) ||| (b &&& c)

/-- The number of 1 bits. -/
def popCount (v : Nat) : Nat := ((List.range 64).filter (fun i => v.testBit i)).length

/-- MGMT_SVN (R472). -/
def Mgmt.svn (m : Mgmt) : Nat := popCount (otpMajority m.otp 340 341 342)

/-- Life-cycle states (R482). -/
def lcCodes : List Nat :=
  [0, 0x0F0F0F0F0F0F0F0F, 0x3333333333333333, 0x6969696969696969, 0x9696969696969696, 0xFFFFFFFFFFFFFFFF]

/-- Life-cycle word `s`, by majority. -/
def Mgmt.lcWord (m : Mgmt) (s : Nat) : Nat := otpMajority m.otp (64 + 3 * s) (65 + 3 * s) (66 + 3 * s)

/-- The life-cycle state that the words spell (R482): 0 BLANK to 5 SCRAPPED. -/
def Mgmt.lc (m : Mgmt) : Nat :=
  match ((List.range 6).reverse.map m.lcWord).find? (fun w => w ≠ 0) with
  | some w => (lcCodes.findIdx? (fun c => c == w)).getD 5
  | none => 0

/-- The UID as stored in rows 0–5: low word in rows 0, 2, 4; high word in rows 1, 3, 5. -/
def Mgmt.uid (m : Mgmt) : Nat :=
  ((otpWord m.otp 0 2 4).val.getD 0) + 2 ^ 64 * ((otpWord m.otp 1 3 5).val.getD 0)

/-- 256 bits kept in two copies of four rows from row `r`: of each row the first intact copy, and the first copy's data where
none is (log 102). -/
def twoCopies (o : Store Nat) (r : Nat) : Nat :=
  (List.range 4).foldl (fun v i =>
    let d := match otpIntact o (r + i) with
      | some x => x
      | none => (otpIntact o (r + 4 + i)).getD (Store.get 0 o (r + i) % 2 ^ 64)
    v + 2 ^ (64 * i) * d) 0

/-- The unique device secret (R469). -/
def Mgmt.secret (m : Mgmt) : Nat := twoCopies m.otp 6

/-- The identity keys (R484), by number: derived from the secret and the life-cycle state. -/
def Mgmt.idKey (m : Mgmt) : Nat := Config.derive m.secret m.lc

/-- The digest in a key-hash slot of four or two slots that start at row `base`. -/
def keyHash (o : Store Nat) (base slot : Nat) : List Nat :=
  ((List.range 8).map (fun i => toBytes (Store.get 0 o (base + 8 * slot + i) % 2 ^ 64) 8)).flatten

/-- Is a vendor key slot revoked (R469)? -/
def Mgmt.revoked (m : Mgmt) (slot : Nat) : Bool := ((otpWord m.otp 116 117 118).val.getD 0).testBit slot

/-! ### Signatures and images (R474–R476) -/

/-- The two public keys of a signature block. -/
def sigKeys (blk : List Nat) : List Nat := blk.take 1984

/-- Does a signature block verify over a message's digest, with the keys whose hash is given (R475)? -/
def sigOk (blk hash msg : List Nat) : Bool :=
  sha (sigKeys blk) == hash && Config.sigValid (ofBytes (sigKeys blk)) (blk.drop 1984 ++ sha msg)

/-- Length of a signature block: 32 + 1,952 + 64 + 3,309 bytes. -/
def sigLen : Nat := 5357

/-- The header of the image at a flash offset (R474). -/
def Mgmt.header (m : Mgmt) (o : Nat) : List Nat := m.flashBytes o 256

/-- Limits and places by which an image verifies: the activation record's offset, the longest body and code, the rows of the
key hashes and their number, and the lowest SVN. -/
structure ImgRules where
  act : Nat
  len : Nat
  code : Nat
  deriving DecidableEq, Repr

/-- Images of the management firmware. -/
def mgmtImg : ImgRules := ⟨0x7F0000, 0x400000, 0xE0000⟩

/-- Images of the enclave (R506). -/
def umxImg : ImgRules := ⟨0xFF000, 0xFD000, 0x60000⟩

/-- Does the image at flash offset `o` verify (R475), with the key hashes and the bound on SVN given? -/
def Mgmt.imageOk (m : Mgmt) (r : ImgRules) (o svn : Nat) (hash : Nat → Option (List Nat)) : Bool :=
  let fmt := m.flashNum o 4
  let isvn := m.flashNum (o + 4) 4
  let len := m.flashNum (o + 16) 4
  let code := m.flashNum (o + 20) 4
  if fmt ≠ 1 || r.len < len || r.code < code || len < code || isvn < svn || 64 < isvn then false
  else
    match hash (m.flashByte (o + 28)) with
    | none => false
    | some h =>
      sigOk (m.flashBytes (o + 0x100) sigLen) h (m.header o) && sha (m.flashBytes (o + 0x2000) len) == m.flashBytes (o + 32) 64

/-- The key hash of a vendor slot, when it may be used in the life-cycle state (R475, R481). -/
def Mgmt.vendorKey (m : Mgmt) (slot : Nat) : Option (List Nat) :=
  if 4 ≤ slot || m.revoked slot || (m.lc = 1 && slot ≠ 0) then none else some (keyHash m.otp 84 slot)

/-- Does the management image in the slot at `o` verify? -/
def Mgmt.slotOk (m : Mgmt) (o : Nat) : Bool := m.imageOk mgmtImg o m.svn m.vendorKey

/-- The offset of a management slot: A 0, B 1. -/
def slotOff (s : Nat) : Nat := s * 0x800000

/-- Activation record (R476): SEQ, STATE, TRIES of the slot at `o`. -/
def Mgmt.actSeq (m : Mgmt) (r : ImgRules) (o : Nat) : Nat := m.flashNum (o + r.act) 8
def Mgmt.actState (m : Mgmt) (r : ImgRules) (o : Nat) : Nat := m.flashByte (o + r.act + 8)
def Mgmt.actTries (m : Mgmt) (r : ImgRules) (o : Nat) : Nat := m.flashByte (o + r.act + 9)

/-- The candidates of R477: slots TRIAL or CONFIRMED, in decreasing SEQ, slot A first on a tie. -/
def Mgmt.candidates (m : Mgmt) (r : ImgRules) (a b : Nat) : List Nat :=
  let ok (o : Nat) : Bool := m.actState r o == 0x7F || m.actState r o == 0x3F
  let l := if m.actSeq r a < m.actSeq r b then [b, a] else [a, b]
  l.filter ok

/-- Choose a slot (R477): the offset chosen, whether it is not the first candidate, the slots that failed, and the flash
after. `verify` says whether the image at an offset verifies. -/
def Mgmt.choose (m : Mgmt) (r : ImgRules) (verify : Mgmt → Nat → Bool) (first : Bool) :
    List Nat → Option (Nat × Bool) × List Nat × Mgmt
  | [] => (none, [], m)
  | o :: t =>
    let trial := m.actState r o == 0x7F
    if trial && m.actTries r o == 0xFC then
      (m.program (o + r.act + 8) [0]).choose r verify false t
    else if verify m o then
      let m := if trial then m.program (o + r.act + 9) [if m.actTries r o = 0xFF then 0xFE else 0xFC] else m
      (some (o, !first), [], m)
    else
      let x := m.choose r verify false t
      (x.1, o :: x.2.1, x.2.2)

/-! ### The event log (R488) -/

/-- One log entry's bytes [87:0]. -/
def logHead (seq time boot code sev : Nat) (data : List Nat) : List Nat :=
  toBytes seq 8 ++ toBytes time 8 ++ toBytes boot 4 ++ toBytes code 2 ++ [sev, 0] ++
    (data ++ List.replicate 64 0).take 64

/-- Offset and entries of the event log. -/
def logBase : Nat := 0x1000000
def logEntries : Nat := 65536

/-- Write 256 bytes at the next position of the log; a sector is erased as the ring enters it. -/
def Mgmt.putEntry (m : Mgmt) (l : List Nat) : Mgmt :=
  let o := logBase + 256 * m.logPos
  let m := if m.logPos % 256 = 0 then m.erase o (o + 0x10000) else m
  let m := m.program o ((l ++ List.replicate 256 0).take 256)
  { m with logPos := (m.logPos + 1) % logEntries }

/-- Append one entry. -/
def Mgmt.append (m : Mgmt) (time code sev : Nat) (data : List Nat) : Mgmt :=
  let seq := m.logSeq + 1
  let h := logHead seq time m.boots code sev data
  let c := sha (toBytes m.chain 64 ++ h)
  let m := m.putEntry (h ++ c)
  { m with logSeq := seq, chain := ofBytes c, unsealed := m.unsealed + 1 }

/-- Seal the log with a key (R488): the seal entry, and the 14 positions of the second signature, whose layout but for CODE the
spec does not give. -/
def Fab.sealWith (f : Fab) (key : Nat) : Fab :=
  let sig := Config.sign key (toBytes f.mgmt.chain 64)
  let m := f.mgmt.append (f.get Reg.PWR_ETIME_COUNT) 0xFFFF 0 (sig.take 64)
  let f : Fab := { f with mgmt := m }
  let f := (List.range 14).foldl (fun g _ =>
    let r := g.free 2048
    { r.2 with mgmt := r.2.mgmt.putEntry (toBytes (natSetBits r.1 160 16 0xFFFE) 256) }) f
  { f with mgmt := { f.mgmt with unsealed := 0 } }

/-- Seal the log with the identity key. -/
def Fab.sealLog (f : Fab) : Fab := f.sealWith f.mgmt.idKey

/-- Management firmware appends an event (R488): a seal follows every 64 entries. -/
def Fab.logEvent (f : Fab) (code sev : Nat) (data : List Nat) : Fab :=
  let f : Fab := { f with mgmt := f.mgmt.append (f.get Reg.PWR_ETIME_COUNT) code sev data }
  if 64 ≤ f.mgmt.unsealed then f.sealLog else f

/-- Drive a pin, recorded when its level changes. Pins by number: 0 ALERT_N, 1 SLP_N,
2 THERMTRIP_N, 3 XSPI_RESET_N. -/
def Fab.drivePin (f : Fab) (name : Nat) (old new : Bool) : Fab := if old = new then f else f.emit (.pin name new)

/-- Assert or release ALERT_N. -/
def Fab.alert (f : Fab) (v : Bool) : Fab :=
  { f.drivePin 0 f.pwr.alertN v with pwr := { f.pwr with alertN := v } }

end Sys2Proof.Machine
end

