-- ==== Sys2Proof/Machine/IscCmds.lean ====
section
/-! DEFINITION. The commands of the interrupt steering controller (spec/14) and of the DDR ports (spec/15). -/

namespace Sys2Proof.Machine

/-! ### Messages (R423, R439) -/

/-- Is wake entry `e` enabled and for source `s` (R439)? -/
def Fab.wakeOn (f : Fab) (s e : Nat) : Bool :=
  f.get (Reg.ISC_WAKE_SRC (e / 8) (e % 8)) == s && s ≠ 0 && (f.get Reg.ISC_WAKECTL_EN).testBit e

/-- The wake entry of a source, when one is enabled: the lowest. -/
def Fab.wakeEntry (f : Fab) (s : Nat) : Option Nat := (List.range 32).find? (f.wakeOn s)

/-- Set the pending bit of every enabled wake entry of a source: a wake event (R439). -/
def Fab.wakeMark (f : Fab) (s : Nat) : Fab :=
  let bits := (List.range 32).foldl (fun v e => if f.wakeOn s e then v + 2 ^ e else v) 0
  (f.set Reg.ISC_WAKECTL_PEND (f.get Reg.ISC_WAKECTL_PEND ||| bits)).set Reg.PWR_WAKE_STAT_ISC 1

/-- What management firmware logs as it hears of a source (R488): MEM_UE, and a partition halted by loss of data. -/
def Fab.logSource (f : Fab) (s : Nat) (lvl : Bool) : Fab :=
  if s = 1 then f.logEvent 0x000B 2 (toBytes (f.reg Reg.SCRUB_UE_LOG).toNat 8)
  else if 25 ≤ s && s < 33 && lvl && f.get (Reg.SQ_STAT_HALTCAUSE (s - 25)) = 2 then
    f.logEvent 0x000C 2 (toBytes (f.reg (Reg.SQ_LOSS (s - 25))).toNat 8)
  else f

/-- ISC_MESSAGE: the controller takes the next message. Below ACTIVE the Elder domain latches those of enabled wake entries and
the others are lost; between a sleep request and its XTAL32 edge such a message is a wake event and is delivered. -/
def Fab.iscMessage (f : Fab) : Fab :=
  match f.inbox with
  | [] => f
  | (s, lvl, ok) :: t =>
    let f : Fab := { f with inbox := t }
    if f.pwr.st < 3 then
      match f.wakeEntry s with
      | some _ => if ok then { f.wakeMark s with latched := f.latched ++ [(s, lvl)] } else f
      | none => f
    else
      let f := match f.wakeEntry s with
        | some _ => if ok && f.pwr.req.isSome then f.wakeMark s else f
        | none => f
      (if ok then f.logSource s lvl else f).takeMsg s lvl ok

/-- The latched messages come before any other, those of wake entries first, in entry order (R439); the others are what the
Elder domain owes (R544). -/
def Fab.deliverLatched (f : Fab) : Fab :=
  let ord := ((List.range 32).map (fun e => f.latched.filter (fun x => f.wakeEntry x.1 == some e))).flatten ++
    f.latched.filter (fun x => (f.wakeEntry x.1).isNone)
  { f with inbox := ord.map (fun x => (x.1, x.2, true)) ++ f.inbox, latched := [] }

/-! ### Rights (R423, R427, R440) -/

/-- Does the master reach the registers of source `s`: a master that reaches every unit (R233, R403), or a host through the window of the
partition that owns it (R375, R440)? -/
def Fab.ownsSource (f : Fab) (m : Master) (s : Nat) : Bool :=
  m.code ≤ 1 || m.code == 6 || (m.code ≤ 5 && !f.bit (Reg.ISC_SCFG_DEV s) &&
    f.bit (Reg.HP_PCFG_VALID (f.get (Reg.ISC_SCFG_OWNER s))) && f.portOf (f.get (Reg.ISC_SCFG_OWNER s)) == m.code - 2 &&
    m.parts.testBit (f.get (Reg.ISC_SCFG_OWNER s)))

/-- ISC.SRAISE(s) written by a master (R423): the Damson core for any source, a host for a software source of its
partition. -/
def Fab.sraise (f : Fab) (m : Master) (s : Nat) (lvl : Bool) : Fab :=
  let soft := (List.range 8).any (fun p => softSourceOf p s)
  f.sendMsg s lvl (m.code == 0 || (2 ≤ m.code && m.code ≤ 5 && f.ownsSource m s && soft))

/-- ISC.DOORBELL written by a master: the Damson core only. -/
def Fab.iscDoorbell (f : Fab) (m : Master) (v : Word) : Fab :=
  if m.code = 0 then f.sendMsg (fget v 0 8) (v.getLsbD 8) true else f

/-! ### DDR ports (R443–R454) -/

/-- Data rates in units of 100 MT/s by speed code. -/
def ddrRate (c : Nat) : Nat := [32, 40, 44, 48, 52, 56, 60, 64].getD c 0

/-- Why a port does not train, if it does not: 0 for none. -/
def Fab.dimmCause (f : Fab) (n : Nat) (d : Dimm) : Nat :=
  if d.cause ≠ 0 then d.cause else if d.x8 && !f.bit (Reg.DDR_PCFG_ALLOWX8 n) then 2 else 0

/-- Do two DIMMs report the same organisation, capacity and rate (R443)? -/
def dimmSame (a b : Dimm) : Bool :=
  a.ranks == b.ranks && a.stack == b.stack && a.x8 == b.x8 && a.cap == b.cap && a.speed == b.speed && a.die == b.die

/-- Show one port's training (R443, R456). -/
def Fab.ddrPortShow (f : Fab) (n state cause : Nat) (d : Dimm) : Fab :=
  let f := (f.set (Reg.DDR_PSTAT_STATE n) state).set (Reg.DDR_PSTAT_CAUSE n) cause
  let f := (f.set (Reg.DDR_PSTAT_RANKS n) (if d.cause = 1 then 0 else d.ranks)).set (Reg.DDR_PSTAT_STACK n)
    (if d.cause = 1 then 0 else d.stack)
  (f.set (Reg.DDR_PSTAT_X8 n) (b2n (d.cause ≠ 1 && d.x8))).set (Reg.DDR_PSTAT_REFDBL n) (b2n (state == 2 && f.ref2x.contains n))

/-- Train every port and choose the set (R443, R446); the sweep starts afresh (R447). `ds` are the DIMMs of MP0–MP3. -/
def Fab.ddrTrain (f : Fab) (ds : List Dimm) : Fab :=
  let f : Fab := { f with dimms := ds, ref2x := (List.range 4).filter (fun n => f.bit (Reg.DDR_PCFG_REF2X n)) }
  let dim (n : Nat) : Dimm := ds.getD n ⟨1, 0, 0, false, 0, 0, 0⟩
  let cause (n : Nat) : Nat :=
    let c := f.dimmCause n (dim n)
    if c = 0 && n ≠ 0 && f.bit (Reg.DDR_PCFG_EN 0) && f.dimmCause 0 (dim 0) = 0 && !dimmSame (dim n) (dim 0) then 4 else c
  let good (n : Nat) : Bool := f.bit (Reg.DDR_PCFG_EN n) && cause n == 0
  let set_ := if good 0 && good 1 && good 2 && good 3 then 15 else if good 0 && good 1 then 3 else if good 0 then 1 else 0
  let rate := (List.range 4).foldl (fun r n =>
    if set_.testBit n then min r (f.get (Reg.DDR_PCFG_MAXSPEED n)) else r) (dim 0).speed
  let f := (List.range 4).foldl (fun g n =>
    if !g.bit (Reg.DDR_PCFG_EN n) then g.ddrPortShow n 4 0 ⟨1, 0, 0, false, 0, 0, 0⟩
    else g.ddrPortShow n (if set_.testBit n then 2 else if good n then 4 else 3) (cause n) (dim n)) f
  let f := (f.set Reg.DDR_STAT_SET set_).set Reg.DDR_STAT_TRAINED 1
  let f := f.set Reg.DDR_STAT_CHIPLOSS (b2n (set_ ≠ 0 && !(dim 0).x8))
  let f := f.set Reg.DDR_STAT_CAP (if set_ = 0 then 0 else (dim 0).cap)
  let f := f.set Reg.DDR_STAT_RATE (if set_ = 0 then 0 else ddrRate rate)
  (f.set Reg.DDR_SWEEP_WM 0).set Reg.DDR_SWEEP_DONE 0

/-- Is every DDR granule FREE? -/
def Fab.ddrFree (f : Fab) : Bool :=
  f.regs.all (fun c => !(Reg.MEM_DOWNER 0 ≤ c.1 && c.1 < Reg.MEM_DOWNER 2048) || fget c.2 0 4 == 8)

/-- DDR_RETRAIN (R447): a write of DDR.CTL.RETRAIN by a master. -/
def Fab.ddrRetrain (f : Fab) (m : Master) (ds : List Dimm) : Fab :=
  if m.code ≠ 0 then f
  else if f.ddrFree then f.ddrTrain ds
  else f.set Reg.DDR_STAT_RTERR 1

/-- DIMM_TEMPERATURE_READ (R452): the highest sensor reads `t` °C, and the DRAMs report `hot`. -/
def Fab.dimmTemp (f : Fab) (n : Nat) (t : BitVec 8) (hot : Bool) : Fab :=
  if f.get (Reg.DDR_PSTAT_STATE n) ≠ 2 then f
  else
    let f := f.set (Reg.DDR_PSTAT_TEMP n) t.toNat
    let f := f.set (Reg.DDR_PSTAT_REFDBL n) (b2n (hot || 85 < t.toInt || f.ref2x.contains n))
    if 95 < t.toInt then (f.set (Reg.DDR_PSTAT_HOT n) 1).raise 8 true else f

/-- The port address of a DDR offset, with `ports` ports in the set (R448). -/
def portAddr (ports o : Nat) : Nat := if ports = 0 then o else o / (0x100 * ports) * 0x100 + o % 0x100

/-- The DDR offset of an address of port `n`. -/
def portOffset (ports n a : Nat) : Nat := if ports = 0 then a else a / 0x100 * (0x100 * ports) + n * 0x100 + a % 0x100

/-- The fields of a port address (R449): bank group and bank are hashed with the low row bits. `nr` row bits of the die, `rb` package
rank bits, `cb` chip ID bits. -/
def dramSplit (nr rb cb a : Nat) : DramAddr :=
  let row := natBits a 19 nr
  { word := natBits a 4 3, col := natBits a 7 7, bg := natBits a 14 3 ^^^ natBits row 0 3, bank := natBits a 17 2 ^^^ natBits row 3 2
    row := row, rank := natBits a (19 + nr) rb, chip := natBits a (19 + nr + rb) cb }

/-- The port address of a place: the hash undone. -/
def dramJoin (nr rb : Nat) (d : DramAddr) : Nat :=
  d.word % 8 * 2 ^ 4 + d.col % 128 * 2 ^ 7 + (d.bg % 8 ^^^ natBits d.row 0 3) * 2 ^ 14 + (d.bank % 4 ^^^ natBits d.row 3 2) * 2 ^ 17 +
    d.row % 2 ^ nr * 2 ^ 19 + d.rank % 2 ^ rb * 2 ^ (19 + nr) + d.chip * 2 ^ (19 + nr + rb)

/-- Row bits of the die of the set, and the bits of package rank and chip ID (R442, R449). -/
def Fab.dramBits (f : Fab) : Nat × Nat × Nat :=
  let d := f.dimms.getD 0 ⟨1, 0, 0, false, 0, 0, 0⟩
  (if d.die = 32 then 17 else 16, if d.ranks = 2 then 1 else 0, d.stack)

/-- The place in the DRAMs of the code word at a DDR offset. -/
def Fab.dramOf (f : Fab) (o : Nat) : DramAddr := dramSplit f.dramBits.1 f.dramBits.2.1 f.dramBits.2.2 (portAddr f.ddrPorts o)

/-- The device address of a place in the DRAMs of port `n`. -/
def Fab.dramAt (f : Fab) (n : Nat) (d : DramAddr) : Nat := ddrBase + portOffset f.ddrPorts n (dramJoin f.dramBits.1 f.dramBits.2.1 d)

/-- A word of the port that a second alert makes UNCORRECTABLE, with the stored error it then shows (R454): the DRAMs hold it at a
place (R449). -/
def Fab.alertWord (f : Fab) (n : Nat) (x : DramAddr × BitVec 160) : Fab :=
  let a := f.dramAt n x.1
  if f.dramOf (a - ddrBase) = x.1 && isDdr a && a < ddrBase + f.ddrBytes && f.ddrPort (a - ddrBase) == n &&
      (rsDecode true x.2).out == .uncorrectable then
    { f with err := Store.set 0 f.err (a / 16) x.2, key := Store.set 0 f.key (a / 16) (max 1 (Store.get 0 f.key (a / 16))) }
  else f

/-- CA_PARITY_ALERT (R454): `words` are the words of the affected accesses, of which a second alert makes every one
UNCORRECTABLE. -/
def Fab.caAlert (f : Fab) (n : Nat) (second : Bool) (words : List (DramAddr × BitVec 160)) : Fab :=
  let f := f.stick (Reg.DDR_PERR_ALERTS n) 1
  if second then words.foldl (fun g x => g.alertWord n x) (f.stick (Reg.DDR_PERR_DOUBLE n) 1) else f

/-! ### The meanings -/

/-- Run a write of the register at `a` by the master of a code. -/
def byMaster (m a : Nat) (g : Fab → Master → Fab) (s : State) : Host.Outcome State Fault Refusal :=
  if m < 6 then .next { s with fab := s.fab.byReg (s.fab.master m) a (fun f => g f (s.fab.master m)) }
  else .refused .noSuchUnit

/-- Run an operation on a source. -/
def onSource (src : Nat) (g : Fab → Fab) (s : State) : Host.Outcome State Fault Refusal :=
  if isSource src then .next { s with fab := s.fab.whenActive g } else .refused .noSuchUnit

/-- ISC_MESSAGE. -/
def execIscMessage (s : State) : Host.Outcome State Fault Refusal := .next { s with fab := s.fab.iscMessage }

/-- ISC_CLAIM (R433, R434) by target `t`: engines 0–191, the Damson core 192; a host target 193 + n claims source `src`. The
answer leaves as one to master 16 + t. -/
def execIscClaim (t src : Nat) (s : State) : Host.Outcome State Fault Refusal :=
  if t < 193 then
    .next { s with fab := s.fab.whenActive (fun f =>
      let r := f.claim t
      r.2.emit (.answer (16 + t) r.1 8 false)) }
  else if t < 197 && isSource src then
    .next { s with fab := s.fab.whenActive (fun f =>
      if f.ownsSource (f.host (t - 193)) src then
        let r := f.hostClaim src (t - 193)
        r.2.emit (.answer (16 + t) r.1 8 false)
      else f.emit (.answer (16 + t) 0 8 false)) }
  else .refused .noSuchUnit

/-- ISC_COMPLETE: target `t` writes source number `src` (R435). -/
def execIscComplete (t src : Nat) (s : State) : Host.Outcome State Fault Refusal :=
  if t < 197 && src < 256 then .next { s with fab := s.fab.whenActive (fun f => f.complete src t) } else .refused .noSuchUnit

/-- ISC_EOI by an engine or the Damson core (R437). -/
def execIscEoi (t : Nat) (s : State) : Host.Outcome State Fault Refusal :=
  if t < 193 then .next { s with fab := s.fab.whenActive (fun f => f.eoi t) } else .refused .noSuchUnit

/-- COALESCING_TIMER of a source. -/
def execCoalescingTimer (src : Nat) (s : State) : Host.Outcome State Fault Refusal :=
  onSource src (fun f => f.timerExpires src) s

/-- ISC_SCFG_WRITE by the master of a code (R427). -/
def execIscScfgWrite (m src : Nat) (v : Word) (s : State) : Host.Outcome State Fault Refusal :=
  if isSource src then byMaster m (Reg.ISC_SCFG src) (fun f x => if f.ownsSource x src then f.writeScfg src v else f) s
  else .refused .noSuchUnit

/-- ISC_SMASK_WRITE by the master of a code (R426, R427). -/
def execIscSmaskWrite (m src i : Nat) (v : Word) (s : State) : Host.Outcome State Fault Refusal :=
  if isSource src && i < 4 then byMaster m (Reg.ISC_SMASK src i) (fun f x => if f.ownsSource x src then f.writeSmask src i v else f) s
  else .refused .noSuchUnit

/-- ISC_CTL_WRITE by the master of a code (R438). -/
def execIscCtlWrite (m : Nat) (v : Word) (s : State) : Host.Outcome State Fault Refusal :=
  byMaster m Reg.ISC_CTL (fun f x => if x.code = 0 then f.writeIscCtl v else f) s

/-- ISC_SRAISE: the master of a code writes ISC.SRAISE(src), or ISC.DOORBELL naming `src` (R423). -/
def execIscSraise (m : Nat) (db : Bool) (src : Nat) (lvl : Bool) (s : State) : Host.Outcome State Fault Refusal :=
  if db then
    (if src < 256 then byMaster m Reg.ISC_DOORBELL (fun f x => if x.code = 0 then f.sendMsg src lvl true else f) s
      else .refused .noSuchUnit)
  else if isSource src then byMaster m (Reg.ISC_SRAISE src) (fun f x => f.sraise x src lvl) s
  else .refused .noSuchUnit

/-- Run an operation on a DDR port. -/
def onDdr (n : Nat) (g : Fab → Fab) (s : State) : Host.Outcome State Fault Refusal :=
  if n < 4 then .next { s with fab := s.fab.whenActive g } else .refused .noSuchUnit

/-- DDR_RETRAIN by the master of a code, with the DIMMs as training finds them. -/
def execDdrRetrain (m : Nat) (ds : List Dimm) (s : State) : Host.Outcome State Fault Refusal :=
  if ds.length = 4 then byMaster m Reg.DDR_CTL (fun f x => f.ddrRetrain x ds) s else .refused .noSuchUnit

/-- REFRESH (R452): a same-bank refresh changes nothing that the block holds. -/
def execRefresh (n : Nat) (s : State) : Host.Outcome State Fault Refusal := onDdr n (fun f => f) s

/-- DIMM_TEMPERATURE_READ. -/
def execDimmTemperatureRead (n : Nat) (t : BitVec 8) (hot : Bool) (s : State) : Host.Outcome State Fault Refusal :=
  onDdr n (fun f => f.dimmTemp n t hot) s

/-- CA_PARITY_ALERT. -/
def execCaParityAlert (n : Nat) (second : Bool) (words : List (DramAddr × BitVec 160)) (s : State) :
    Host.Outcome State Fault Refusal :=
  onDdr n (fun f => f.caAlert n second words) s

/-- Count an event of a host's port. -/
def Fab.hostCount (f : Fab) (m : Master) (x : Nat → Fld) : Fab :=
  if 2 ≤ m.code && m.code ≤ 5 then f.stick (x (m.code - 2)) 1 else f

/-- A host's request is refused under R376. -/
def Fab.hostRefuse (f : Fab) (m : Master) (a kind barsp : Nat) : Fab :=
  (f.errLog m a kind barsp).hostCount m Reg.HP_ERRCNT_REFUSED

/-- A read request of the committed view by a master (R364, R365): in STANDBY the block memories and the view stand closed. -/
def Fab.viewRead (f : Fab) (x : Master) (p off len : Nat) : Fab :=
  if f.pwr.st = 2 then (f.errLog x (0x0400000000 + off) 1 0).emit (.answer x.code (ones len) len false)
  else if !x.all && !x.parts.testBit p then
    (f.hostRefuse x (0x0400000000 + off) 2 0).emit (.answer x.code (ones len) len false)
  else
    let r := f.cvRead x p off len
    let f := if r.bad then r.fab.hostCount x Reg.HP_ERRCNT_EP else r.fab
    f.emit (.answer x.code r.data len r.bad)

/-- A write request of the committed view by a master (R363). -/
def Fab.viewWrite (f : Fab) (x : Master) (p off len data : Nat) : Fab :=
  if f.pwr.st = 2 then f.errLog x (0x0400000000 + off) 1 0
  else if !x.all && !x.parts.testBit p then f.hostRefuse x (0x0400000000 + off) 2 0
  else (f.cvWrite x p off len data).fab

/-- COMMITTED_VIEW_READ: a master reads `len` bytes at an offset of the slice of partition `p`. A host reaches the slices of
its own partitions (R376). -/
def execCommittedViewRead (m p off len : Nat) (s : State) : Host.Outcome State Fault Refusal :=
  if 6 ≤ m || 8 ≤ p || len = 0 || 4096 < len || 2 ^ 32 < off + len then .refused .noSuchUnit
  else .next { s with fab := s.fab.whenLive (fun f => f.viewRead (f.master m) p off len) }

/-- COMMITTED_VIEW_WRITE. -/
def execCommittedViewWrite (m p off len data : Nat) (s : State) : Host.Outcome State Fault Refusal :=
  if 6 ≤ m || 8 ≤ p || len = 0 || 4096 < len || 2 ^ 32 < off + len then .refused .noSuchUnit
  else .next { s with fab := s.fab.whenLive (fun f => f.viewWrite (f.master m) p off len data) }

end Sys2Proof.Machine
end

