-- ==== Sys2Proof/Machine/Umx.lean ====
section
/-! DEFINITION. The Umhater enclave (spec/17): measuring, energy registers, checkpoints, allocation, usage records, the seal
and sealed updates. -/

namespace Sys2Proof.Machine

/-- The fabric with the enclave changed. -/
def Fab.updUmx (f : Fab) (g : Umx → Umx) : Fab := { f with umx := g f.umx }

/-- The fabric with the management subsystem changed. -/
def Fab.updMgmt (f : Fab) (g : Mgmt → Mgmt) : Fab := { f with mgmt := g f.mgmt }

/-! ### Measuring (R496, R499) -/

/-- Largest value of an energy register. -/
def energyMax : Nat := 0xFFFFFFFFFFFFFFFF

/-- Show the accumulators in the energy registers: they stay at their largest value and set SAT (R499). -/
def Fab.umxShow (f : Fab) : Fab :=
  let a := f.umx.acc0 / 2 ^ 32
  let b := f.umx.acc1 / 2 ^ 32
  let t := min a energyMax + min b energyMax
  let f := (f.set Reg.UMX_ECORE_ENERGY (min a energyMax)).set Reg.UMX_ESRAM_ENERGY (min b energyMax)
  let f := f.set Reg.UMX_ETOTAL_ENERGY (min t energyMax)
  if energyMax < a || energyMax < b || energyMax < t then f.set Reg.UMX_STAT_SAT 1 else f

/-- Full scale of the current inputs in µA (R494: ±25 mV over 20 µΩ and 200 µΩ), and of the voltage inputs in µV. -/
def currentMax (ch : Nat) : Nat := if ch = 0 then 1250000000 else 125000000
def voltMax : Nat := 1000000

/-- Energy of one sample in 2⁻³² µJ: i × v over 1/8,000 s; none where the power is negative. -/
def sampleEnergy (i v : Int) : Nat := (i * v).toNat * 2 ^ 32 / 8000000000

/-- A reading clipped to its range. -/
def clip (lo hi x : Int) : Int := max lo (min hi x)

/-- UMX_SAMPLE: the four inputs as converted and calibrated: currents in µA, voltages in µV. -/
def Fab.umxSample (f : Fab) (i0 v0 i1 v1 : Int) : Fab :=
  let c0 := clip (-(currentMax 0 : Nat)) (currentMax 0) i0
  let c1 := clip (-(currentMax 1 : Nat)) (currentMax 1) i1
  let w0 := clip 0 voltMax v0
  let w1 := clip 0 voltMax v1
  let f := f.updUmx (fun u => { u with
    acc0 := u.acc0 + sampleEnergy c0 w0
    acc1 := u.acc1 + sampleEnergy c1 w1
    v0 := u.v0 + w0.toNat
    v1 := u.v1 + w1.toNat
    smp := u.smp + 1
    clip0 := u.clip0 || c0 ≠ i0 || w0 ≠ v0
    clip1 := u.clip1 || c1 ≠ i1 || w1 ≠ v1 })
  f.umxShow

/-! ### The enclave's OTP (R505) -/

/-- The word of three copies at `base + 3 s`. -/
def Umx.word (u : Umx) (base s : Nat) : OtpWord := otpWord u.otp (base + 3 * s) (base + 3 * s + 1) (base + 3 * s + 2)

/-- Weights of a block: W_ENG, W_BM, P_LEAK; 0 where the word is not consistent. -/
def Umx.weights (u : Umx) (b : Nat) : Nat × Nat × Nat :=
  let w := (u.word 12 b).val.getD 0
  (natBits w 0 21, natBits w 21 21, natBits w 42 21)

/-- Is every calibration and weight word consistent? -/
def Umx.calOk (u : Umx) : Bool :=
  (List.range 4).all (fun k => (u.word 0 k).val.isSome) && (List.range 24).all (fun b => (u.word 12 b).val.isSome)

/-- The part has suffix M (R516). -/
def Umx.suffixM (u : Umx) : Bool := ((u.word 84 0).val.getD 0).testBit 0

/-- The number of seal breaks (R504): the 1 bits of the bitwise majority of three copies of 256 bits. -/
def Umx.sealCount (u : Umx) : Nat :=
  ((List.range 4).map (fun k => popCount (otpMajority u.otp (128 + k) (132 + k) (136 + k)))).foldl (· + ·) 0

/-- Burn bit `n` of the seal-break counter in every copy. -/
def Umx.burnBreak (u : Umx) (n : Nat) : Umx :=
  { u with otp := (List.range 3).foldl (fun o c => burnRow o (128 + 4 * c + n / 64) (2 ^ (n % 64))) u.otp }

/-- UMX.SEALCNT shows the breaks counted, and SAT is set at 256 (R504). -/
def Fab.sealShow (f : Fab) : Fab :=
  let n := f.umx.sealCount
  let f := f.set Reg.UMX_SEALCNT_COUNT (min n 256)
  if 256 ≤ n then f.set Reg.UMX_STAT_SAT 1 else f

/-- The enclave's secret (R505): of each row the first intact copy. -/
def Umx.secret (u : Umx) : Nat := twoCopies u.otp 104

/-- The enclave's identity keys, by number (R514). -/
def Umx.idKey (u : Umx) : Nat := Config.derive u.secret 0x100

/-- The enclave's SVN. -/
def Umx.svn (u : Umx) : Nat := popCount (otpMajority u.otp 112 113 114)

/-- The key hash of an enclave key slot. -/
def Umx.keySlot (u : Umx) (slot : Nat) : Option (List Nat) := if slot < 2 then some (keyHash u.otp 88 slot) else none

/-! ### The enclave's flash slice (R506) -/

def umxSlice : Nat := 0x2000000
def umxSlot (s : Nat) : Nat := umxSlice + s * 0x100000
def umxChk : Nat := umxSlice + 0x200000
def umxLog : Nat := umxSlice + 0x400000
def umxCert : Nat := umxSlice + 0x700000

/-- The enclave appends to its own log an entry of the form of R488, whose CODE the spec does not give. -/
def Fab.umxLogEvent (f : Fab) (data : List Nat) : Fab :=
  let r := f.free 16
  let f := r.2
  let u := f.umx
  let h := logHead (u.logSeq + 1) (f.get Reg.UMX_TIME_TIME) f.mgmt.boots r.1 0 data
  let c := sha (toBytes u.chain 64 ++ h)
  let o := umxLog + 256 * u.logPos
  let m := if u.logPos % 256 = 0 then f.mgmt.erase o (o + 0x10000) else f.mgmt
  { f with
    mgmt := m.program o ((h ++ c ++ List.replicate 256 0).take 256)
    umx := { u with logSeq := u.logSeq + 1, logPos := (u.logPos + 1) % 12288, chain := ofBytes c } }

/-- The enclave seals its log: the Ed25519 part of its signature over the CHAIN before it, in the form of R488. -/
def Fab.umxSeal (f : Fab) : Fab := f.umxLogEvent ((Config.sign f.umx.idKey (toBytes f.umx.chain 64)).take 64)

/-! ### Checkpoints (R500) -/

/-- What a checkpoint keeps, in the enclave's own layout: the accumulators (12 bytes each), RSEQ, enclave time in ms, PINST. -/
def Fab.chkBody (f : Fab) : List Nat :=
  toBytes f.umx.acc0 12 ++ toBytes f.umx.acc1 12 ++ toBytes (f.get Reg.UMX_RSEQ_RSEQ) 8 ++ toBytes f.umx.ms 8 ++
    toBytes f.umx.pinst 4

/-- UMX_CHECKPOINT: write a 64-byte checkpoint with its number and a check. -/
def Fab.umxCheckpoint (f : Fab) : Fab :=
  let u := f.umx
  let o := umxChk + 64 * (u.chkPos % 32768)
  let l := toBytes (u.chkPos + 1) 8 ++ f.chkBody
  let m := if u.chkPos % 1024 = 0 then f.mgmt.erase o (o + 0x10000) else f.mgmt
  { f with
    mgmt := m.program o ((l ++ (sha l)).take 64)
    umx := { u with chkPos := u.chkPos + 1 } }

/-- The checkpoint at ring position `k`, when its check is valid: its number and body. -/
def Mgmt.checkpoint (m : Mgmt) (k : Nat) : Option (Nat × List Nat) :=
  let l := m.flashBytes (umxChk + 64 * k) 64
  if (sha (l.take 52)).take 12 == l.drop 52 then some (ofBytes (l.take 8), (l.take 52).drop 8) else none

/-- The newest valid checkpoint among ring positions below `n` that hold anything. -/
def Mgmt.newestChk (m : Mgmt) : Nat → Option (Nat × List Nat)
  | 0 => none
  | n + 1 =>
    let r := m.newestChk n
    if m.flashByte (umxChk + 64 * n) = 0xFF && m.flashByte (umxChk + 64 * n + 7) = 0xFF then r
    else
      match m.checkpoint n, r with
      | some x, some y => if y.1 < x.1 then some x else some y
      | some x, none => some x
      | none, _ => r

/-- Restore at start (R500): from the retained bank, else from the newest valid checkpoint with PWRLOSS. -/
def Fab.umxRestore (f : Fab) : Fab :=
  let put (f : Fab) (l : List Nat) : Fab :=
    let f := f.updUmx (fun u => { u with
      acc0 := ofBytes (l.take 12)
      acc1 := ofBytes ((l.drop 12).take 12)
      ms := ofBytes ((l.drop 32).take 8)
      pinst := ofBytes ((l.drop 40).take 4) })
    (f.set Reg.UMX_RSEQ_RSEQ (ofBytes ((l.drop 24).take 8))).set Reg.UMX_TIME_TIME (f.umx.ms * 32768 / 1000)
  let f := match f.umx.kept with
    | some l => put f l
    | none =>
      let f := match f.mgmt.newestChk 32768 with
        | some x => put (f.updUmx (fun u => { u with chkPos := x.1 })) x.2
        | none => f
      f.updUmx (fun u => { u with flags := u.flags ||| 2 ^ 5 })
  let f := f.updUmx (fun u => { u with
    ms0 := u.acc0, ms1 := u.acc1, v0 := 0, v1 := 0, smp := 0, start := u.ms })
  let f := f.umxShow.sealShow
  f.updUmx (fun u => { u with totRec := f.get Reg.UMX_ETOTAL_ENERGY })

/-! ### Allocation (R510–R512) -/

/-- An account. -/
def Fab.acct (f : Fab) (p : Nat) : Acct := Store.get Acct.reset f.umx.accts p

/-- Change an account. -/
def Fab.updAcct (f : Fab) (p : Nat) (g : Acct → Acct) : Fab :=
  f.updUmx (fun u => { u with accts := Store.upd Acct.reset u.accts p g })

/-- Activity of a block over the millisecond (R509): c_E, c_M and t_ON. -/
abbrev Activity := Nat × Nat × Nat

/-- The allocation a[b] of a block in fJ (R510). -/
def Umx.blockEnergy (u : Umx) (s b : Nat) (x : Activity) : Nat :=
  let w := u.weights b
  (x.1 * w.1 + x.2.1 * w.2.1) * s / 2 ^ 32 + w.2.2 * x.2.2 * 10 ^ 6

/-- The shares of one millisecond (R510): for each partition, its share and the part of it from U; then, for the unassigned
account, which takes every remainder, the part from U alone. -/
def Fab.shares (f : Fab) (e v0 : Nat) (act : List Activity) : List (Nat × Nat) :=
  let s := 2 ^ 32 * v0 * v0 / (7500 * 7500)
  let a (b : Nat) : Nat := f.umx.blockEnergy s b (act.getD b (0, 0, 0))
  let mine (p b : Nat) : Bool := f.unitPart b == some p
  let acc (p : Nat) : Nat := (((List.range 24).filter (mine p)).map a).foldl (· + ·) 0 / 10 ^ 6
  let rest := (((List.range 24).filter (fun b => (f.unitPart b).isNone)).map a).foldl (· + ·) 0 / 10 ^ 6
  let sum := ((List.range 8).map acc).foldl (· + ·) 0 + rest
  let n := ((List.range 24).filter (fun b => (f.unitPart b).isSome)).length
  let blocks (p : Nat) : Nat := ((List.range 24).filter (mine p)).length
  let u (p : Nat) : Nat := if sum ≤ e && 0 < n then (e - sum) * blocks p / n else 0
  (List.range 8).map (fun p => if sum ≤ e then (acc p + u p, u p) else (acc p * e / sum, 0)) ++
    [(0, (e - sum) - ((List.range 8).map u).foldl (· + ·) 0)]

/-- The bytes [767:0] of a usage record (R514), for the interval that ends now. -/
def Fab.recordBody (f : Fab) (rseq flags : Nat) : List Nat :=
  let u := f.umx
  let tot := f.get Reg.UMX_ETOTAL_ENERGY
  let eint := tot - u.totRec
  let energy (p : Nat) : Nat := (f.acct p).nj / 1000 - (f.acct p).njRec / 1000
  let parts := ((List.range 8).map energy).foldl (· + ·) 0
  let entry (p : Nat) : List Nat :=
    let a := f.acct p
    toBytes a.pinst 4 ++ toBytes (b2n a.valid + 2 * b2n a.ran) 4 ++ toBytes (energy p) 8 ++ toBytes a.dcyc 8 ++
      toBytes a.engms 8 ++ toBytes a.blkms 8 ++ toBytes (a.unc / 1000 - a.uncRec / 1000) 8 ++ List.replicate 16 0
  let rest := toBytes ((eint + 2 ^ 64 - parts) % 2 ^ 64) 8
  let head := toBytes 1 4 ++ toBytes flags 4 ++ toBytes rseq 8 ++ toBytes (u.start * 32768 / 1000) 8 ++
    toBytes (u.ms * 32768 / 1000) 8 ++ toBytes f.mgmt.uid 16 ++ toBytes (f.get Reg.UMX_FWVER_VERSION) 4 ++
    toBytes (f.get Reg.UMX_SEALCNT_COUNT) 4 ++ toBytes (f.get Reg.UMX_ECORE_ENERGY) 8 ++
    toBytes (f.get Reg.UMX_ESRAM_ENERGY) 8 ++ toBytes eint 8
  let dig := ((List.range 8).map (fun i => toBytes (f.get (Reg.UMX_FWDIGEST_DIGEST i)) 8)).flatten
  (head ++ dig ++ List.replicate 48 0 ++ ((List.range 8).map entry).flatten ++
    (List.replicate 8 0 ++ rest ++ List.replicate 24 0 ++ toBytes ((f.acct 8).unc / 1000 - (f.acct 8).uncRec / 1000) 8 ++
      List.replicate 16 0))

/-- FLAGS of the interval's record (R514). -/
def Fab.recordFlags (f : Fab) : Nat :=
  let u := f.umx
  u.flags ||| (if u.suffixM && u.calOk then 1 else 0) ||| (if f.bit Reg.UMX_STAT_SAT then 4 else 0) |||
    (if u.short then 64 else 0) ||| (if u.calOk then 0 else 256)

/-- The interval ends (R512, R513): its record waits to be written, and the accounts start a new interval. -/
def Fab.intervalEnd (f : Fab) : Fab :=
  let next := f.get Reg.UMX_CFG_NEXT
  let f := if next = f.get Reg.UMX_CFG_INTERVAL then f else f.updUmx (fun u => { u with short := true })
  let rseq := f.get Reg.UMX_RSEQ_RSEQ + 1 + f.umx.due.length
  let body := f.recordBody rseq f.recordFlags
  let f := (List.range 8).foldl (fun g p => g.updAcct p (fun a => { a with
    njRec := a.nj, uncRec := a.unc, dcyc := 0, engms := 0, blkms := 0
    valid := f.bit (Reg.HP_PCFG_VALID p), ran := false })) f
  let f := f.updAcct 8 (fun a => { a with uncRec := a.unc })
  let f := f.updUmx (fun u => { u with
    due := u.due ++ [body], start := u.ms, flags := 0, short := false, totRec := f.get Reg.UMX_ETOTAL_ENERGY })
  f.set Reg.UMX_CFG_INTERVAL next

/-- UMX_MILLISECOND: the enclave copies its accumulators and allocates the energy of the millisecond; `act` holds the activity
of the 24 blocks. -/
def Fab.umxMs (f : Fab) (act : List Activity) : Fab :=
  let u := f.umx
  let e := (u.acc0 + u.acc1) * 1000 / 2 ^ 32 - (u.ms0 + u.ms1) * 1000 / 2 ^ 32
  let v0 := if u.smp = 0 then 0 else u.v0 / u.smp / 100
  let v1 := if u.smp = 0 then 0 else u.v1 / u.smp / 100
  let f := (f.set Reg.UMX_POWER_P0 ((u.acc0 - u.ms0) / 2 ^ 32)).set Reg.UMX_POWER_P1 ((u.acc1 - u.ms1) / 2 ^ 32)
  let f := (f.set Reg.UMX_VOLT_V0 v0).set Reg.UMX_VOLT_V1 v1
  let f := (f.set Reg.UMX_STAT_OVR0 (b2n u.clip0)).set Reg.UMX_STAT_OVR1 (b2n u.clip1)
  let sh := f.shares e v0 act
  let f := (List.range 8).foldl (fun g p =>
    let own := f.bit (Reg.HP_PCFG_VALID p)
    let live := f.st p ≠ 0 && f.st p ≠ 5
    g.updAcct p (fun a => { a with
      nj := a.nj + (sh.getD p (0, 0)).1
      unc := a.unc + (sh.getD p (0, 0)).2
      dcyc := a.dcyc + Store.get 0 f.umx.dcyc p
      engms := a.engms + (if live then (f.actives p).length else 0)
      blkms := a.blkms + ((List.range 24).filter (fun b => f.unitPart b == some p)).length
      valid := a.valid || own
      ran := a.ran || f.runs p })) f
  let f := f.updAcct 8 (fun a => { a with unc := a.unc + (sh.getD 8 (0, 0)).2 })
  let f := f.updUmx (fun u => { u with
    ms := u.ms + 1, ms0 := u.acc0, ms1 := u.acc1, v0 := 0, v1 := 0, smp := 0, clip0 := false, clip1 := false, dcyc := []
    flags := u.flags ||| (if f.bit Reg.UMX_STAT_SEALOPEN then 2 else 0) ||| (if u.clip0 || u.clip1 then 16 else 0) })
  let f := f.set Reg.UMX_TIME_TIME (f.umx.ms * 32768 / 1000)
  let f := f.updUmx (fun u => { u with kept := some f.chkBody })
  if f.umx.short || f.umx.ms % (f.get Reg.UMX_CFG_INTERVAL * 1000) = 0 then f.intervalEnd else f

/-- USAGE_RECORD: the oldest record that waits is signed and appears in its slot (R514, R515). The first record of an updated
image makes its slot CONFIRMED (R508). -/
def Fab.usageRecord (f : Fab) : Fab :=
  match f.umx.due with
  | [] => f
  | body :: t =>
    let rseq := f.get Reg.UMX_RSEQ_RSEQ + 1
    let rec_ := body ++ Config.sign f.umx.idKey (sha body)
    let f := f.updUmx (fun u => { u with due := t, recs := Store.set [] u.recs (rseq % 6) rec_ })
    let f := f.set Reg.UMX_RSEQ_RSEQ rseq
    if f.umx.confirm then
      let o := umxSlot (f.get Reg.UMX_FWVER_SLOT)
      (f.updMgmt (fun m => m.program (o + umxImg.act + 8) [0x3F])).updUmx (fun u => { u with confirm := false })
    else f

/-- TIMEBASE_CHECK (R498): REFCLK cycles counted over a second. -/
def Fab.timebaseCheck (f : Fab) (n : Nat) : Fab :=
  let bad := 100002000 < n || n < 99998000
  let f := f.set Reg.UMX_STAT_TBERR (b2n bad)
  if bad then f.updUmx (fun u => { u with flags := u.flags ||| 8 }) else f

/-! ### The seal (R504) -/

/-- One break of the seal is counted. The enclave logs it, in DORMANT at its next start (R504). -/
def Fab.sealBreak (f : Fab) : Fab :=
  let n := f.umx.sealCount
  let f := if 256 ≤ n then f else f.updUmx (fun u => u.burnBreak n)
  let f := f.sealShow.set Reg.UMX_STAT_SEALOPEN 1
  if 2 ≤ f.pwr.st then f.umxLogEvent [] else f.updUmx (fun u => { u with brk := u.brk + 1 })

/-- The enclave logs the breaks that happened while it did not run. -/
def Fab.logBreaks (f : Fab) : Fab :=
  let g := (List.range f.umx.brk).foldl (fun h _ => h.umxLogEvent []) f
  g.updUmx (fun u => { u with brk := 0 })

/-- A response to the request in progress (R518). -/
def Fab.umxRespond (f : Fab) (op status : Nat) : Fab :=
  let f := (f.set Reg.UMX_RSP_OP op).set Reg.UMX_RSP_STATUS status
  (f.set Reg.UMX_RSP_DONE 1).updUmx (fun u => { u with reqBusy := false })

/-- SEAL_SAMPLE: the seal input reads `open_` (high). -/
def Fab.sealSample (f : Fab) (open_ : Bool) : Fab :=
  if open_ then
    let f := f.updUmx (fun u => { u with high := min (u.high + 1) 5, low := 0 })
    if f.umx.high = 4 then f.sealBreak else f
  else
    let f := f.updUmx (fun u => { u with high := 0, low := min (u.low + 1) 1024 })
    if f.umx.low = 1024 && f.bit Reg.UMX_STAT_SEALOPEN then
      let f := f.set Reg.UMX_STAT_SEALOPEN 0
      if f.umx.upd.isSome then
        ((f.updUmx (fun u => { u with upd := none })).set Reg.UMX_STAT_STATE 1).umxRespond 2 5
      else f
    else f

/-! ### Requests and updates (R508, R513, R518) -/

/-- Does the enclave image at flash offset `o` verify (R506)? -/
def Fab.umxImageOk (f : Fab) (o : Nat) : Bool := f.mgmt.imageOk umxImg o f.umx.svn f.umx.keySlot

/-- A request is accepted: DONE clears, and it is logged. -/
def Fab.umxAccept (f : Fab) (op arg : Nat) : Fab :=
  let f := (f.set Reg.UMX_RSP_OP op).set Reg.UMX_RSP_DONE 0
  (f.updUmx (fun u => { u with reqBusy := true })).umxLogEvent (toBytes op 1 ++ toBytes arg 4)

/-- SET_INTERVAL with a number of seconds. -/
def Fab.setInterval (f : Fab) (n : Nat) : Fab :=
  let f := f.umxAccept 1 n
  if 1 ≤ n && n ≤ 3600 then (f.set Reg.UMX_CFG_NEXT n).umxRespond 1 0 else f.umxRespond 1 1

/-- UPDATE from the image staged at a flash offset: refused while the seal is closed. -/
def Fab.umxUpdate (f : Fab) (o : Nat) : Fab :=
  let f := f.umxAccept 2 o
  if o < 0x2810000 || flashSize < o + 0x100000 then f.umxRespond 2 1
  else if !f.bit Reg.UMX_STAT_SEALOPEN then f.umxRespond 2 2
  else if !f.umxImageOk o then f.umxRespond 2 4
  else (f.updUmx (fun u => { u with upd := some o })).set Reg.UMX_STAT_STATE 2

/-- A write of UMX.REQ by a master (R502, R517, R518): the Damson core only, while no request is in progress and an image
runs that can take it. -/
def Fab.umxReq (f : Fab) (m : Master) (op arg : Nat) : Fab :=
  if m.code ≠ 0 || f.umx.reqBusy || f.get Reg.UMX_STAT_STATE = 3 then f
  else if op = 1 then f.setInterval arg
  else if op = 2 then f.umxUpdate arg
  else (f.umxAccept op arg).umxRespond op 1

/-- The enclave's firmware starts (R477, R506, R507): a slot is chosen, and its identity shown. -/
def Fab.umxStart (f : Fab) : Fab :=
  let x := f.mgmt.choose umxImg (fun m o => m.imageOk umxImg o f.umx.svn f.umx.keySlot) true
    (f.mgmt.candidates umxImg (umxSlot 0) (umxSlot 1))
  let f : Fab := { f with mgmt := x.2.2 }
  match x.1 with
  | none => f.set Reg.UMX_STAT_STATE 3
  | some (o, _) =>
    let m := f.mgmt
    let f := (f.set Reg.UMX_FWVER_VERSION (m.flashNum (o + 8) 4)).set Reg.UMX_FWVER_SLOT (if o = umxSlot 1 then 1 else 0)
    let d := sha (m.header o ++ m.flashBytes (o + 0x2000) (m.flashNum (o + 16) 4))
    let f := (List.range 8).foldl (fun g i => g.set (Reg.UMX_FWDIGEST_DIGEST i) (ofBytes ((d.drop (8 * i)).take 8))) f
    let f := f.updUmx (fun u => { u with confirm := m.actState umxImg o == 0x7F })
    (f.set Reg.UMX_STAT_STATE 1).logBreaks

/-- Steps 3 and 4 of a sealed update (R508): program the slot that did not boot, verify it, write its activation record. -/
def Fab.umxProgram (f : Fab) (src : Nat) : Fab :=
  let cur := f.get Reg.UMX_FWVER_SLOT
  let o := umxSlot (1 - cur)
  let len := f.mgmt.flashNum (src + 16) 4
  let m := f.mgmt
  let img := m.flashBytes src 256
  let sig := m.flashBytes (src + 0x100) sigLen
  let body := m.flashBytes (src + 0x2000) len
  let m := m.erase o (o + 0x100000)
  let m := ((m.program o img).program (o + 0x100) sig).program (o + 0x2000) body
  let seq := m.actSeq umxImg (umxSlot cur) + 1
  let m := (m.program (o + umxImg.act) (toBytes seq 8)).program (o + umxImg.act + 8) [0x7F]
  { f with mgmt := m }

/-- ENCLAVE_RESTART (R508): an update that the seal still allows is completed, and the firmware restarts on the new image. -/
def Fab.enclaveRestart (f : Fab) : Fab :=
  match f.umx.upd with
  | none => f
  | some src =>
    let m := f.mgmt
    let old := toBytes (f.get Reg.UMX_FWVER_VERSION) 4
    let oldDig := ((List.range 8).map (fun i => toBytes (f.get (Reg.UMX_FWDIGEST_DIGEST i)) 8)).flatten
    let svn := m.flashNum (src + 4) 4
    let newDig := sha (m.header src ++ m.flashBytes (src + 0x2000) (m.flashNum (src + 16) 4))
    let f := (f.umxProgram src).updUmx (fun u => { u with upd := none })
    let f := ((f.umxLogEvent (old ++ toBytes (m.flashNum (src + 8) 4) 4)).umxLogEvent oldDig).umxLogEvent newDig
    let f := f.umxSeal.umxStart
    let f := f.updUmx (fun u => { u with
      flags := u.flags ||| 128
      otp := (List.range 3).foldl (fun o c => burnRow o (112 + c) (2 ^ min svn 64 - 1)) u.otp })
    f.umxRespond 2 0

/-- A partition is created: its account takes the next PINST, and the interval ends early (R513). -/
def Fab.umxCreated (f : Fab) (p : Nat) : Fab :=
  let n := f.umx.pinst + 1
  (f.updUmx (fun u => { u with pinst := n % 2 ^ 32, short := true })).updAcct p (fun a => { a with
    pinst := n % 2 ^ 32, valid := true })

/-- A partition is destroyed: the interval ends early. -/
def Fab.umxDestroyed (f : Fab) : Fab := f.updUmx (fun u => { u with short := true })

/-! ### The meanings -/

/-- UMX_SAMPLE. -/
def execUmxSample (i0 v0 i1 v1 : Int) (s : State) : Host.Outcome State Fault Refusal :=
  .next { s with fab := s.fab.whenLive (fun f => f.umxSample i0 v0 i1 v1) }

/-- UMX_MILLISECOND. -/
def execUmxMillisecond (act : List (Nat × Nat × Nat)) (s : State) : Host.Outcome State Fault Refusal :=
  if act.length = 24 then .next { s with fab := s.fab.whenLive (fun f => f.umxMs act) } else .refused .noSuchUnit

/-- UMX_CHECKPOINT. -/
def execUmxCheckpoint (s : State) : Host.Outcome State Fault Refusal := .next { s with fab := s.fab.whenLive (fun f => f.umxCheckpoint) }

/-- USAGE_RECORD. -/
def execUsageRecord (s : State) : Host.Outcome State Fault Refusal := .next { s with fab := s.fab.whenLive (fun f => f.usageRecord) }

/-- TIMEBASE_CHECK. -/
def execTimebaseCheck (n : Nat) (s : State) : Host.Outcome State Fault Refusal :=
  .next { s with fab := s.fab.whenLive (fun f => f.timebaseCheck n) }

/-- SEAL_SAMPLE. -/
def execSealSample (open_ : Bool) (s : State) : Host.Outcome State Fault Refusal :=
  .next { s with fab := s.fab.sealSample open_ }

/-- SET_INTERVAL by the master of a code. -/
def execSetInterval (m : Nat) (arg : BitVec 32) (s : State) : Host.Outcome State Fault Refusal :=
  byMaster m Reg.UMX_REQ (fun f x => f.umxReq x 1 arg.toNat) s

/-- UPDATE by the master of a code. -/
def execUpdate (m : Nat) (arg : BitVec 32) (s : State) : Host.Outcome State Fault Refusal :=
  byMaster m Reg.UMX_REQ (fun f x => f.umxReq x 2 arg.toNat) s

/-- ENCLAVE_RESTART. -/
def execEnclaveRestart (s : State) : Host.Outcome State Fault Refusal := .next { s with fab := s.fab.whenLive (fun f => f.enclaveRestart) }

end Sys2Proof.Machine
end

