-- ==== Sys2Proof/Machine/Power.lean ====
section
/-! DEFINITION. Power states, clocks, wake, heat and droop (spec/19), sensors (R486). -/

namespace Sys2Proof.Machine

/-- The fabric with the power state changed. -/
def Fab.updPwr (f : Fab) (g : Pwr → Pwr) : Fab := { f with pwr := g f.pwr }

/-! ### Blocks (R556, R557) -/

/-- Every bank field of a block. -/
def blockBanks (b : Nat) : List Fld := ((List.range 9).map (bstateFlds false b)).flatten

/-- Set every bank of a block to a state; a transition in progress ends. -/
def Fab.banksTo (f : Fab) (b st : Nat) : Fab :=
  (blockBanks b).foldl (fun g x => { g.set x st with breq := Store.set 0 g.breq x.key 0 }) f

/-- Does any block of an ECLK group hold its PLL running (R554)? -/
def Fab.groupRuns (f : Fab) (g : Nat) : Bool :=
  (List.range 24).any (fun b => eclkGroup b == g &&
    (2 ≤ f.get (Reg.PWR_BLOCK_STATE b) || (f.bit (Reg.PWR_BLOCK_BUSY b) && 2 ≤ f.get (Reg.PWR_BLOCK_REQ b))))

/-- Show whether the PLL of a block's group is locked. -/
def Fab.groupLock (f : Fab) (b : Nat) : Fab :=
  let g := eclkGroup b
  f.set (Reg.PWR_ECLK_LOCKED g) (b2n (f.groupRuns g && !f.pwr.pll.contains g))

/-- Blank every bank that is OFF, as a block that returns to ON fills it (R254, R256). -/
def Fab.fillOff (f : Fab) (b : Nat) : Fab := (blockBanks b).foldl (fun g x => if g.get x = 0 then g.zeroBank x else g) f

/-- A block reaches a power state (R256, R556): 0 OFF, 1 RETENTION, 2 CLOCK_GATED, 3 ON. A transition raises PWR_STATE while
STIRQ is 1 (R557). -/
def Fab.blockGo (f : Fab) (b st : Nat) : Fab :=
  let old := f.get (Reg.PWR_BLOCK_STATE b)
  let f := if st = 0 then ((f.zeroBlock b).resetEngines b).banksTo b 0
    else if st = 1 then (f.fillOff b).banksTo b 1
    else if old ≤ 1 then (f.fillOff b).banksTo b 2
    else f
  let f := (f.set (Reg.PWR_BLOCK_STATE b) st).groupLock b
  if st ≠ old && f.bit Reg.PWR_STAT_STIRQ then f.raise 16 true else f

/-- A write of PWR.BLOCK(b).REQ (R556, R557). -/
def Fab.blockReq (f : Fab) (m : Master) (b v : Nat) : Fab :=
  if m.code ≠ 0 then f
  else
    let idle := (List.range 8).all (fun j => !(f.unitPart b).any (fun p => f.activeIn p (8 * b + j)))
    if v ≠ 3 && (f.unitPart b).any f.runs && !(v = 2 && idle) then f.set Reg.PWR_STAT_REQERR 1
    else
      let f := f.set (Reg.PWR_BLOCK_REQ b) v
      f.set (Reg.PWR_BLOCK_BUSY b) (b2n (f.get (Reg.PWR_BLOCK_STATE b) ≠ v))

/-- BLOCK_TRANSITION_COMPLETE. -/
def Fab.blockDone (f : Fab) (b : Nat) : Fab :=
  if f.bit (Reg.PWR_BLOCK_BUSY b) then (f.set (Reg.PWR_BLOCK_BUSY b) 0).blockGo b (f.get (Reg.PWR_BLOCK_REQ b)) else f

/-- Management firmware sets a block to a power state, request and state alike (R378, R391, R393). -/
def Fab.blockSet (f : Fab) (b st : Nat) : Fab :=
  ((f.set (Reg.PWR_BLOCK_REQ b) st).set (Reg.PWR_BLOCK_BUSY b) 0).blockGo b st

/-! ### Clocks (R555) -/

/-- The limit of option word 1 (R472), in 10 MHz. -/
def Fab.eclkMax (f : Fab) : Nat := if f.mgmt.opts = [] then 160 else f.mgmt.opts.getD 1 160 % 256

/-- A write of PWR.ECLK(g).FREQ (R555): the ACTIVE ports of the group's owners leave ACTIVE for PIN (R324). -/
def Fab.eclkWrite (f : Fab) (m : Master) (g v : Nat) : Fab :=
  let busy := (List.range 24).any (fun b => eclkGroup b == g && (f.unitPart b).any (fun p => f.st p ≠ 0 && f.st p ≠ 5))
  let v := if v < 40 then 40 else min v f.eclkMax
  if m.code ≠ 0 then f
  else if busy then f.set Reg.PWR_STAT_REQERR 1
  else if v = f.get (Reg.PWR_ECLK_FREQ g) then f
  else
    let f := (f.set (Reg.PWR_ECLK_FREQ g) v).set (Reg.PWR_ECLK_LOCKED g) 0
    let f := f.updPwr (fun x => { x with pll := if x.pll.contains g then x.pll else g :: x.pll })
    let owners := (List.range 8).filter (fun p => (f.blocks p).any (fun b => eclkGroup b == g))
    ((List.range 16).filter (fun c => (f.portPart c).any (fun p => owners.contains p))).foldl
      (fun h c => if h.portActive c then (h.leaveActive c lsPin).parentLost c else h) f

/-- ECLK_PLL_LOCK (R555). -/
def Fab.pllLock (f : Fab) (g : Nat) : Fab :=
  if f.pwr.pll.contains g then
    let f := f.updPwr (fun x => { x with pll := x.pll.filter (· ≠ g) })
    f.set (Reg.PWR_ECLK_LOCKED g) (b2n (f.groupRuns g))
  else f

/-! ### Sleep (R545–R552) -/

/-- The bits of PWR.WAKE_EN that a target state honours (R552). -/
def honoured (target : Nat) : Nat := if target = 2 then 0x1F0000F0 else 0x3FFFFFFF

/-- Write PWR.SLEEP_STATUS; each change raises PWR_STATE (R561). -/
def Fab.sleepStatus (f : Fab) (v : Nat) : Fab :=
  if f.get Reg.PWR_SLEEP_STATUS_STATUS = v then f else (f.set Reg.PWR_SLEEP_STATUS_STATUS v).raise 16 true

/-- Is a request for a target refused, and how (R550)? -/
def Fab.sleepRefused (f : Fab) (target : Nat) : Option Nat :=
  let parts := List.range 8
  if target = 0 || 3 ≤ target || parts.any (fun p => f.st p ≠ 0 && f.st p ≠ 5) ||
      !(List.range 32).all (fun k => f.bit (Reg.DMA_CH_STAT_QUIESCE k)) ||
      (List.range 4).any (fun n => f.bit (Reg.MGMT_MBX_STAT_BUSY n)) || f.anyWiping ||
      (target = 2 && parts.any (fun p => f.bit (Reg.HP_PCFG_VALID p))) then some 4
  else if (f.reg Reg.PWR_WAKE_EN).toNat &&& honoured target = 0 then some 5
  else none

/-- SLEEP_REQUEST: a write of PWR.SLEEP by a master. -/
def Fab.sleepReq (f : Fab) (m : Master) (v : Word) : Fab :=
  if m.code ≠ 0 || !v.getLsbD 2 || f.pwr.st ≠ 3 then f
  else
    match f.sleepRefused (fget v 0 2) with
    | some k => f.sleepStatus k
    | none => f.updPwr (fun x => { x with req := some (fget v 0 2) })

/-- STANDBY entry (R546). -/
def Fab.standby (f : Fab) : Fab :=
  let f := (List.range 16).foldl (fun g c => g.linkEn c false) f
  let f := (List.range 24).foldl (fun g b => g.blockGo b (if (g.unitPart b).isSome then 1 else 0)) f
  let f := (List.range 6).foldl (fun g x => g.set (Reg.PWR_ECLK_LOCKED x) 0) f
  (f.set Reg.PWR_STAT_DSTATE 2).updPwr (fun x => { x with st := 2 })

/-- DORMANT entry (R548), after STANDBY entry. -/
def Fab.dormant (f : Fab) : Fab :=
  let f := f.sealLog.umxCheckpoint
  let f := f.vaultWipe 0
  let f := (List.range 24).foldl (fun g b => g.blockGo b 0) f
  let f := f.drivePin 1 f.pwr.slpN true
  { f with
    pwr := { f.pwr with st := 1, slpN := true }
    dam := { f.dam with started := false }
    mgmt := { f.mgmt with running := false } }

/-- SLEEP_COMMIT: the first XTAL32 edge after an accepted request (R551). -/
def Fab.sleepCommit (f : Fab) : Fab :=
  match f.pwr.req with
  | none => f
  | some t =>
    let f := f.updPwr (fun x => { x with req := none })
    if (f.reg Reg.PWR_WAKE_STAT).toNat &&& (f.reg Reg.PWR_WAKE_EN).toNat &&& honoured t ≠ 0 then
      (f.sleepStatus 3).raise 14 true
    else
      let f := (f.sleepStatus 1).standby
      if t = 2 then f.dormant else f

/-- STANDBY exit (R547). -/
def Fab.standbyExit (f : Fab) : Fab :=
  let f := f.updPwr (fun x => { x with st := 3, pll := [] })
  let f := f.set Reg.PWR_STAT_DSTATE 3
  let f := (List.range 24).foldl (fun g b => (g.set (Reg.PWR_BLOCK_BUSY b) 0).blockGo b (g.get (Reg.PWR_BLOCK_REQ b))) f
  (f.deliverLatched.raise 14 true).sleepStatus 2

/-- The kinds of wake event (R552), with their bits of PWR.WAKE_STAT: HOST n, PERST n, LINK p, GPIO i, TIMER, ISC. -/
def wakeBit (kind i : Nat) : Option Nat :=
  if kind = 0 && i < 4 then some i
  else if kind = 1 && i < 4 then some (4 + i)
  else if kind = 2 && i < 16 then some (8 + i)
  else if kind = 3 && i < 4 then some (24 + i)
  else if kind = 4 && i = 0 then some 28
  else if kind = 5 && i = 0 then some 29
  else none

/-- WAKE_EVENT (R552): an enabled wake event that the state honours is recorded, and ends STANDBY or DORMANT. Link signalling
counts in STANDBY, with LINK.CTL.WAKEEN set; in ACTIVE it is the WAKE flit that counts (R553). A GPIO event shows the level that
PWR.GPIOWAKE selects. -/
def Fab.wakeEvent (f : Fab) (kind i bit : Nat) : Fab :=
  let f := if kind = 3 then f.set ⟨Reg.PWR_GPIOWAKE, 4 + i, 1⟩ (f.get ⟨Reg.PWR_GPIOWAKE, i, 1⟩) else f
  let heard := if f.pwr.st = 3 then kind ≠ 2 else if f.pwr.st = 2 then kind ≠ 2 || f.bit (Reg.LINK_CTL_WAKEEN i)
    else f.pwr.st = 1 && (honoured 2).testBit bit
  let ok := heard && (f.get ⟨Reg.PWR_WAKE_EN, bit, 1⟩ == 1) && (kind ≠ 5 || f.get Reg.ISC_WAKECTL_PEND ≠ 0)
  if !ok then f
  else
    let f := f.set ⟨Reg.PWR_WAKE_STAT, bit, 1⟩ 1
    if f.pwr.st = 2 then f.standbyExit
    else if f.pwr.st = 1 then { f.drivePin 1 f.pwr.slpN false with pwr := { f.pwr with slpN := false, rails := 2 } }
    else f

/-- LINKWAKE: a write of PWR.LINKWAKE by a master (R553). -/
def Fab.linkWake (f : Fab) (m : Master) (v : Nat) : Fab :=
  if m.code ≠ 0 then f
  else ((List.range 16).filter (fun c => v.testBit c)).foldl (fun g c =>
    if g.portActive c then g.emit (.flit c (rsEncode 0x3E)) else g.emit (.linkWake c)) f

/-! ### Sensors, heat and droop (R486, R558, R559) -/

/-- Is any alarm bit of the sensor hub set? -/
def Fab.anyAlarm (f : Fab) : Bool :=
  f.bit Reg.MGMT_SCTL_ALERTEN &&
    ((List.range 56).any (fun i => f.bit (Reg.MGMT_TEMP_WARN i) || f.bit (Reg.MGMT_TEMP_CRIT i)) ||
      (List.range 32).any (fun i => f.bit (Reg.MGMT_VMON_LOW i) || f.bit (Reg.MGMT_VMON_HIGH i)))

/-- The alarm level may have changed since `before`: SENSOR_ALERT and ALERT_N follow. -/
def Fab.alarmSync (f : Fab) (before : Bool) : Fab :=
  let now := f.anyAlarm
  let f := if before = now then f else f.raise 9 now
  f.alert (now || f.bit Reg.DEV_BOOTSTAT_FAILED)

/-- The blocks of a held share stand gated while the hold lasts, once its handlers have returned (R558). -/
def Fab.gateHeld (f : Fab) : Fab :=
  (List.range 8).foldl (fun g p =>
    if g.bit Reg.PWR_THERM_HOLDING && g.st p = 3 && g.bit (Reg.SQ_CTL_HOLDREQ p) && g.handlersDone p then
      (g.blocks p).foldl (fun h b => if h.get (Reg.PWR_BLOCK_STATE b) = 3 then h.blockGo b 2 else h) g
    else g) f

/-- A sensor reads above CRIT while holds are enabled: every running share is asked to hold, and a hold begins unless one is in
force (R558). -/
def Fab.thermHold (f : Fab) : Fab :=
  let f := (List.range 8).foldl (fun g p => if g.runs p then g.set (Reg.SQ_CTL_HOLDREQ p) 1 else g) f
  if f.bit Reg.PWR_THERM_HOLDING then f
  else ((f.set Reg.PWR_THERM_HOLDING 1).stick Reg.PWR_THERM_HOLDS 1).raise 15 true

/-- SENSOR_SAMPLE: the hub samples 56 thermal sensors and 32 voltage monitors (R486). -/
def Fab.sensorSample (f : Fab) (ts : List (BitVec 12)) (vs : List (BitVec 12)) : Fab :=
  let before := f.anyAlarm
  let warn := f.get Reg.MGMT_TLIMIT_WARN
  let crit := f.get Reg.MGMT_TLIMIT_CRIT
  let t (i : Nat) : BitVec 12 := ts.getD i 0
  let above (i lim : Nat) : Bool := ((8 * lim : Nat) : Int) < (t i).toInt
  let f := (List.range 56).foldl (fun g i =>
    let g := g.set (Reg.MGMT_TEMP_VALUE i) (t i).toNat
    let g := if above i warn then g.set (Reg.MGMT_TEMP_WARN i) 1 else g
    if above i crit then g.set (Reg.MGMT_TEMP_CRIT i) 1 else g) f
  let f := (List.range 32).foldl (fun g i =>
    let v := (vs.getD i 0).toNat
    let g := g.set (Reg.MGMT_VMON_MV i) v
    let g := if v < g.get (Reg.MGMT_VMON_LO i) then g.set (Reg.MGMT_VMON_LOW i) 1 else g
    if g.get (Reg.MGMT_VMON_HI i) < v then g.set (Reg.MGMT_VMON_HIGH i) 1 else g) f
  let f := f.alarmSync before
  let cool := (List.range 56).all (fun i =>
    (t i).toInt < ((8 * warn : Nat) : Int) - ((8 * f.get Reg.PWR_THERM_HYST : Nat) : Int))
  let f := f.updPwr (fun x => { x with below := if cool then min (x.below + 1) 10 else 0 })
  let f := if f.bit Reg.PWR_THERM_HOLDEN && (List.range 56).any (fun i => above i crit) then f.thermHold else f
  f.gateHeld

/-- THERMAL_RELEASE (R558), at ECLK `now`: the hold ends. -/
def Fab.thermRelease (f : Fab) (now : Nat) : Fab :=
  if f.bit Reg.PWR_THERM_HOLDING && f.pwr.below = 10 then
    let f := f.set Reg.PWR_THERM_HOLDING 0
    let f := (List.range 8).foldl (fun g p =>
      if g.bit (Reg.SQ_CTL_HOLDREQ p) then
        let g := (g.blocks p).foldl (fun h b => if h.get (Reg.PWR_BLOCK_STATE b) = 2 && h.get (Reg.PWR_BLOCK_REQ b) = 3
          then h.blockGo b 3 else h) g
        g.sqHoldreq p false now
      else g) f
    f.raise 15 true
  else f

/-- DROOP_EVENT of block `b` (R559): `recent` says that ECLK was stretched within the last 64 ECLK. -/
def Fab.droop (f : Fab) (b : Nat) (recent : Bool) : Fab :=
  let f := f.stick (Reg.MGMT_DROOP_COUNT b) 1
  if f.bit Reg.PWR_DROOPCTL_STRETCH && !(List.range 8).any f.lockMode then
    (if recent then f else f.stick Reg.PWR_DROOPCTL_STRETCHES 1)
  else f.set Reg.PWR_AVS_RAISE 1

/-! ### The meanings -/

/-- Run an operation on a block. -/
def onBlock (b : Nat) (g : Fab → Fab) (s : State) : Host.Outcome State Fault Refusal :=
  if b < 24 then .next { s with fab := s.fab.whenActive g } else .refused .noSuchUnit

/-- SLEEP_REQUEST by the master of a code. -/
def execSleepRequest (m : Nat) (v : Word) (s : State) : Host.Outcome State Fault Refusal :=
  byMaster m Reg.PWR_SLEEP (fun f x => f.sleepReq x v) s

/-- SLEEP_COMMIT. -/
def execSleepCommit (s : State) : Host.Outcome State Fault Refusal := .next { s with fab := s.fab.sleepCommit }

/-- WAKE_EVENT of a kind and number. -/
def execWakeEvent (kind i : Nat) (s : State) : Host.Outcome State Fault Refusal :=
  match wakeBit kind i with
  | some b => .next { s with fab := s.fab.wakeEvent kind i b }
  | none => .refused .noSuchUnit

/-- LINKWAKE by the master of a code. -/
def execLinkwake (m : Nat) (v : BitVec 16) (s : State) : Host.Outcome State Fault Refusal :=
  byMaster m Reg.PWR_LINKWAKE (fun f x => f.linkWake x v.toNat) s

/-- ECLK_FREQ_WRITE by the master of a code. -/
def execEclkFreqWrite (m g : Nat) (v : BitVec 8) (s : State) : Host.Outcome State Fault Refusal :=
  if g < 6 then byMaster m (Reg.PWR_ECLK g) (fun f x => f.eclkWrite x g v.toNat) s else .refused .noSuchUnit

/-- ECLK_PLL_LOCK. -/
def execEclkPllLock (g : Nat) (s : State) : Host.Outcome State Fault Refusal :=
  if g < 6 then .next { s with fab := s.fab.whenActive (fun f => f.pllLock g) } else .refused .noSuchUnit

/-- BLOCK_REQ_WRITE by the master of a code. -/
def execBlockReqWrite (m b : Nat) (v : BitVec 2) (s : State) : Host.Outcome State Fault Refusal :=
  if b < 24 then byMaster m (Reg.PWR_BLOCK b) (fun f x => f.blockReq x b v.toNat) s else .refused .noSuchUnit

/-- BLOCK_TRANSITION_COMPLETE. -/
def execBlockTransitionComplete (b : Nat) (s : State) : Host.Outcome State Fault Refusal := onBlock b (fun f => f.blockDone b) s

/-- SENSOR_SAMPLE. -/
def execSensorSample (ts vs : List (BitVec 12)) (s : State) : Host.Outcome State Fault Refusal :=
  if ts.length = 56 && vs.length = 32 then .next { s with fab := s.fab.whenLive (fun f => f.sensorSample ts vs) } else .refused .noSuchUnit

/-- THERMAL_RELEASE. -/
def execThermalRelease (now : Nat) (s : State) : Host.Outcome State Fault Refusal :=
  .next { s with fab := s.fab.whenActive (fun f => f.thermRelease now) }

/-- DROOP_EVENT. -/
def execDroopEvent (b : Nat) (recent : Bool) (s : State) : Host.Outcome State Fault Refusal :=
  onBlock b (fun f => f.droop b recent) s

end Sys2Proof.Machine
end

