-- ==== Sys2Proof/Machine/Mailbox.lean ====
section
/-! DEFINITION. The management mailboxes and the commands of the host driver (spec/12): partitions are queried, created,
equipped and destroyed. Management firmware serves the requests one at a time, in the order of their doorbells (R386). -/

namespace Sys2Proof.Machine

/-- The fabric with the mailboxes changed. -/
def Fab.updMbx (f : Fab) (g : Mbx → Mbx) : Fab := { f with mbx := g f.mbx }

/-- Does management firmware run: it has started, and the Damson core is not halted (R537)? -/
def Fab.fwUp (f : Fab) : Bool := f.mgmt.running && !f.bit Reg.DBG_DSTAT_HALTED

/-- Did port `n` accept a feature (R379)? -/
def Fab.accepted (f : Fab) (n bit : Nat) : Bool := (f.get (Reg.DEV_FEAT_ACCEPT_ACCEPT n)).testBit bit

/-! ### Requests and responses (R385–R388) -/

/-- Fields of a request: OPCODE, SEQ, LENGTH, the reserved header bits, and `w` bits of the payload from byte `i`. -/
def rqOp (r : Nat) : Nat := natBits r 0 8
def rqSeq (r : Nat) : Nat := natBits r 8 8
def rqLen (r : Nat) : Nat := natBits r 16 16
def rqRsv (r : Nat) : Nat := natBits r 32 32
def rqBits (r i w : Nat) : Nat := natBits r (64 + 8 * i) w

/-- The header of a request is sound, and its payload has `len` bytes. -/
def rqForm (r len : Nat) : Bool := rqRsv r == 0 && rqLen r == len

/-- The opcodes of the mailbox (R388, R538). -/
def rqKnown (op : Nat) : Bool := (1 ≤ op && op ≤ 6) || (0x10 ≤ op && op ≤ 0x17)

/-- The words that a list of bytes fills. -/
def bytesWords (l : List Nat) : List Word := (List.range ((l.length + 7) / 8)).map (fun i => w64 (ofBytes ((l.drop (8 * i)).take 8)))

/-- Put a response of a request in MBX_RSP of its port, and tell the host (R385, R387). -/
def Fab.putResponse (f : Fab) (n req status part : Nat) (payload : List Nat) : Fab :=
  let hdr := rqOp req + rqSeq req * 2 ^ 8 + status * 2 ^ 16 + part * 2 ^ 24 + payload.length * 2 ^ 32
  let ws := w64 hdr :: bytesWords payload
  let f := f.updMbx (fun m => { m with
    rsp := (List.range ws.length).foldl (fun r i => Store.set 0 r (128 * n + i) (ws.getD i 0)) m.rsp })
  let f := (f.set (Reg.MGMT_MBX_STAT_DONE n) 1).set (Reg.MGMT_MBX_STAT_SEQ n) (rqSeq req)
  if f.bit (Reg.MGMT_MBX_CTL_IRQEN n) then f.sendMsix n 255 else f

/-- The request at the head completes. A response that a reset of the port has overtaken is discarded (R374). -/
def Fab.respond (f : Fab) (status part : Nat) (payload : List Nat) : Fab :=
  match f.mbx.queue with
  | [] => f
  | (n, req, gone) :: t =>
    let f := f.updMbx (fun m => { m with queue := t, job := none })
    if gone then f else (f.set (Reg.MGMT_MBX_STAT_BUSY n) 0).putResponse n req status part payload

/-- Requests with an opcode that the table does not list complete with BAD_REQUEST as they reach the head. -/
def Fab.mbxDrain (f : Fab) : Nat → Fab
  | 0 => f
  | fuel + 1 =>
    match f.mbx.queue with
    | (_, req, _) :: _ => if f.fwUp && !rqKnown (rqOp req) then (f.respond 1 0 []).mbxDrain fuel else f
    | [] => f

/-- Serve the head when it is a request of port `n` with opcode `op` and nothing waits: `g` is given the request. -/
def Fab.serve (f : Fab) (n op : Nat) (g : Fab → Nat → Fab) : Fab :=
  let f := f.mbxDrain f.mbx.queue.length
  match f.mbx.queue with
  | (k, req, _) :: _ =>
    if f.fwUp && f.mbx.job.isNone && k == n && rqOp req == op then
      let f := g f req
      f.mbxDrain f.mbx.queue.length
    else f
  | [] => f

/-- The number that the request buffer of a port spells. -/
def Fab.reqBuf (f : Fab) (n : Nat) : Nat :=
  (List.range 128).foldl (fun v i => v + 2 ^ (64 * i) * (Store.get 0 f.mbx.req (128 * n + i)).toNat) 0

/-- DOORBELL: a write of MGMT.MBX_CTL of port `n` (R385); it is discarded in the failed state (R467). -/
def Fab.doorbell (f : Fab) (n : Nat) (v : Word) : Fab :=
  let f := f.set (Reg.MGMT_MBX_CTL_IRQEN n) (fget v 1 1)
  if !v.getLsbD 0 || f.bit (Reg.MGMT_MBX_STAT_BUSY n) || f.bit Reg.DEV_BOOTSTAT_FAILED then f
  else
    let f := f.set (Reg.MGMT_MBX_STAT_BUSY n) 1
    let f := f.updMbx (fun m => { m with queue := m.queue ++ [(n, f.reqBuf n, false)] })
    if f.mbx.job.isNone then f.mbxDrain f.mbx.queue.length else f

/-! ### QUERY (R388) -/

/-- The partitions bound to a port, in increasing number. -/
def Fab.bound (f : Fab) (n : Nat) : List Nat := (List.range 8).filter (fun p => (f.get (Reg.HP_BIND_PARTS n)).testBit p)

/-- QUERY. -/
def Fab.mbxQuery (f : Fab) (n req : Nat) : Fab :=
  if rqForm req 0 then f.respond 0 0 ((f.bound n).map (fun p => toBytes (f.reg (Reg.HP_PCFG p)).toNat 8)).flatten
  else f.respond 1 0 []

/-! ### CREATE (R390, R391) -/

/-- The routers that a row-then-column route from one block to another passes. -/
def routeBlocks (a b : Nat) : List Nat := (routeOf a b 0).map (fun x => x.1)

/-- Do a set of blocks and ports meet R306? -/
def routesOk (blocks ports : List Nat) : Bool :=
  blocks.all (fun a => blocks.all (fun b => (routeBlocks a b).all blocks.contains)) &&
    ports.all (fun c => blocks.contains (portRouter c))

/-- The blocks, ports, channels and active engines that a CREATE names. -/
def crBlocks (r : Nat) : List Nat := (List.range 24).filter (fun b => (rqBits r 0 32).testBit b)
def crPorts (r : Nat) : List Nat := (List.range 16).filter (fun c => (rqBits r 4 16).testBit c)
def crChans (r : Nat) : List Nat := (List.range 32).filter (fun k => (rqBits r 8 32).testBit k)
def crActive (r b : Nat) : Nat := rqBits r (12 + b) 8
def crDx48 (r : Nat) : Bool := (rqBits r 6 8).testBit 1
def crCt (r : Nat) : Bool := (rqBits r 6 8).testBit 0

/-- Are the blocks one run along a row (R383)? -/
def oneRow (blocks : List Nat) : Bool :=
  match blocks with
  | [] => false
  | b0 :: _ => blocks == (List.range blocks.length).map (fun i => b0 + i) && b0 % 6 + blocks.length ≤ 6

/-- Length and fields of a CREATE. -/
def crForm (r : Nat) : Bool :=
  rqForm r 36 && rqBits r 3 8 == 0 && rqBits r 0 32 ≠ 0 && rqBits r 6 8 < 4 && rqBits r 7 8 == 0 &&
    (List.range 24).all (fun b => (crActive r b ≠ 0) == (crBlocks r).contains b) && (!crDx48 r || oneRow (crBlocks r))

/-- The status that a CREATE earns, 0 when every check passes (R391). -/
def Fab.crStatus (f : Fab) (n r : Nat) : Nat :=
  if !crForm r then 1
  else if !f.accepted n 0 || (crDx48 r && !f.accepted n 6) || (crCt r && !f.accepted n 7) ||
      (crPorts r ≠ [] && !f.accepted n 8) then 2
  else if (List.range 8).all (fun p => f.bit (Reg.HP_PCFG_VALID p)) then 6
  else if (crBlocks r).any (fun b => f.get (Reg.MEM_OWNER_OWN b) ≠ 8) ||
      (crPorts r).any (fun c => f.get (Reg.MEM_OWNER_OWN (24 + c)) ≠ 8) ||
      (crChans r).any (fun k => (f.chanPart k).isSome) then 3
  else if !routesOk (crBlocks r) (crPorts r) then 4
  else 0

/-- The device address of a vault slot; slot 8 holds the management key (R485). -/
def vaultSlot (k : Nat) : Nat := 0x0300200000 + 64 * k

/-- Write 64 bytes of the vault. -/
def Fab.vaultPut (f : Fab) (a v : Nat) : Fab :=
  (List.range 4).foldl (fun g i => g.putWord (a / 16 + i) (natBits v (128 * i) 128)) f

/-- Draw a key pair: again while both halves are equal (R394), at most `fuel` times. -/
def Fab.drawPair (f : Fab) : Nat → Nat × Fab
  | 0 => (Config.entropy f.fresh % 2 ^ 512, { f with fresh := f.fresh + 1 })
  | fuel + 1 =>
    let k := Config.entropy f.fresh % 2 ^ 512
    let f : Fab := { f with fresh := f.fresh + 1 }
    if natBits k 0 256 = natBits k 256 256 then f.drawPair fuel else (k, f)

/-- Key slot `k` takes a fresh key: the vault's bytes, and the working copies in the DDR ports. -/
def Fab.newKey (f : Fab) (k : Nat) : Fab :=
  let r := f.drawPair 64
  let f := r.2.vaultPut (vaultSlot k) r.1
  { f with keys := Store.set 0 f.keys k (f.fresh + 1), pairs := Store.set 0 f.pairs (f.fresh + 1) r.1, fresh := f.fresh + 1 }

/-- Does source `s` follow the creation or destruction of partition `p` with DMA channels `ch` (R427)? -/
def Fab.sourceOf (f : Fab) (p : Nat) (ch : List Nat) (s : Nat) : Bool :=
  if 81 ≤ s && s ≤ 112 then ch.contains (s - 81)
  else !f.bit (Reg.ISC_SCFG_DEV s) && f.get (Reg.ISC_SCFG_OWNER s) == p

/-- The DMA channels' sources take an owner: partition `p`, or the device (R425, R403). -/
def Fab.chanOwner (f : Fab) (ch : List Nat) (p : Option Nat) : Fab :=
  ch.foldl (fun g k =>
    let s := 81 + k
    match p with
    | some q => (((g.set (Reg.ISC_SCFG_DEV s) 0).set (Reg.ISC_SCFG_OWNER s) q).setReg (Reg.ISC_SMASK s 3) 0)
    | none => g.setReg (Reg.ISC_SCFG s) (regReset (Reg.ISC_SCFG s))) f

/-- The SQ registers of a partition return to their reset values. -/
def Fab.sqReset (f : Fab) (p : Nat) : Fab :=
  { f with
    regs := f.regs.filter (fun c => !(Reg.SQ_CTL p ≤ c.1 && c.1 < Reg.SQ_CTL p + 0x1000))
    sh := Store.set Share.reset f.sh p Share.reset }

/-- Perform a CREATE as partition `p` (R391). -/
def Fab.create (f : Fab) (n p r : Nat) : Fab :=
  let f := (crBlocks r).foldl (fun g b => g.ownerWrite false b p) f
  let f := (crPorts r).foldl (fun g c => g.ownerWrite false (24 + c) p) f
  let f := f.set (Reg.HP_PDMA_CH p) (rqBits r 8 32)
  let f := (f.resetSources (f.sourceOf p (crChans r))).chanOwner (crChans r) (some p)
  let f := f.newKey p
  -- every engine has its registers at reset values (R43, R391), also in a block that was held ON
  let f := (crBlocks r).foldl (fun g b => (g.blockSet b 3).resetEngines b) f
  let f := (f.set (Reg.HP_PCFG_VALID p) 1).set (Reg.HP_PCFG_PORT p) n
  let f := (f.set (Reg.HP_PCFG_CT p) (b2n (crCt r))).set (Reg.HP_PCFG_DX48 p) (b2n (crDx48 r))
  let f := f.set (Reg.HP_PCFG_FEAT p) (f.get (Reg.DEV_FEAT_ACCEPT_ACCEPT n))
  let f := (List.range 3).foldl (fun g i => g.setReg (Reg.HP_PACTIVE p i) (w64 (rqBits r (12 + 8 * i) 64))) f
  let f := (f.set (Reg.HP_PRES_BLOCKS p) (rqBits r 0 24)).set (Reg.HP_PRES_PORTS p) (rqBits r 4 16)
  let f := f.sqReset p
  let f := if crDx48 r then
      (((crBlocks r).map (fun b => (List.range 8).map (fun j => 8 * b + j))).flatten).foldl
        (fun g e => g.updEng e (fun x => x.set Ecs.MODE_DX48 1)) (f.set (Reg.SQ_CTL_RUNMODE p) 1)
    else f
  let f := f.set (Reg.HP_BIND_PARTS n) (f.get (Reg.HP_BIND_PARTS n) ||| 2 ^ p)
  (f.umxCreated p).portEvent n 0

/-- CREATE. Its key waits for a vault wipe to end (R262). -/
def Fab.mbxCreate (f : Fab) (n r : Nat) : Fab :=
  if f.crStatus n r ≠ 0 then f.respond (f.crStatus n r) 0 []
  else if f.bit Reg.MEM_VAULT_WIPING then f
  else
    let p := ((List.range 8).find? (fun p => !f.bit (Reg.HP_PCFG_VALID p))).getD 0
    (f.create n p r).respond 0 p []

/-! ### Waiting for wipes (R389, R393) -/

/-- The DMA channels and ISC sources of a destroyed partition are freed once its channels are quiet (R418). -/
def Fab.freeParts (f : Fab) (p : Nat) : Fab :=
  let ch := (List.range 32).filter (fun k => (f.get (Reg.HP_PDMA_CH p)).testBit k)
  let f := (f.resetSources (f.sourceOf p ch)).chanOwner ch none
  let f := (f.setReg (Reg.HP_PDMA p) 0).setReg (Reg.HP_PCFG p) 0
  let f := (List.range 3).foldl (fun g i => g.setReg (Reg.HP_PACTIVE p i) 0) f
  f.setReg (Reg.HP_PRES p) 0

/-- Are the DMA channels of a partition quiet? -/
def Fab.chansQuiet (f : Fab) (p : Nat) : Bool :=
  (List.range 32).all (fun k => !(f.get (Reg.HP_PDMA_CH p)).testBit k || f.bit (Reg.DMA_CH_STAT_QUIESCE k))

/-- The request that waits goes on: channels and sources are freed, freed blocks power off, and the response is written once
nothing is WIPING. -/
def Fab.mbxAdvance (f : Fab) : Fab :=
  match f.mbx.job with
  | none => f
  | some j =>
    let f := match j.part with
      | some p =>
        let f := if f.bit (Reg.HP_PCFG_VALID p) && f.chansQuiet p then f.freeParts p else f
        (j.units.filter (fun u => !u.1 && u.2 < 24)).foldl (fun g u =>
          if g.get (Reg.MEM_OWNER_OWN u.2) = 8 && g.get (Reg.PWR_BLOCK_STATE u.2) ≠ 0 then g.blockSet u.2 0 else g) f
      | none => f
    if j.units.any (fun u => f.get (ownFld u.1 u.2) == 9) || j.part.any (fun p => f.bit (Reg.HP_PCFG_VALID p)) then f
    else
      match f.mbx.queue with
      | (_, req, _) :: _ =>
        let f := f.respond 0 (rqBits req 0 8) []
        f.mbxDrain f.mbx.queue.length
      | [] => f

/-! ### DESTROY, DDR_ADD, DDR_RELEASE, DECLARE (R389, R393, R589) -/

/-- Does the partition exist and belong to the port? -/
def Fab.boundTo (f : Fab) (n p : Nat) : Bool := f.bit (Reg.HP_PCFG_VALID p) && f.portOf p == n

/-- Is the share STOPPED or HALTED? -/
def Fab.atRest (f : Fab) (p : Nat) : Bool := f.st p == 0 || f.st p == 5

/-- The granules that a partition owns. -/
def Fab.granules (f : Fab) (p : Nat) : List Nat :=
  (f.regs.filter (fun c => Reg.MEM_DOWNER 0 ≤ c.1 && c.1 < Reg.MEM_DOWNER 2048 && fget c.2 0 4 == p)).map
    (fun c => (c.1 - Reg.MEM_DOWNER 0) / 8)

/-- Perform a DESTROY of partition `p` up to its wipes. -/
def Fab.destroy (f : Fab) (n p : Nat) : Fab :=
  let units := ((List.range 40).filter (fun u => f.unitPart u == some p)).map (fun u => (false, u)) ++
    (f.granules p).map (fun g => (true, g))
  let f := f.set (Reg.HP_BIND_PARTS n) (f.get (Reg.HP_BIND_PARTS n) &&& (255 - 2 ^ p))
  let f := (f.portEvent n 0).umxDestroyed
  let f := units.foldl (fun g u => g.ownerWrite u.1 u.2 8) f
  let f := f.vaultPut (vaultSlot p) 0
  let f : Fab := { f with keys := Store.set 0 f.keys p 0 }
  let f := ((List.range 32).filter (fun k => (f.get (Reg.HP_PDMA_CH p)).testBit k)).foldl (fun g k => g.dmaDisable k) f
  (f.updMbx (fun m => { m with job := some ⟨some p, units⟩ })).mbxAdvance

/-- DESTROY. The clearing of its key waits for a vault wipe to end (R262). -/
def Fab.mbxDestroy (f : Fab) (n r : Nat) : Fab :=
  let p := rqBits r 0 8
  if !rqForm r 1 || 8 ≤ p then f.respond 1 p []
  else if !f.accepted n 0 then f.respond 2 p []
  else if !f.boundTo n p then f.respond 7 p []
  else if !f.atRest p then f.respond 5 p []
  else if f.bit Reg.MEM_VAULT_WIPING then f
  else f.destroy n p

/-- The granules that a DDR_ADD or DDR_RELEASE names. -/
def rqGrans (r : Nat) : List Nat := (List.range (rqBits r 4 16)).map (fun i => rqBits r 2 16 + i)

/-- Length and fields of DDR_ADD and DDR_RELEASE. -/
def ddrForm (r : Nat) : Bool :=
  rqForm r 6 && rqBits r 0 8 < 8 && rqBits r 1 8 == 0 && rqBits r 4 16 ≠ 0 && rqBits r 2 16 + rqBits r 4 16 ≤ 2048

/-- DDR_ADD. -/
def Fab.mbxDdrAdd (f : Fab) (n r : Nat) : Fab :=
  let p := rqBits r 0 8
  if !ddrForm r then f.respond 1 p []
  else if !f.accepted n 0 then f.respond 2 p []
  else if !f.boundTo n p then f.respond 7 p []
  else if (rqGrans r).any (fun g => f.get (Reg.MEM_DOWNER_OWN g) ≠ 8) then f.respond 3 p []
  else if (rqGrans r).any (fun g => !f.swept g) then f.respond 8 p []
  else ((rqGrans r).foldl (fun g i => g.ownerWrite true i p) f).respond 0 p []

/-- DDR_RELEASE. -/
def Fab.mbxDdrRelease (f : Fab) (n r : Nat) : Fab :=
  let p := rqBits r 0 8
  if !ddrForm r then f.respond 1 p []
  else if !f.accepted n 0 then f.respond 2 p []
  else if !f.boundTo n p then f.respond 7 p []
  else if !f.atRest p then f.respond 5 p []
  else if (rqGrans r).any (fun g => f.granPart g ≠ some p) then f.respond 3 p []
  else
    let f := (rqGrans r).foldl (fun g i => g.ownerWrite true i 8) f
    (f.updMbx (fun m => { m with job := some ⟨none, (rqGrans r).map (fun g => (true, g))⟩ })).mbxAdvance

/-- A record of a DECLARE: 16 bytes from byte 8 + 16 i of the payload, as a number. -/
def dcRec (r i : Nat) : Nat := rqBits r (8 + 16 * i) 128

/-- Is a record of a sound form: a block row within the fields of R296 and R370, or granules? -/
def dcForm (x : Nat) : Bool :=
  if natBits x 0 8 = 0 then
    let w := natBits x 16 8
    natBits x 8 8 < 24 && w ≤ 8 && natBits x 24 8 == 0 && natBits x 96 32 == 0 &&
      natBits x 32 32 < (if w = 0 then 2 ^ 10 else 2 ^ 15) && natBits x 64 32 < (if w = 0 then 2 ^ 12 else 2 ^ 20)
  else natBits x 0 8 == 1 && natBits x 8 8 == 0 && natBits x 32 16 ≠ 0 && natBits x 16 16 + natBits x 32 16 ≤ 2048 &&
    natBits x 48 8 < 2 && natBits x 56 72 == 0

/-- Does the partition own what a record names? -/
def Fab.dcOwned (f : Fab) (p x : Nat) : Bool :=
  if natBits x 0 8 = 0 then f.unitPart (natBits x 8 8) == some p
  else (List.range (natBits x 32 16)).all (fun i => f.granPart (natBits x 16 16 + i) == some p)

/-- Mark one granule journaled or not. -/
def Fab.markGran (f : Fab) (g v : Nat) : Fab := f.set ⟨Reg.SQ_JDDR (g / 64), g % 64, 1⟩ v

/-- Write the declaration of one record. -/
def Fab.declare (f : Fab) (x : Nat) : Fab :=
  if natBits x 0 8 = 0 then
    let b := natBits x 8 8
    let w := natBits x 16 8
    let f := f.setReg (if w = 0 then Reg.SQ_JMEM0 b else Reg.SQ_JMEM b (w - 1)) (w64 (natBits x 32 32))
    f.setReg (if w = 0 then Reg.TEST_ELIG0 b else Reg.TEST_ELIG b (w - 1)) (w64 (natBits x 64 32))
  else (List.range (natBits x 32 16)).foldl (fun g i => g.markGran (natBits x 16 16 + i) (natBits x 48 1)) f

/-- DECLARE. -/
def Fab.mbxDeclare (f : Fab) (n r : Nat) : Fab :=
  let p := rqBits r 0 8
  let l := (List.range ((rqLen r - 8) / 16)).map (dcRec r)
  if rqRsv r ≠ 0 || rqLen r < 8 || rqLen r % 16 ≠ 8 || 1016 < rqLen r || 8 ≤ p || rqBits r 1 56 ≠ 0 || !l.all dcForm then
    f.respond 1 p []
  else if !f.accepted n 0 || (l.any (fun x => natBits x 0 8 == 1 && natBits x 48 1 == 1) && !f.accepted n 9) then
    f.respond 2 p []
  else if !f.boundTo n p then f.respond 7 p []
  else if !f.atRest p then f.respond 5 p []
  else if !l.all (f.dcOwned p) then f.respond 3 p []
  else (l.foldl (fun g x => g.declare x) f).respond 0 p []

/-! ### The meanings -/

/-- Run an operation on a host port. -/
def onHost (n : Nat) (g : Fab → Fab) (s : State) : Host.Outcome State Fault Refusal :=
  if n < 4 then .next { s with fab := s.fab.whenLive g } else .refused .noSuchUnit

/-- DOORBELL of port `n`: the value written to MGMT.MBX_CTL. -/
def execDoorbell (n : Nat) (v : Word) (s : State) : Host.Outcome State Fault Refusal := onHost n (fun f => f.doorbell n v) s

/-- QUERY of port `n`. -/
def execQuery (n : Nat) (s : State) : Host.Outcome State Fault Refusal :=
  onHost n (fun f => f.serve n 1 (fun f r => f.mbxQuery n r)) s

/-- CREATE on port `n`. -/
def execCreate (n : Nat) (s : State) : Host.Outcome State Fault Refusal :=
  onHost n (fun f => f.serve n 2 (fun f r => f.mbxCreate n r)) s

/-- DESTROY on port `n`. -/
def execDestroy (n : Nat) (s : State) : Host.Outcome State Fault Refusal :=
  onHost n (fun f => f.serve n 3 (fun f r => f.mbxDestroy n r)) s

/-- DDR_ADD on port `n`. -/
def execDdrAdd (n : Nat) (s : State) : Host.Outcome State Fault Refusal :=
  onHost n (fun f => f.serve n 4 (fun f r => f.mbxDdrAdd n r)) s

/-- DDR_RELEASE on port `n`. -/
def execDdrRelease (n : Nat) (s : State) : Host.Outcome State Fault Refusal :=
  onHost n (fun f => f.serve n 5 (fun f r => f.mbxDdrRelease n r)) s

/-- DECLARE on port `n`. -/
def execDeclare (n : Nat) (s : State) : Host.Outcome State Fault Refusal :=
  onHost n (fun f => f.serve n 6 (fun f r => f.mbxDeclare n r)) s

/-- WIPE_COMPLETE. -/
def execWipeComplete (isD : Bool) (i : Nat) (s : State) : Host.Outcome State Fault Refusal :=
  if (if isD then 2048 else 48) ≤ i then .refused .noSuchUnit
  else .next { s with fab := s.fab.whenActive (fun f => (f.wipeDone isD i).mbxAdvance) }

end Sys2Proof.Machine
end

