-- ==== Sys2Proof/Machine/Boot.lean ====
section
/-! DEFINITION. Start-up, resets and power loss (spec/16, spec/19, spec/20): START_UP, management resets, the watchdog, PORST_N,
brown-outs, thermal trips, tamper trips and the vault. -/

namespace Sys2Proof.Machine

/-! ### Options and trim (R469–R472) -/

/-- Trim word `k` (R471). The spec does not say at which of rows 16–63 its copies stand; the model lays them out as those of an
option word. -/
def trimWord (o : Store Nat) (k : Nat) : OtpWord := otpWord o (16 + k) (32 + k) (48 + k)

/-- An event that firmware has to log at start-up: CODE, SEVERITY, DATA. -/
abbrev LogEv := Nat × Nat × List Nat

/-- What a triplicated word gives to the log (R470). -/
def otpNote (w : OtpWord) : List LogEv :=
  if w.note = 0 then [] else [(if w.note = 1 then 0x0003 else 0x0004, 1, toBytes w.row 4)]

/-- Option word `k` of generation `g`, resolved (R471): its value, the events, whether it counts as DEGRADED. -/
def optResolve (o : Store Nat) (vendor g k : Nat) : Nat × List LogEv × Bool :=
  let w := optWord o g k
  match w.val with
  | some v => (v, otpNote w, false)
  | none =>
    let u := optWord o (g - 1) k
    match (if 0 < g then u.val else none) with
    | some v => (v, otpNote u ++ [(0x0005, 1, toBytes k 4)], false)
    | none => (optDefault vendor k, [(0x0006, 2, toBytes k 4)], true)

/-- The sixteen option words in use, the events, and DEGRADED. -/
def optLoad (o : Store Nat) (vendor : Nat) : List Nat × List LogEv × Bool :=
  match optGen o with
  | none => ((List.range 16).map (optDefault vendor), [], false)
  | some g =>
    let l := (List.range 16).map (optResolve o vendor g)
    (l.map (fun x => x.1), (l.map (fun x => x.2.1)).flatten, l.any (fun x => x.2.2))

/-! ### Losing power (R545, R573–R576) -/

/-- The enclave as a loss of power leaves it: what its OTP, its flash slice and the Elder domain hold. -/
def Umx.cold (u : Umx) : Umx := { Umx.reset with
  otp := u.otp, kept := u.kept, chkPos := u.chkPos, logSeq := u.logSeq, logPos := u.logPos, chain := u.chain,
  high := u.high, low := u.low, brk := u.brk }

/-- The management subsystem as a loss of power leaves it: flash, OTP, and the log's place in the flash. -/
def Mgmt.cold (m : Mgmt) : Mgmt := { Mgmt.reset with
  flash := m.flash, otp := m.otp, logSeq := m.logSeq, logPos := m.logPos, chain := m.chain, unsealed := m.unsealed,
  boots := m.boots }

/-- The registers listed keep their values; every other is at its reset value, but for the seal (R504). -/
def Fab.keepRegs (f : Fab) (keep : List Nat) : Store Word :=
  let l := f.regs.filter (fun c => keep.contains c.1)
  (({ Fab.reset with regs := l } : Fab).set Reg.UMX_STAT_SEALOPEN (f.get Reg.UMX_STAT_SEALOPEN)).regs

/-- The fabric as a loss of power leaves it. -/
def Fab.coldFab (f : Fab) (keep : List Nat) : Fab := { Fab.reset with
  regs := f.keepRegs keep
  mgmt := f.mgmt.cold
  umx := f.umx.cold
  latched := f.latched.filter (fun x => x.1 == 11)
  tap := f.tap
  out := f.out
  fresh := f.fresh }

/-- The pins that a reset of the device releases, and XSPI_RESET_N, which it holds low (R583). -/
def Fab.releasePins (f : Fab) : Fab :=
  (((f.drivePin 0 f.pwr.alertN false).drivePin 1 f.pwr.slpN false).drivePin 2 f.pwr.thermN false).drivePin 3 f.pwr.xspiN true

/-- The device enters OFF (R545): the Elder timer and PWR.RSTCAUSE stay, and a thermal trip stays latched. -/
def Fab.porReset (f : Fab) : Fab :=
  let f := f.releasePins
  { f.coldFab [Reg.PWR_ETIME, Reg.PWR_RSTCAUSE] with pwr := { Pwr.reset with st := 0, xspiN := true, trip := f.pwr.trip, owed := f.pwr.owed } }

/-- PORST_N_ASSERT (R573). -/
def Fab.porAssert (f : Fab) : Fab :=
  if f.pwr.porst then f
  else (f.porReset.updPwr (fun x => { x with porst := true })).set Reg.PWR_RSTCAUSE_PORST 1

/-- BROWN_OUT of a rail (R575): it acts as an assertion of PORST_N; start-up waits for the rails. -/
def Fab.brownOut (f : Fab) (rail : Nat) : Fab :=
  if f.pwr.st < 2 || f.pwr.porst then f
  else
    let f := f.porReset.updPwr (fun x => { x with rails := 1 })
    (f.set Reg.PWR_RSTCAUSE_BROWNOUT 1).set Reg.PWR_RSTCAUSE_RAIL rail

/-- AON_LOSS (R575): the Elder domain loses its state; the board holds PORST_N asserted until the rails are back (R572). -/
def Fab.aonLoss (f : Fab) : Fab :=
  let f := f.releasePins
  let g : Fab := { f.coldFab [] with pwr := { Pwr.reset with st := 0, xspiN := true, porst := true }, latched := [] }
  (g.updUmx (fun u => { u with kept := none, high := 0, low := 0 })).setReg Reg.PWR_RSTCAUSE 64

/-- THERMTRIP (R576): clocks stop, and the Elder domain latches the trip. -/
def Fab.thermTrip (f : Fab) : Fab :=
  if f.pwr.st = 0 || f.pwr.trip then f
  else (f.drivePin 2 f.pwr.thermN true).updPwr (fun x => { x with trip := true, thermN := true })

/-! ### Start-up (R466, R467) -/

/-- The last step completed. -/
def Fab.stepDone (f : Fab) (n : Nat) : Fab := f.set Reg.DEV_BOOTSTAT_STEP n

/-- The host ports become ready: each link trains as the board lets it. -/
def Fab.hostLinks (f : Fab) (l : List (Nat × Nat)) : Fab :=
  (List.range 4).foldl (fun g n =>
    let x := l.getD n (0, 0)
    ((g.set (Reg.HP_STAT_LINKUP n) (b2n (x.1 ≠ 0))).set (Reg.HP_STAT_SPEED n) x.1).set (Reg.HP_STAT_WIDTH n) x.2) f

/-- Start-up stops (R467, R478). -/
def Fab.bootFail (f : Fab) (err : Nat) (l : List (Nat × Nat)) : Fab :=
  let f := (f.set Reg.DEV_BOOTSTAT_FAILED 1).set Reg.DEV_BOOTSTAT_ERR err
  let f := f.set Reg.DEV_BOOTSTAT_RECOVERY (b2n (err = 3 || err = 5))
  (f.hostLinks l).alert true

/-- Bytes [287:0] of an attestation report (R491). -/
def Fab.reportBody (f : Fab) (nonce : List Nat) : List Nat :=
  let m := f.mgmt
  let x8 := (List.range 4).any (fun n => f.get (Reg.DDR_PSTAT_STATE n) == 2 && f.bit (Reg.DDR_PSTAT_X8 n))
  let flags := f.get Reg.DEV_BOOTSTAT_DEGRADED + 2 * b2n m.disagree + 4 * b2n x8 +
    8 * f.get Reg.DEV_BOOTSTAT_FALLBACK + 16 * f.get Reg.DBG_STAT_OPENED + 32 * b2n m.tamper + 64 * b2n f.umx.suffixM
  let optB := (m.opts.map (fun w => toBytes w 8)).flatten
  let dig := ((List.range 8).map (fun i => toBytes (f.get (Reg.UMX_FWDIGEST_DIGEST i)) 8)).flatten
  toBytes 1 4 ++ toBytes m.uid 16 ++ [m.lc, 2, flags, m.svn] ++ (m.hdr.drop 8).take 8 ++ sha m.hdr ++ sha optB ++ dig ++
    toBytes (f.get Reg.UMX_FWVER_VERSION) 4 ++ (nonce ++ List.replicate 32 0).take 32 ++ toBytes m.boots 8 ++
    toBytes (f.get Reg.PWR_ETIME_COUNT) 8 ++ List.replicate 12 0

/-- Firmware generates a report (R492). -/
def Fab.attest (f : Fab) (nonce : List Nat) : Fab :=
  let b := f.reportBody nonce
  f.updMgmt (fun m => { m with report := b ++ Config.sign m.idKey (sha b) })

/-- Put bytes into memory from a 16-byte boundary, in whole code words. -/
def Fab.loadWords (f : Fab) (a : Nat) : List Nat → Nat → Fab
  | _, 0 => f
  | l, n + 1 => (f.putWord (a / 16) (ofBytes (l.take 16))).loadWords (a + 16) (l.drop 16) n

/-- Step 6: the Damson core starts from ROM at offset 0 in KERNEL mode (R466). -/
def Fab.damsonStart (f : Fab) : Fab :=
  let f : Fab := { f with dam := { Dam.reset with started := true } }
  let f := (f.setReg Reg.DBG_DPC 0).setReg Reg.DBG_DSR 0
  let f := (f.set Reg.DBG_DSTAT_HALTED 0).set Reg.DBG_DSTAT_PBRK 0
  (List.range 32).foldl (fun g n => g.setReg (Reg.DBG_DREG n) 0) f

/-- Step 7 (R477, R481): ROM chooses an image and loads its code into TCM; the slots that failed, and whether firmware runs. -/
def Fab.bootImage (f : Fab) (flash : Bool) (l : List (Nat × Nat)) : Fab × List Nat × Bool :=
  if f.mgmt.lc = 0 then (f, [], false)
  else if f.mgmt.lc = 5 then (f.bootFail 4 l, [], false)
  else if !flash then (f.bootFail 5 l, [], false)
  else
    let x := f.mgmt.choose mgmtImg (fun m o => m.slotOk o) true (f.mgmt.candidates mgmtImg (slotOff 0) (slotOff 1))
    let f : Fab := { f with mgmt := x.2.2 }
    match x.1 with
    | none => (f.bootFail 3 l, x.2.1, false)
    | some (o, fb) =>
      let m := f.mgmt
      let code := m.flashNum (o + 20) 4
      let f := f.loadWords 0x0300100000 (m.flashBytes (o + 0x2000) code) ((code + 15) / 16)
      let f := (f.set Reg.DEV_BOOTSTAT_SLOT (if o = slotOff 1 then 1 else 0)).set Reg.DEV_BOOTSTAT_FALLBACK (b2n fb)
      let f := f.updMgmt (fun m => { m with hdr := m.header o, running := true, cfg := m.cfgSection o code })
      (((f.setReg Reg.DBG_DPC (w64 (0x100000 + m.flashNum (o + 24) 4))).stepDone 7), x.2.1, true)

/-- The identity seeds go into the vault (R484, R485). -/
def Fab.putSeeds (f : Fab) : Fab := f.vaultPut 0x0300201000 (Config.derive f.mgmt.secret f.mgmt.lc)

/-- Log a list of events. -/
def Fab.logAll (f : Fab) (l : List LogEv) : Fab := l.foldl (fun g e => g.logEvent e.1 e.2.1 e.2.2) f

/-- Step 8 applies the configuration section (R466): the coordinates, from which the DID follows (R5), and the timebase parent,
where the section sets one (log 100). -/
def Fab.configure (f : Fab) : Fab :=
  let x (i : Nat) : Nat := Config.coord i f.mgmt.cfg
  let f := f.updMgmt (fun m => { m with did := didOf (x 0) (x 1) (x 2) (x 3) })
  let p := Config.parent f.mgmt.cfg % 64
  if p < 32 then
    let f := f.set Reg.LINK_TBCTL_PARENT p
    if p = 0x1F then f.set Reg.LINK_TBCTL_VALID 1 else f
  else f

/-- Steps 8 to 10. `evs` are the events of the steps before. -/
def Fab.bootFirmware (f : Fab) (b : Boot) (evs : List LogEv) : Fab :=
  let f := f.updMgmt (fun m => { m with boots := m.boots + 1 })
  let f := (f.logAll (evs ++ (if f.pwr.owed then [(0x000F, 2, [])] else []))).updPwr (fun x => { x with owed := false })
  let f := (f.configure.putSeeds.newKey 8).attest []
  let f := (List.range 24).foldl (fun g x => if g.get (Reg.MEM_OWNER_OWN x) = 8 then g.blockSet x 0 else g) f
  let f := f.stepDone 8
  let f := (f.ddrTrain b.dimms).stepDone 9
  let f := (f.hostLinks b.links).stepDone 10
  let f := (f.logEvent 0x0001 0 (toBytes (f.reg Reg.DEV_BOOTSTAT).toNat 8)).sealLog
  let f := f.deliverLatched
  if f.get Reg.PWR_SLEEP_STATUS_STATUS = 1 then f.sleepStatus 2 else f

/-- The events of slots whose image failed: slot and cause, which the spec does not number. -/
def failEvs (l : List Nat) : List LogEv := l.map (fun o => (0x0002, 2, [o / 0x800000, 0]))

/-- Steps 6 to 10. Step 6 releases XSPI_RESET_N (R583). -/
def Fab.bootCore (f : Fab) (b : Boot) (evs : List LogEv) : Fab :=
  let f := ((f.drivePin 3 f.pwr.xspiN false).updPwr (fun x => { x with xspiN := false })).damsonStart.stepDone 6
  let r := f.bootImage b.flash b.links
  if r.2.2 then r.1.bootFirmware b (evs ++ failEvs r.2.1) else r.1

/-- Steps 3 to 10 (R466). -/
def Fab.bootFrom3 (f : Fab) (b : Boot) : Fab :=
  let f := f.updPwr (fun x => { x with st := 3, rails := 0 })
  let o := f.mgmt.otp
  let trim := (List.range 16).map (trimWord o)
  if trim.any (fun w => w.val.isNone) then f.bootFail 6 b.links
  else
    let tv := trim.map (fun w => w.val.getD 0)
    let vendor := Config.trim 0 tv % 65536
    let opt := optLoad o vendor
    let words := trim ++ [otpWord o 0 2 4, otpWord o 1 3 5, otpWord o 116 117 118]
    let evs := (words.map otpNote).flatten ++ opt.2.1
    let f := f.updMgmt (fun m => { m with opts := opt.1, disagree := evs.any (fun e => e.1 == 3) })
    let f := (f.set Reg.DEV_ID_VENDOR vendor).set Reg.DEV_ID_LC f.mgmt.lc
    let f := (f.set Reg.DEV_ID_MSUFFIX (b2n f.umx.suffixM)).set Reg.PWR_AVS_TARGET (min 850 (max 700 (Config.trim 1 tv)))
    let f := (List.range 6).foldl (fun g i => g.set (Reg.PWR_ECLK_FREQ i) g.eclkMax) f
    let f := (f.set (Reg.DEV_UID_UID 0) (f.mgmt.uid % 2 ^ 64)).set (Reg.DEV_UID_UID 1) (f.mgmt.uid / 2 ^ 64)
    let f := (f.set Reg.DEV_BOOTSTAT_DEGRADED (b2n opt.2.2)).stepDone 3
    let f := f.set Reg.SCRUB_SELFTEST_DONE 1
    match b.selfTest with
    | some (pat, chk) =>
      ((f.set Reg.SCRUB_SELFTEST_FAIL 1).set Reg.SCRUB_SELFTEST_PATTERN pat).set Reg.SCRUB_SELFTEST_CHECKER chk |>.bootFail 1
        b.links
    | none =>
      let f := f.stepDone 4
      if !b.fill then f.bootFail 2 b.links
      else
        let f : Fab := { f with mem := [], err := [], key := [], keys := [], repair := [] }
        let f := ((f.stepDone 5).umxRestore).umxStart
        f.bootCore b (evs ++ (if f.bit Reg.PWR_RSTCAUSE_THERMTRIP then [(0x000A, 2, [])] else []))

/-- Debug access at the release of PORST_N (R524). -/
def Fab.openByState (f : Fab) : Fab :=
  f.setReg Reg.DBG_STAT (if f.mgmt.lc = 3 || f.mgmt.lc = 5 then 0 else 1)

/-- Steps 1 and 2, and what follows (R466, R527, R572, R576): a sensor that is still hot trips again, and start-up waits for the
rails. -/
def Fab.bootFrom1 (f : Fab) (b : Boot) : Fab :=
  let f := if f.pwr.trip then f.set Reg.PWR_RSTCAUSE_THERMTRIP 1 else f
  let f := f.updPwr (fun x => { x with porst := false, st := 3, trip := false })
  let f : Fab := { f with dxw := { f.dxw with chal := BitVec.ofNat 256 (Config.entropy f.fresh) }, fresh := f.fresh + 1 }
  let f := f.openByState.stepDone 2
  if b.hot then f.thermTrip
  else if !b.rails then f.updPwr (fun x => { x with st := 0, rails := 1 })
  else f.bootFrom3 b

/-- START_UP: PORST_N is released; in a start-up that a recovery has restarted, it goes on from step 6 (R478). -/
def Fab.startUp (f : Fab) (b : Boot) : Fab :=
  if f.bit Reg.DEV_BOOTSTAT_FAILED || f.pwr.rails ≠ 0 || f.pwr.st = 1 then f
  else if f.get Reg.DEV_BOOTSTAT_STEP = 0 then f.bootFrom1 b
  else if f.get Reg.DEV_BOOTSTAT_STEP = 5 then f.bootCore b []
  else f

/-- What survives DORMANT in the Elder domain beside the timer (R549, R439, R524). -/
def elderRegs : List Nat :=
  [Reg.PWR_ETIME, Reg.PWR_RSTCAUSE, Reg.PWR_ETIMER, Reg.PWR_WAKE_EN, Reg.PWR_WAKE_STAT, Reg.PWR_GPIOWAKE,
    Reg.PWR_SLEEP_STATUS, Reg.ISC_WAKECTL, Reg.ISC_WAKE 0, Reg.ISC_WAKE 1, Reg.ISC_WAKE 2, Reg.ISC_WAKE 3, Reg.DBG_STAT]

/-- The device as DORMANT leaves it when it exits. -/
def Fab.dormantWake (f : Fab) : Fab :=
  let g : Fab := { f.coldFab elderRegs with pwr := { Pwr.reset with alertN := f.pwr.alertN, owed := f.pwr.owed }, latched := f.latched, dxw := f.dxw }
  (g.set Reg.PWR_RSTCAUSE_DORMANT 1).stepDone 2

/-- RAILS_IN_RANGE: every rail has been within range for 1 ms (R549, R575). -/
def Fab.railsOk (f : Fab) (b : Boot) : Fab :=
  if f.pwr.rails = 0 || f.pwr.porst then f
  else if f.pwr.rails = 2 then f.dormantWake.bootFrom3 b
  else (f.updPwr (fun x => { x with rails := 0 })).bootFrom1 { b with rails := true }

/-- DORMANT_EXIT_TIMEOUT (R549). -/
def Fab.dormantFail (f : Fab) : Fab :=
  if f.pwr.rails = 2 then f.dormantWake.bootFail 7 [] else f

/-! ### Management resets and the watchdog (R489, R490) -/

/-- A management reset: mailbox requests in progress are discarded, and the Damson core restarts from step 6. -/
def Fab.mgmtReset (f : Fab) : Fab :=
  let f := f.stick Reg.DEV_BOOTSTAT_MRESETS 1
  let f := (List.range 4).foldl (fun g n => g.set (Reg.MGMT_MBX_STAT_BUSY n) 0) f
  let f := f.updMbx (fun m => { m with queue := [], job := none })
  let f : Fab := { (f.set Reg.PATCH_LOCK_LOCK 0).set Reg.DEV_WDOG_LOCK 0 with
    once := f.once.filter (fun r => r ≠ Reg.PATCH_LOCK && r ≠ Reg.DEV_WDOG) }
  let f := (f.set Reg.DEV_WDOG_STAGE 0).set Reg.DEV_WDOG_COUNT (f.get Reg.DEV_WDOG_PERIOD)
  let f := f.updMgmt (fun m => { m with running := false })
  let links := (List.range 4).map (fun n => (f.get (Reg.HP_STAT_SPEED n), f.get (Reg.HP_STAT_WIDTH n)))
  let r := (f.damsonStart.stepDone 6).bootImage true links
  if r.2.2 then
    let f := (r.1.logAll (failEvs r.2.1)).logEvent 0x0009 1 []
    (f.attest []).stepDone 10
  else r.1

/-- The watchdog expires at a stage (R489). -/
def Fab.wdogExpire (f : Fab) (stage : Nat) : Fab :=
  if stage = 0 then
    ((f.set Reg.DEV_WDOG_COUNT (f.get Reg.DEV_WDOG_PERIOD)).set Reg.DEV_WDOG_STAGE 1).raise 10 true
  else f.mgmtReset

/-- WDOG_EXPIRY: COUNT has run out while the watchdog is enabled and not frozen. -/
def Fab.wdogExpiry (f : Fab) : Fab :=
  if f.bit Reg.DEV_WDOG_EN && f.get Reg.DEV_WDOG_COUNT = 0 && !f.bit Reg.DBG_DSTAT_HALTED then
    f.wdogExpire (f.get Reg.DEV_WDOG_STAGE)
  else f

/-- WDOG_KICK: a value written to DEV.WDOG.KICK. -/
def Fab.wdogKick (f : Fab) (m : Master) (v : Nat) : Fab :=
  if m.code ≠ 0 then f
  else if v = 0xA5 then (f.set Reg.DEV_WDOG_COUNT (f.get Reg.DEV_WDOG_PERIOD)).set Reg.DEV_WDOG_STAGE 0
  else f.wdogExpire 1

/-! ### Tamper and the vault (R262, R485, R544) -/

/-- Source TAMPER is raised, once the ISC is powered (R544, R487). -/
def Fab.raiseTamper (f : Fab) : Fab :=
  if f.pwr.st = 3 then f.raise 11 true else { f with latched := f.latched ++ [(11, true)] }

/-- TAMPER_TRIP (R544): the vault is wiped and the trip logged, at the next start-up where firmware does not run now. In DORMANT
and OFF the vault is wiped already (R262), and TAMPER waits for the ISC. -/
def Fab.tamperTrip (f : Fab) : Fab :=
  if f.pwr.st < 2 then (f.updPwr (fun x => { x with owed := true })).raiseTamper
  else
    let f := (f.vaultWipe 1).updMgmt (fun m => { m with tamper := true })
    if f.fwUp then f.logEvent 0x000F 2 [] else f.updPwr (fun x => { x with owed := true })

/-- VAULT_WIPE_COMPLETE: after a tamper trip TAMPER is raised (R487), and firmware derives the identity seeds again and draws a
new management key (R485). -/
def Fab.vaultWiped (f : Fab) : Fab :=
  if f.bit Reg.MEM_VAULT_WIPING then
    let f := f.set Reg.MEM_VAULT_WIPING 0
    if f.get Reg.MEM_VAULT_CAUSE = 1 then (if f.fwUp then f.putSeeds.newKey 8 else f).raiseTamper else f
  else f

/-! ### The meanings -/

/-- Are a start-up's outcomes of the right form: four DIMMs, four links, a pattern and a decoder of R281? -/
def bootWf (b : Boot) : Bool :=
  b.dimms.length == 4 && b.links.length == 4 && b.links.all (fun x => x.1 ≤ 5 && [0, 1, 2, 4, 8].contains x.2) &&
    (match b.selfTest with
      | some x => x.1 < 64 && x.2 < 237
      | none => true)

/-- START_UP. -/
def execStartUp (b : Boot) (s : State) : Host.Outcome State Fault Refusal :=
  if bootWf b then .next { s with fab := s.fab.startUp b } else .refused .noSuchUnit

/-- RAILS_IN_RANGE. -/
def execRailsInRange (b : Boot) (s : State) : Host.Outcome State Fault Refusal :=
  if bootWf b then .next { s with fab := s.fab.railsOk b } else .refused .noSuchUnit

/-- DORMANT_EXIT_TIMEOUT. -/
def execDormantExitTimeout (s : State) : Host.Outcome State Fault Refusal := .next { s with fab := s.fab.dormantFail }

/-- PORST_N_ASSERT. -/
def execPorstNAssert (s : State) : Host.Outcome State Fault Refusal := .next { s with fab := s.fab.porAssert }

/-- BROWN_OUT. -/
def execBrownOut (rail : Nat) (s : State) : Host.Outcome State Fault Refusal :=
  if rail < 6 then .next { s with fab := s.fab.brownOut rail } else .refused .noSuchUnit

/-- AON_LOSS. -/
def execAonLoss (s : State) : Host.Outcome State Fault Refusal := .next { s with fab := s.fab.aonLoss }

/-- THERMTRIP. -/
def execThermtrip (s : State) : Host.Outcome State Fault Refusal := .next { s with fab := s.fab.thermTrip }

/-- WDOG_KICK by the master of a code. -/
def execWdogKick (m : Nat) (v : BitVec 8) (s : State) : Host.Outcome State Fault Refusal :=
  byMaster m Reg.DEV_WDOG (fun f x => f.wdogKick x v.toNat) s

/-- WDOG_EXPIRY. -/
def execWdogExpiry (s : State) : Host.Outcome State Fault Refusal :=
  .next { s with fab := s.fab.whenLive (fun f => f.wdogExpiry) }

/-- TAMPER_TRIP. -/
def execTamperTrip (s : State) : Host.Outcome State Fault Refusal := .next { s with fab := s.fab.tamperTrip }

/-- VAULT_WIPE_COMPLETE. -/
def execVaultWipeComplete (s : State) : Host.Outcome State Fault Refusal := .next { s with fab := s.fab.vaultWiped }

end Sys2Proof.Machine
end

