-- ==== Sys2Proof/Machine/I3c.lean ====
section
/-! DEFINITION. The I3C commands of the board management controller (R478–R483, R491) and the end of a flash operation. -/

namespace Sys2Proof.Machine

/-- A response to an I3C command: status 0 done, 1 bad request, 2 refused, 3 busy, 4 verification failed; then data. -/
def Fab.i3cAnswer (f : Fab) (status : Nat) (data : List Nat) : Fab := f.emit (.i3c status data)

/-- Does ROM stay in recovery mode (R478)? -/
def Fab.recovery (f : Fab) : Bool := f.bit Reg.DEV_BOOTSTAT_RECOVERY

/-- Serve an I3C command: while firmware runs, it raises BMC_CMD (R487); a halted core answers busy (R537); in recovery mode ROM
serves image commands alone (`img`). Nothing answers otherwise. -/
def Fab.i3cServe (f : Fab) (img : Bool) (g : Fab → Fab) : Fab :=
  if !f.live then f
  else if f.bit Reg.DBG_DSTAT_HALTED then (f.raise 13 true).i3cAnswer 3 []
  else if f.mgmt.running then g (f.raise 13 true)
  else if img && f.recovery then g f
  else f

/-- Does any partition exist? -/
def Fab.anyPart (f : Fab) : Bool := (List.range 8).any (fun p => f.bit (Reg.HP_PCFG_VALID p))

/-- Serve a command that changes flash or OTP: refused while any partition exists (R480). -/
def Fab.i3cChange (f : Fab) (img : Bool) (g : Fab → Fab) : Fab :=
  f.i3cServe img (fun f => if f.anyPart then f.i3cAnswer 2 [] else g f)

/-- Serve a command that uses the flash for long: busy while an erase or a program runs. -/
def Fab.i3cFlash (f : Fab) (g : Fab → Fab) : Fab :=
  f.i3cChange true (fun f => if f.mgmt.busy then f.i3cAnswer 3 [] else g f)

/-- The offset of the slot that image commands write: the one that did not boot, or slot A in recovery mode. -/
def Fab.otherSlot (f : Fab) : Nat := if f.mgmt.running then slotOff (1 - f.get Reg.DEV_BOOTSTAT_SLOT) else slotOff 0

/-- The offset of the running slot. -/
def Fab.runSlot (f : Fab) : Nat := slotOff (f.get Reg.DEV_BOOTSTAT_SLOT)

/-- The highest temperature that a sensor shows, in its register's form. -/
def Fab.hottest (f : Fab) : Nat :=
  let t (i : Nat) : BitVec 12 := BitVec.ofNat 12 (f.get (Reg.MGMT_TEMP_VALUE i))
  ((List.range 56).foldl (fun (m : BitVec 12) i => if m.toInt < (t i).toInt then t i else m) (t 0)).toNat

/-- STATUS: answered in the failed state too (R467). -/
def Fab.i3cStatus (f : Fab) : Fab :=
  let ans (f : Fab) : Fab := f.i3cAnswer 0
    (toBytes (f.reg Reg.DEV_ID).toNat 8 ++ toBytes (f.reg Reg.DEV_BOOTSTAT).toNat 8 ++ toBytes f.hottest 2)
  if f.live && f.bit Reg.DEV_BOOTSTAT_FAILED && !f.mgmt.running then ans f else f.i3cServe false ans

/-- The sensor register of an index: thermal sensors 0–55, voltage monitors 56–87, droop detectors 88–111. -/
def sensorReg (i : Nat) : Option Nat :=
  if i < 56 then some (Reg.MGMT_TEMP i) else if i < 88 then some (Reg.MGMT_VMON (i - 56))
  else if i < 112 then some (Reg.MGMT_DROOP (i - 88)) else none

/-- SENSORS. -/
def Fab.i3cSensors (f : Fab) (i : Nat) : Fab :=
  f.i3cServe false (fun f =>
    match sensorReg i with
    | some a => f.i3cAnswer 0 (toBytes (f.reg a).toNat 8)
    | none => f.i3cAnswer 1 [])

/-- An erase or a program begins; FLASH_DONE ends it. -/
def Fab.flashBusy (f : Fab) : Fab := f.updMgmt (fun m => { m with busy := true })

/-- IMG_ERASE. -/
def Fab.imgErase (f : Fab) : Fab :=
  f.i3cFlash (fun f =>
    let o := f.otherSlot
    ((f.updMgmt (fun m => m.erase o (o + 0x800000))).flashBusy).i3cAnswer 0 [])

/-- IMG_WRITE of 1–256 bytes at an offset of the slot. -/
def Fab.imgWrite (f : Fab) (off : Nat) (data : List Nat) : Fab :=
  f.i3cFlash (fun f =>
    if data.length = 0 || 256 < data.length || 0x800000 < off + data.length then f.i3cAnswer 1 []
    else ((f.updMgmt (fun m => m.program (f.otherSlot + off) data)).flashBusy).i3cAnswer 0 [])

/-- IMG_ACTIVATE (R479): verify the slot, and write a new activation record. In recovery mode a verified image restarts start-up
from step 6 (R478). -/
def Fab.imgActivate (f : Fab) : Fab :=
  f.i3cFlash (fun f =>
    let o := f.otherSlot
    if !f.mgmt.slotOk o then f.i3cAnswer 4 []
    else
      let r := f.free 64
      let seq := if f.mgmt.running then f.mgmt.actSeq mgmtImg f.runSlot + 1 else r.1
      let f := if f.mgmt.running then f else r.2
      let f := f.updMgmt (fun m => (m.program (o + mgmtImg.act) (toBytes seq 8)).program (o + mgmtImg.act + 8) [0x7F])
      let f := f.flashBusy.i3cAnswer 0 []
      if f.mgmt.running then f.logEvent 0x000E 0 [o / 0x800000, 0x12]
      else (((f.set Reg.DEV_BOOTSTAT_RECOVERY 0).set Reg.DEV_BOOTSTAT_FAILED 0).set Reg.DEV_BOOTSTAT_ERR 0).stepDone 5 |>.alert
        f.anyAlarm)

/-- CONFIRM: the running slot becomes CONFIRMED. -/
def Fab.imgConfirm (f : Fab) : Fab :=
  f.i3cServe false (fun f =>
    let f := f.updMgmt (fun m => m.program (f.runSlot + mgmtImg.act + 8) [0x3F])
    (f.logEvent 0x000E 0 [f.get Reg.DEV_BOOTSTAT_SLOT, 0x13]).i3cAnswer 0 [])

/-- SVN_COMMIT: refused while the running slot is TRIAL (R479). -/
def Fab.svnCommit (f : Fab) : Fab :=
  f.i3cChange false (fun f =>
    let n := ofBytes ((f.mgmt.hdr.drop 4).take 4)
    if f.mgmt.actState mgmtImg f.runSlot = 0x7F then f.i3cAnswer 2 []
    else
      let f := if f.mgmt.svn < n then
          f.updMgmt (fun m => { m with otp := (List.range 3).foldl (fun o c => burnRow o (340 + c) (2 ^ n - 1)) m.otp })
        else f
      (f.logEvent 0x000E 0 [f.get Reg.DEV_BOOTSTAT_SLOT, 0x14]).i3cAnswer 0 [])

/-- ATTEST with a nonce of 32 bytes (R491, R492). -/
def Fab.i3cAttest (f : Fab) (nonce : List Nat) : Fab :=
  f.i3cServe false (fun f =>
    if nonce.length ≠ 32 then f.i3cAnswer 1 []
    else
      let f := f.attest nonce
      f.i3cAnswer 0 f.mgmt.report)

/-- CERT: the identity certificate, as DEV.CERT shows it (R492). -/
def Fab.i3cCert (f : Fab) : Fab := f.i3cServe false (fun f => f.i3cAnswer 0 (f.mgmt.flashBytes 0x2800000 0x2000))

/-- The ring positions of the event log from the first entry whose SEQ is at least `seq`, oldest first. -/
def Mgmt.logFrom (m : Mgmt) (seq : Nat) : List Nat :=
  if m.logSeq < seq then []
  else
    let ring := (List.range logEntries).map (fun i => (m.logPos + i) % logEntries)
    ring.dropWhile (fun p =>
      let o := logBase + 256 * p
      let code := m.flashNum (o + 20) 2
      let q := m.flashNum o 8
      code == 0xFFFE || q == 0 || q < seq || m.logSeq < q)

/-- LOG_READ (R488). -/
def Fab.logRead (f : Fab) (seq : Nat) : Fab :=
  f.i3cServe false (fun f =>
    f.i3cAnswer 0 (((f.mgmt.logFrom seq).map (fun p => f.mgmt.flashBytes (logBase + 256 * p) 256)).flatten))

/-! ### Life cycle (R481–R483) -/

/-- Fields of a token's body: the UID, FROM, TO, KEYIDX. -/
def tokUid (t : List Nat) : Nat := ofBytes (t.take 16)
def tokFrom (t : List Nat) : Nat := t.getD 16 0
def tokTo (t : List Nat) : Nat := t.getD 17 0
def tokKey (t : List Nat) : Nat := t.getD 48 0

/-- Transitions that LC_REQUEST makes (R482). -/
def lcAllowed (a b : Nat) : Bool := (a == 2 && b == 3) || (a == 3 && b == 4) || (a < 5 && b == 5)

/-- Does a token verify under R475: the signature block follows the 64-byte body? -/
def Mgmt.tokenOk (m : Mgmt) (t : List Nat) : Bool :=
  match m.vendorKey (tokKey t) with
  | some h => sigOk (t.drop 64) h (t.take 64)
  | none => false

/-- The lowest-numbered life-cycle word that is zero. -/
def Mgmt.lcFree (m : Mgmt) : Nat := ((List.range 6).find? (fun s => m.lcWord s == 0)).getD 5

/-- A permitted transition (R483). The seal is of the identity that this start-up derived (R484). -/
def Fab.lcGo (f : Fab) (a b : Nat) : Fab :=
  let key := f.mgmt.idKey
  let f := f.vaultWipe 2
  let w := f.mgmt.lcFree
  let f := f.updMgmt (fun m => { m with otp := (List.range 3).foldl (fun o c => burnRow o (64 + 3 * w + c) (lcCodes.getD b 0)) m.otp })
  let f : Fab := { f with mgmt := f.mgmt.append (f.get Reg.PWR_ETIME_COUNT) 0x0007 0 [a, b] }
  let f := f.sealWith key
  (f.porReset.updPwr (fun x => { x with porst := false })).set Reg.PWR_RSTCAUSE_PORST 1

/-- LC_REQUEST. -/
def Fab.lcRequest (f : Fab) (t : List Nat) : Fab :=
  f.i3cChange false (fun f =>
    let a := f.mgmt.lc
    if t.length ≠ 64 + sigLen then f.i3cAnswer 1 []
    else if tokFrom t ≠ a || !lcAllowed a (tokTo t) || (f.bit Reg.DEV_BOOTSTAT_DEGRADED && tokTo t ≠ 5) then f.i3cAnswer 2 []
    else if tokUid t ≠ f.mgmt.uid || !f.mgmt.tokenOk t then f.i3cAnswer 4 []
    else (f.i3cAnswer 0 []).lcGo a (tokTo t))

/-! ### Options (R472) -/

/-- Does the request carry 16 option words signed as an image body with SVN 0: header, signature block, body? -/
def Mgmt.optSigned (m : Mgmt) (t : List Nat) : Bool :=
  let h := t.take 256
  let num (o n : Nat) : Nat := ofBytes ((h.drop o).take n)
  match m.vendorKey (h.getD 28 0) with
  | some k => num 0 4 == 1 && num 4 4 == 0 && num 16 4 == 128 && sigOk ((t.drop 256).take sigLen) k h &&
      sha (t.drop (256 + sigLen)) == (h.drop 32).take 64
  | none => false

/-- Burn a generation: sixteen words in three copies, then the marker. -/
def burnGen (o : Store Nat) (g : Nat) (words : List Nat) : Store Nat :=
  let o := (List.range 48).foldl (fun o i => burnRow o (optRow g (i % 16) (i / 16)) (words.getD (i % 16) 0)) o
  (List.range 3).foldl (fun o c => burnRow o (328 + 3 * g + c) 0x5A5A5A5A5A5A5A5A) o

/-- OPT_BURN. -/
def Fab.optBurn (f : Fab) (t : List Nat) : Fab :=
  f.i3cChange false (fun f =>
    let g := match optGen f.mgmt.otp with
      | some g => g + 1
      | none => 0
    if t.length ≠ 256 + sigLen + 128 then f.i3cAnswer 1 []
    else if 4 ≤ g then f.i3cAnswer 2 []
    else if !f.mgmt.optSigned t then f.i3cAnswer 4 []
    else
      let body := t.drop (256 + sigLen)
      let words := (List.range 16).map (fun k => ofBytes ((body.drop (8 * k)).take 8))
      (f.updMgmt (fun m => { m with otp := burnGen m.otp g words })).i3cAnswer 0 [])

/-- FLASH_DONE: an erase or a program finishes (R487). -/
def Fab.flashDone (f : Fab) : Fab :=
  if f.mgmt.busy then (f.updMgmt (fun m => { m with busy := false })).raise 12 true else f

/-! ### The meanings -/

/-- Run an operation of the I3C target. -/
def onI3c (g : Fab → Fab) (s : State) : Host.Outcome State Fault Refusal := .next { s with fab := g s.fab }

/-- Bytes of a payload. -/
abbrev Bytes := List (BitVec 8)

/-- The numbers of bytes. -/
def byteNums (l : Bytes) : List Nat := l.map (fun b => b.toNat)

/-- STATUS. -/
def execStatus (s : State) : Host.Outcome State Fault Refusal := onI3c (fun f => f.i3cStatus) s

/-- SENSORS with an index. -/
def execSensors (i : BitVec 8) (s : State) : Host.Outcome State Fault Refusal := onI3c (fun f => f.i3cSensors i.toNat) s

/-- IMG_ERASE. -/
def execImgErase (s : State) : Host.Outcome State Fault Refusal := onI3c (fun f => f.imgErase) s

/-- IMG_WRITE. -/
def execImgWrite (off : BitVec 32) (data : Bytes) (s : State) : Host.Outcome State Fault Refusal :=
  onI3c (fun f => f.imgWrite off.toNat (byteNums data)) s

/-- IMG_ACTIVATE. -/
def execImgActivate (s : State) : Host.Outcome State Fault Refusal := onI3c (fun f => f.imgActivate) s

/-- CONFIRM. -/
def execConfirm (s : State) : Host.Outcome State Fault Refusal := onI3c (fun f => f.imgConfirm) s

/-- SVN_COMMIT. -/
def execSvnCommit (s : State) : Host.Outcome State Fault Refusal := onI3c (fun f => f.svnCommit) s

/-- ATTEST. -/
def execAttest (nonce : Bytes) (s : State) : Host.Outcome State Fault Refusal := onI3c (fun f => f.i3cAttest (byteNums nonce)) s

/-- CERT. -/
def execCert (s : State) : Host.Outcome State Fault Refusal := onI3c (fun f => f.i3cCert) s

/-- LOG_READ. -/
def execLogRead (seq : Word) (s : State) : Host.Outcome State Fault Refusal := onI3c (fun f => f.logRead seq.toNat) s

/-- LC_REQUEST. -/
def execLcRequest (token : Bytes) (s : State) : Host.Outcome State Fault Refusal := onI3c (fun f => f.lcRequest (byteNums token)) s

/-- OPT_BURN. -/
def execOptBurn (req : Bytes) (s : State) : Host.Outcome State Fault Refusal := onI3c (fun f => f.optBurn (byteNums req)) s

/-- FLASH_DONE. -/
def execFlashDone (s : State) : Host.Outcome State Fault Refusal := onI3c (fun f => f.flashDone) s

end Sys2Proof.Machine
end

