-- ==== Sys2Proof/Machine/Debug.lean ====
section
/-! DEFINITION. Run control of the engines (R530–R536), the packets of the DXW port that make no device access, and its unlocking
(R519–R528). -/

namespace Sys2Proof.Machine

/-! ### Halting engines (R530–R532) -/

/-- Does a running share in timed lock-step keep the engine from halting, stepping or resuming at once? Only a HOLDING share lets
it (R531, R534). -/
def Fab.lockHeld (f : Fab) (e : Nat) : Bool :=
  (f.engPart e).any (fun p => f.activeIn p e && f.lockMode p && f.st p ≠ 3)

/-- The IM offset of the bundle that an engine would issue next. -/
def Engine.nextPc (e : Engine) : Nat := if e.phase = .waitBoundary then e.get Ecs.DCFG_ENTRY * 4 else e.pc

/-- The engine halts, with its bit in DBG.EHALTED: cause and breakpoint as its request says. -/
def Fab.haltNow (f : Fab) (e c : Nat) : Fab :=
  ((f.perfHalt e).updEng e (fun x => x.doHalt (c % 4) (c / 4) x.nextPc)).set ⟨Reg.DBG_EHALTED (e / 64), e % 64, 1⟩ 1

/-- An engine that issues nothing: not released, or stopped by a double fault. -/
def Engine.idle (e : Engine) : Bool := e.phase == .unreleased || e.phase == .stopped

/-- EHALT of an engine (R530): an idle engine halts at once. -/
def Fab.ehalt (f : Fab) (e : Nat) : Fab :=
  let x := f.engine e
  if x.halted then f
  else if x.idle && !f.lockHeld e then f.haltNow e 0
  else f.setEng e { x with haltReq := some (x.haltReq.getD 0) }

/-- ENGINE_HALT: an engine with a request stands at a halt point. -/
def Fab.engineHalt (f : Fab) (e : Nat) : Fab :=
  let x := f.engine e
  match x.haltReq with
  | none => f
  | some c => if x.halted || x.trap.isSome || x.phase = .returning || f.lockHeld e then f else f.haltNow e c

/-- A halted engine goes on at ECS.DPC at its next ECLK, `now` or later (R535); where it waits for a boundary or is not released, it
goes on waiting. Its first bundle passes the breakpoint that names it. The ECLK it stood halted are not counted (R87). -/
def Engine.unhalt (e : Engine) (now : Nat) (step : Bool) : Engine :=
  let x : Engine := { e.set Ecs.DBGSTAT_HALTED 0 with
    halted := false, brkSkip := true, stepReq := step, cntT := max e.cntT (now - 1), loopBase := e.loops, loopEvs := [] }
  if x.phase = .running then x.startAt (x.get Ecs.DPC_PC * 4) (max (x.lastT + 1) now) else x

/-- Resume or step a halted engine. -/
def Fab.restart (f : Fab) (e now : Nat) (step : Bool) : Fab :=
  let f := (f.updEng e (fun x => x.unhalt now step)).set ⟨Reg.DBG_EHALTED (e / 64), e % 64, 1⟩ 0
  match f.engPart e with
  | some p => (f.barrierTry p now).holdCheck p now
  | none => f

/-- ERESUME of an engine (R535); `now` is the ECLK at which a HOLDING share may find that it can go on. -/
def Fab.eresume (f : Fab) (e now : Nat) : Fab := if (f.engine e).halted then f.restart e now false else f

/-- ESTEP of an engine (R534). -/
def Fab.estep (f : Fab) (e now : Nat) : Fab :=
  let x := f.engine e
  if !x.halted || x.idle || f.lockHeld e then f else f.restart e now true

/-- Act on every engine whose bit is set in a mask of `n` words of 64 engines from word `i`. -/
def Fab.onMask (f : Fab) (i mask n : Nat) (g : Fab → Nat → Fab) : Fab :=
  ((List.range (64 * n)).filter (fun j => mask.testBit j)).foldl (fun h j => g h (64 * i + j)) f

/-- A write to the DBG unit by a master: the Damson core, and the debug port while debug access is open (R541). -/
def Fab.byDbg (f : Fab) (m : Master) (a : Nat) (g : Fab → Fab) : Fab :=
  if m.code = 0 || (m.code = 1 && f.bit Reg.DBG_STAT_OPEN) then g f else if m.code = 1 then f else f.errLog m a 0 0

/-! ### The wire registers of DXW (R519–R525) -/

/-- The fabric with the wire registers changed. -/
def Fab.updDxw (f : Fab) (g : Dxw → Dxw) : Fab := { f with dxw := g f.dxw }

/-- STATUS of a packet (R520), first bit on the left. -/
def dxwAccept : Nat := 6
def dxwBusy : Nat := 3
def dxwReject : Nat := 12

/-- Answer a packet. -/
def Fab.dxwAnswer (f : Fab) (status : Nat) (v : Word) : Fab := f.emit (.dxw status v)

/-- Is debug access open (R524)? -/
def Fab.open_ (f : Fab) : Bool := f.bit Reg.DBG_STAT_OPEN

/-- An access over DXW fails (R523, R525). -/
def Fab.dxwErr (f : Fab) (n : Nat) : Fab := f.updDxw (fun x => { x with err := n, errV := true })

/-- Is a launched access in progress? -/
def Dxw.inProgress (x : Dxw) : Bool := x.acc.any (fun a => a.got.isNone)

/-- The value that a wire register reads (R522): 0 WID, 1 WCSR, 2 WADDR, 4 WCHAL. -/
def Fab.wireValue (f : Fab) (r : Nat) : Word :=
  let x := f.dxw
  if r = 0 then w64 0x00120192
  else if r = 1 then
    w64 (b2n f.open_ + 2 * b2n x.inc + 4 * b2n x.crcErr + 8 * x.err + 64 * b2n x.errV + 2 ^ 10 * b2n (x.check ≠ 0) +
      2 ^ 11 * b2n x.fail + 2 ^ 16 * x.lockout)
  else if r = 2 then w64 x.waddr
  else if r = 4 then w64 (natBits x.chal.toNat (64 * x.chalIdx) 64)
  else 0

/-- A packet to wire register `r` whose SYNC and CHK are right (R520, R521, R523, R525): nothing answers in OFF; BUSY while an
access is in progress; REJECT in SCRAPPED but for WID, after a CRC error but for a write of WCSR, and where debug access is closed;
otherwise ACCEPT, with the effect `g`. -/
def Fab.packet (f : Fab) (r : Nat) (wr : Bool) (g : Fab → Fab) : Fab :=
  if f.pwr.st = 0 then f
  else if f.dxw.inProgress then f.dxwAnswer dxwBusy 0
  else if (f.mgmt.lc = 5 && r ≠ 0) || (f.dxw.crcErr && !(wr && r = 1)) then f.dxwAnswer dxwReject 0
  else if (r = 2 || r = 3) && !f.open_ then (f.dxwErr 4).dxwAnswer dxwReject 0
  else g f

/-- A write packet: one whose CRC does not match is discarded and sets CRCERR (R521). -/
def Fab.packetWr (f : Fab) (r : Nat) (crc : Bool) (g : Fab → Fab) : Fab :=
  f.packet r true (fun f =>
    let f := f.dxwAnswer dxwAccept 0
    if crc then g f else f.updDxw (fun x => { x with crcErr := true }))

/-- WADDR moves on after an access of WDATA while INC is 1. -/
def Dxw.next (x : Dxw) : Dxw := if x.inc then { x with waddr := (x.waddr + 8) % 2 ^ 40 } else x

/-- WDATA_READ: the first launches the read, and one after the data have arrived returns them (R523). -/
def Fab.wdataRead (f : Fab) : Fab :=
  f.packet 3 false (fun f =>
    match f.dxw.acc with
    | some ⟨_, none, some v⟩ => (f.updDxw (fun x => { x with acc := none }.next)).dxwAnswer dxwAccept v
    | _ => (f.updDxw (fun x => { x with acc := some ⟨x.waddr, none, none⟩ })).dxwAnswer dxwBusy 0)

/-- WDATA_WRITE: accepted, and performed afterwards. -/
def Fab.wdataWrite (f : Fab) (v : Word) (crc : Bool) : Fab :=
  f.packetWr 3 crc (fun f => f.updDxw (fun x => { x with acc := some ⟨x.waddr, some v, none⟩ }.next))

/-- WCHAL_READ: the next 8 bytes of the challenge. -/
def Fab.wchalRead (f : Fab) : Fab :=
  f.packet 4 false (fun f =>
    (f.dxwAnswer dxwAccept (f.wireValue 4)).updDxw (fun x => { x with chalIdx := (x.chalIdx + 1) % 4 }))

/-- WUNLOCK_WRITE: 8 bytes join the unlock buffer, which holds 8 KiB. -/
def Fab.wunlockWrite (f : Fab) (v : Word) (crc : Bool) : Fab :=
  f.packetWr 5 crc (fun f => f.updDxw (fun x =>
    if x.buf.length + 8 ≤ 8192 then { x with buf := x.buf ++ toBytes v.toNat 8 } else x))

/-- A new challenge of the entropy source. -/
def Fab.newChal (f : Fab) : Fab :=
  { f.updDxw (fun x => { x with chal := BitVec.ofNat 256 (Config.entropy f.fresh), chalIdx := 0 }) with fresh := f.fresh + 1 }

/-- UNLK_PW (1) or UNLK_TOK (2): a check takes the buffer, unless one is in progress or the lockout lasts (R528). -/
def Fab.unlock (f : Fab) (method : Nat) : Fab :=
  if f.dxw.check ≠ 0 || f.dxw.lockout ≠ 0 then f
  else f.updDxw (fun x => { x with check := method, held := x.buf, buf := [] })

/-- A write of WCSR (R522): INC is set, the flags written 1 clear, and the actions follow in the order of their bits. -/
def Fab.wcsrWrite (f : Fab) (v : Word) : Fab :=
  let f := f.updDxw (fun x => { x with
    inc := v.getLsbD 1
    crcErr := x.crcErr && !v.getLsbD 2
    errV := x.errV && !v.getLsbD 6
    fail := x.fail && !v.getLsbD 11 })
  let f := if v.getLsbD 8 then f.unlock 1 else f
  let f := if v.getLsbD 9 then f.unlock 2 else f
  if v.getLsbD 12 then f.newChal else f

/-- A write of a wire register over DXW: WCSR or WADDR; the others have no effect here. -/
def Fab.wireWrite (f : Fab) (r : Nat) (v : Word) (crc : Bool) : Fab :=
  if r = 1 then f.packetWr 1 crc (fun f => f.wcsrWrite v)
  else if r = 2 then f.packetWr 2 crc (fun f => f.updDxw (fun x => { x with waddr := v.toNat % 2 ^ 40 / 8 * 8 }))
  else if r = 3 then f.wdataWrite v crc
  else if r = 5 then f.wunlockWrite v crc
  else f.packetWr r crc (fun f => f)

/-! ### Unlocking (R526–R528) -/

/-- Bit `i` of option word 4 (R472). -/
def Mgmt.reopen (m : Mgmt) (i : Nat) : Bool := (m.opts.getD 4 (optDefault 0 4)).testBit i

/-- Does a password verify (R526)? -/
def Mgmt.passOk (m : Mgmt) (l : List Nat) : Bool :=
  let h := keyHash m.otp 128 0
  l.length == 16 && m.reopen 0 && h.any (fun b => b ≠ 0) && sha (l ++ toBytes m.uid 16) == h

/-- Does a token verify (R527)? It fills whole words of 8 bytes of the buffer. -/
def Fab.unlockTok (f : Fab) (l : List Nat) : Bool :=
  let m := f.mgmt
  l.length == (64 + sigLen + 7) / 8 * 8 && m.reopen 1 && tokUid l == m.uid &&
    ofBytes ((l.drop 16).take 32) == f.dxw.chal.toNat && ((l.take 64).drop 49).all (fun b => b == 0) && m.tokenOk (l.take (64 + sigLen))

/-- UNLOCK_CHECK_DONE: the check passes and opens debug access, or fails and locks further checks out (R528). The challenge is
replaced. -/
def Fab.unlockDone (f : Fab) : Fab :=
  let x := f.dxw
  if x.check = 0 then f
  else
    let ok := if x.check = 1 then f.mgmt.passOk x.held else f.unlockTok x.held
    let f := (f.updDxw (fun x => { x with check := 0, held := [], fail := !ok })).newChal
    if ok then
      let f := f.updDxw (fun x => { x with fails := 0 })
      let f := ((f.set Reg.DBG_STAT_OPEN 1).set Reg.DBG_STAT_OPENED 1).set Reg.DBG_STAT_HOW x.check
      if f.fwUp then f.logEvent 0x000D 0 [x.check] else f
    else f.updDxw (fun y => { y with fails := y.fails + 1, lockout := min (2 ^ y.fails) 1024, tick := 0 })

/-! ### Halting the Damson core (R537, R490) -/

/-- The fabric with the Damson core changed. -/
def Fab.updDam (f : Fab) (g : Dam → Dam) : Fab := { f with dam := g f.dam }

/-- The Damson core stops before its next instruction. -/
def Fab.damStop (f : Fab) : Fab :=
  (({ f with dhalt := false }).updDam (fun d => { d with step := false })).set Reg.DBG_DSTAT_HALTED 1

/-- A halt that is requested acts at an instruction boundary outside a delay slot and a bus-locked sequence. -/
def Fab.damHaltTry (f : Fab) : Fab :=
  if f.dhalt && f.dam.slot.isNone && f.dam.ld.isNone && !f.dam.lock then f.damStop else f

/-- DBG.DCTL.HALT := 1; `late` says that a bus-locked sequence has lasted 64 MCLK since a halt was requested, which forces it. -/
def Fab.damHalt (f : Fab) (late : Bool) : Fab :=
  if !f.dam.started || f.bit Reg.DBG_DSTAT_HALTED then f
  else
    let force := late && f.dhalt && f.dam.lock
    let f : Fab := { f with dhalt := true }
    let f := if force then (f.updDam (fun d => { d with lock := false })).set Reg.DBG_DSTAT_LOCKLOST 1 else f
    f.damHaltTry

/-- DBG.DCTL.RESUME := 1: the core goes on at DBG.DPC; the watchdog is reloaded, and firmware serves the requests that wait. -/
def Fab.damResume (f : Fab) : Fab :=
  if !f.bit Reg.DBG_DSTAT_HALTED then f
  else
    let f := (f.set Reg.DBG_DSTAT_HALTED 0).set Reg.DBG_DSTAT_PBRK 0
    let f := (f.set Reg.DEV_WDOG_COUNT (f.get Reg.DEV_WDOG_PERIOD)).set Reg.DEV_WDOG_STAGE 0
    let f := (f.updDam (fun d => { d with step := false, skip := true })).mbxAdvance
    f.mbxDrain f.mbx.queue.length

/-- DBG.DCTL.STEP := 1: the halted core executes one instruction, with its delay slot. -/
def Fab.damStep (f : Fab) : Fab :=
  if f.bit Reg.DBG_DSTAT_HALTED then f.updDam (fun d => { d with step := true, skip := true }) else f

/-! ### The meanings -/

/-- Run a write of a DBG register about engine `e` by the master of a code. -/
def onEngDbg (m e a : Nat) (g : Fab → Fab) (s : State) : Host.Outcome State Fault Refusal :=
  if e < 192 then byMaster m a (fun f x => f.byDbg x a g) s else .refused .noSuchUnit

/-- EHALT: a write of 1 to the bit of an engine in DBG.EHALT. -/
def execEhalt (m e : Nat) (s : State) : Host.Outcome State Fault Refusal :=
  onEngDbg m e (Reg.DBG_EHALT (e / 64)) (fun f => f.ehalt e) s

/-- ENGINE_HALT. -/
def execEngineHalt (e : Nat) (s : State) : Host.Outcome State Fault Refusal :=
  if e < 192 then .next { s with fab := s.fab.clocked e (fun f => f.engineHalt e) } else .refused .noSuchUnit

/-- ESTEP. -/
def execEstep (m e now : Nat) (s : State) : Host.Outcome State Fault Refusal :=
  onEngDbg m e (Reg.DBG_ESTEP (e / 64)) (fun f => f.estep e now) s

/-- ERESUME. -/
def execEresume (m e now : Nat) (s : State) : Host.Outcome State Fault Refusal :=
  onEngDbg m e (Reg.DBG_ERESUME (e / 64)) (fun f => f.eresume e now) s

/-- DAMSON_HALT by the master of a code: a write of DBG.DCTL by the Damson core is discarded. -/
def execDamsonHalt (m : Nat) (late : Bool) (s : State) : Host.Outcome State Fault Refusal :=
  byMaster m Reg.DBG_DCTL (fun f x => f.byDbg x Reg.DBG_DCTL (fun f => if x.code = 0 then f else f.damHalt late)) s

/-- DAMSON_RESUME. -/
def execDamsonResume (m : Nat) (s : State) : Host.Outcome State Fault Refusal :=
  byMaster m Reg.DBG_DCTL (fun f x => f.byDbg x Reg.DBG_DCTL (fun f => if x.code = 0 then f else f.damResume)) s

/-- DAMSON_STEP: the next DAMSON_INSTRUCTION executes. -/
def execDamsonStep (m : Nat) (s : State) : Host.Outcome State Fault Refusal :=
  byMaster m Reg.DBG_DCTL (fun f x => f.byDbg x Reg.DBG_DCTL (fun f => if x.code = 0 then f else f.damStep)) s

/-- DXW_RESYNC: the packet logic waits for SYNC; no register changes (R521). -/
def execDxwResync (s : State) : Host.Outcome State Fault Refusal := .next s

/-- WDATA_READ. -/
def execWdataRead (s : State) : Host.Outcome State Fault Refusal := .next { s with fab := s.fab.wdataRead }

/-- WDATA_WRITE; `crc` says that the packet's CRC matches. -/
def execWdataWrite (v : Word) (crc : Bool) (s : State) : Host.Outcome State Fault Refusal :=
  .next { s with fab := s.fab.wdataWrite v crc }

/-- WCHAL_READ. -/
def execWchalRead (s : State) : Host.Outcome State Fault Refusal := .next { s with fab := s.fab.wchalRead }

/-- WUNLOCK_WRITE. -/
def execWunlockWrite (v : Word) (crc : Bool) (s : State) : Host.Outcome State Fault Refusal :=
  .next { s with fab := s.fab.wunlockWrite v crc }

/-- CHALNEW: a write of WCSR with bit 12 at 1; `v` holds the other bits. -/
def execChalnew (v : Word) (crc : Bool) (s : State) : Host.Outcome State Fault Refusal :=
  .next { s with fab := s.fab.wireWrite 1 (v ||| 0x1000) crc }

/-- UNLK_PW: a write of WCSR with bit 8 at 1. -/
def execUnlkPw (v : Word) (crc : Bool) (s : State) : Host.Outcome State Fault Refusal :=
  .next { s with fab := s.fab.wireWrite 1 (v ||| 0x100) crc }

/-- UNLK_TOK: a write of WCSR with bit 9 at 1. -/
def execUnlkTok (v : Word) (crc : Bool) (s : State) : Host.Outcome State Fault Refusal :=
  .next { s with fab := s.fab.wireWrite 1 (v ||| 0x200) crc }

/-- UNLOCK_CHECK_DONE. -/
def execUnlockCheckDone (s : State) : Host.Outcome State Fault Refusal := .next { s with fab := s.fab.unlockDone }

end Sys2Proof.Machine
end

