-- ==== Sys2Proof/Machine/RegAccess.lean ====
section
/-! DEFINITION. Accesses to the device registers by the Damson core, the debug port and the hosts: the access codes (R8–R11), the
unit windows (R233), what a write of each register does, and what a read returns. -/

namespace Sys2Proof.Machine

/-! ### One write (R8–R10) -/

/-- A write of a register: its address, the value with 0 in the half that is not addressed, and the bits addressed. -/
structure RegWr where
  r  : Nat
  v  : Word
  hm : Word
  deriving DecidableEq, Repr

/-- The write that an aligned access of 4 or 8 bytes at `a` makes. -/
def regWr (a n v : Nat) : RegWr :=
  if n = 8 then ⟨a, w64 v, w64 (2 ^ 64 - 1)⟩
  else if a % 8 = 0 then ⟨a, w64 (v % 2 ^ 32), w64 (2 ^ 32 - 1)⟩
  else ⟨a - 4, w64 (v % 2 ^ 32 * 2 ^ 32), w64 (2 ^ 64 - 2 ^ 32)⟩

/-- Is the low half addressed? -/
def RegWr.low (w : RegWr) : Bool := w.hm.getLsbD 0

/-- Is the high half addressed? -/
def RegWr.high (w : RegWr) : Bool := w.hm.getLsbD 63

/-- The whole value after the write, where every addressed bit is taken. -/
def RegWr.full (w : RegWr) (old : Word) : Word := w.v ||| (old &&& ~~~w.hm)

/-- Is the register's lock set (R8, R489, R539)? -/
def Fab.locked (f : Fab) (r : Nat) : Bool := if r = Reg.DEV_WDOG then f.bit Reg.DEV_WDOG_LOCK else f.bit Reg.PATCH_LOCK_LOCK

/-- A write under the access codes of R8: fields that software sets are taken, fields that a write of 1 clears are cleared, a
field with a lock is taken until the lock is set, and a write-once field by the first write. -/
def Fab.genWrite (f : Fab) (w : RegWr) : Fab :=
  match famAt w.r with
  | none => f
  | some x =>
    let old := f.reg w.r
    let first := !f.once.contains w.r
    let rw := (w64 x.rw ||| (if f.locked w.r then 0 else w64 x.lock) ||| (if first then w64 x.once else 0)) &&& w.hm
    let f := f.setReg w.r ((w.v &&& rw) ||| (old &&& ~~~rw &&& ~~~(w.v &&& w64 x.w1c)))
    if first && (w.hm &&& w64 x.once) ≠ 0 then { f with once := w.r :: f.once } else f

/-- A field of the value written, or of the register where it is not addressed. -/
def Fab.wrFld (f : Fab) (w : RegWr) (x : Fld) : Nat := fget (w.full (f.reg w.r)) x.lo x.w

/-- After a write, a field that holds less than `lo` holds `lo`. -/
def Fab.atLeast (f : Fab) (x : Fld) (lo : Nat) : Fab := if f.get x < lo then f.set x lo else f

/-- After a write, a field that holds more than `hi` holds `hi`. -/
def Fab.atMost (f : Fab) (x : Fld) (hi : Nat) : Fab := if hi < f.get x then f.set x hi else f

/-! ### Windows (R233) -/

/-- Is the address one of the holes of R233? -/
def regHole (a : Nat) : Bool :=
  (0x0200060000 ≤ a && a < 0x0200100000) || (0x0200900000 ≤ a && a < 0x0201000000)

/-- Is the address in the sensor hub or the patch units, whose registers the spec lays out in the management region? -/
def mgmtRegs (a : Nat) : Bool := (0x0300A40000 ≤ a && a < 0x0300A41000) || (0x0300A70000 ≤ a && a < 0x0300A71000)

/-- Does an access at the address go to device registers? -/
def isRegAddr (a : Nat) : Bool := inRegs a || mgmtRegs a

/-- The device address of a host port in `Master.code`. -/
def Master.port (m : Master) : Option Nat := if 2 ≤ m.code && m.code ≤ 5 then some (m.code - 2) else none

/-- Is the master a host? -/
def Master.isHost (m : Master) : Bool := m.port.isSome

/-- Does the master reach the registers at an address (R233, R375, R403)? The units of a host's partitions are reached through their
partition windows. -/
def regReach (m : Master) (a : Nat) : Bool :=
  if mgmtRegs a then m.code == 0
  else if m.code ≤ 1 || (m.code == 6 && m.all) then true
  else
    match m.port with
    | none => false
    | some n =>
      a < 0x0200010000 ||
      (0x0200010000 ≤ a && a < 0x0200030000 && m.parts ≠ 0) ||
      (Reg.HP_STAT n ≤ a && a < Reg.HP_STAT n + 0x100) ||
      (Reg.MGMT_MBX_CTL n ≤ a && a < Reg.MGMT_MBX_CTL n + 0x1000) ||
      (0x0200700000 ≤ a && a < 0x0200710000) ||
      (0x0200100000 ≤ a && a < 0x0200110000 && m.parts ≠ 0) ||
      (0x0200400000 ≤ a && a < 0x0200408000 && m.parts.testBit ((a - 0x0200400000) / 0x1000)) ||
      (0x0200201000 ≤ a && a < 0x0200201800 && m.parts.testBit ((a - 0x0200201000) / 0x100))

/-! ### Writes, unit by unit -/

/-- DEV.FEAT_ACCEPT of port `n` (R379): while a partition is bound, refused; otherwise the offered bits are stored. -/
def Fab.featWrite (f : Fab) (n : Nat) (v : Word) : Fab :=
  if f.get (Reg.HP_BIND_PARTS n) ≠ 0 then f.refuseFeat n 127
  else f.setReg (Reg.DEV_FEAT_ACCEPT n) (v &&& f.reg Reg.DEV_FEAT_OFFER)

/-- The DEV unit. -/
def Fab.wrDevUnit (f : Fab) (m : Master) (w : RegWr) : Fab :=
  if 0x0200000110 ≤ w.r && w.r < 0x0200000150 then
    let n := (w.r - 0x0200000110) / 16
    if m.isHost && m.port ≠ some n then f
    else f.featWrite n (if w.r % 16 = 0 then w.full (f.reg (Reg.DEV_FEAT_ACCEPT n)) else f.reg (Reg.DEV_FEAT_ACCEPT n))
  else if m.code ≠ 0 then f
  else if w.r = Reg.DEV_WDOG then
    let f := (f.genWrite w).atLeast Reg.DEV_WDOG_PERIOD 1
    if w.low then f.wdogKick m (fget w.v 24 8) else f
  else f.genWrite w

/-- The ISC unit (R440). -/
def Fab.wrIsc (f : Fab) (m : Master) (w : RegWr) : Fab :=
  if w.r = Reg.ISC_CTL then (if m.code = 0 && w.low then f.writeIscCtl w.v else f)
  else if w.r = Reg.ISC_STAT then (if m.isHost then f else f.genWrite w)
  else if w.r = Reg.ISC_DOORBELL then (if w.low then f.iscDoorbell m w.v else f)
  else if w.r < 0x0200011000 then (if m.code = 0 then f.genWrite w else f)
  else if w.r < 0x0200015000 then
    let s := (w.r - 0x0200011000) / 64
    let o := w.r % 64
    if !isSource s || !f.ownsSource m s then f
    else if o = 0 then f.writeScfg s (w.full (f.reg w.r))
    else if 8 ≤ o && o < 40 then f.writeSmask s ((o - 8) / 8) (w.full (f.reg w.r))
    else if o = 56 && w.low then f.sraise m s (w.v.getLsbD 0)
    else f
  else if w.r = Reg.ISC_TEOI then (if m.code = 0 then f.eoi 192 else f)
  else if 0x0200015010 ≤ w.r && w.r < 0x0200015038 && w.low then
    let t := (w.r - 0x0200015010) / 8
    let s := fget w.v 0 8
    -- a host completes through the window of the source's owner (R435)
    if t = 0 && m.code = 0 || m.port = some (t - 1) && t ≠ 0 && (!isSource s || f.ownsSource m s) then f.complete s (192 + t) else f
  else f

/-- The registers of a DMA channel (R421): DISABLE acts, and a START beside it is discarded. -/
def Fab.wrChan (f : Fab) (m : Master) (w : RegWr) (k : Nat) : Fab :=
  let running := f.get (Reg.DMA_CH_STAT_STATE k) = 1
  if w.r = Reg.DMA_CH_CTL k then
    if w.v.getLsbD 1 then
      let f := f.dmaDisable k
      if w.v.getLsbD 0 then f.set (Reg.DMA_CH_STAT_STARTERR k) 1 else f
    else if w.v.getLsbD 0 then f.dmaStart m k
    else f
  else if w.r = Reg.DMA_CH_CFG k then
    (if running then f else ((f.genWrite w).atLeast (Reg.DMA_CH_CFG_BUDGET k) 1).atLeast (Reg.DMA_CH_CFG_BUFMAX k) 1)
  else if w.r = Reg.DMA_CH_HEAD k then (if running then f else f.genWrite w)
  else f.genWrite w

/-- The DMA unit (R420). -/
def Fab.wrDma (f : Fab) (m : Master) (w : RegWr) : Fab :=
  if w.r = Reg.DMA_CTL then (if m.code = 0 && w.low then f.dmaCtl (w.v.getLsbD 0) else f)
  else if 0x0200021000 ≤ w.r && w.r < 0x0200021800 then
    let k := (w.r - 0x0200021000) / 64
    if !m.isHost || (f.chanPart k).any (fun p => m.parts.testBit p) then f.wrChan m w k else f
  else f

/-- The MEM unit (R257, R254, R266). -/
def Fab.wrMemUnit (f : Fab) (m : Master) (w : RegWr) : Fab :=
  if Reg.MEM_DOWNER 0 ≤ w.r && w.r < Reg.MEM_DOWNER 2048 then
    (if !w.low then f else if m.code = 0 then f.ownerWrite true ((w.r - Reg.MEM_DOWNER 0) / 8) w.v.toNat else f.ownErr)
  else if Reg.MEM_OWNER 0 ≤ w.r && w.r < Reg.MEM_OWNER 48 then
    (if !w.low then f else if m.code = 0 then f.ownerWrite false ((w.r - Reg.MEM_OWNER 0) / 8) w.v.toNat else f.ownErr)
  else if w.r = Reg.MEM_CBSTATE then f.bstateWrite true 0 0 (w.v ||| ~~~w.hm)
  else if Reg.MEM_BSTATE0 0 ≤ w.r && w.r < Reg.MEM_BSTATE0 24 && w.r % 0x80 < 0x48 then
    f.bstateWrite false ((w.r - Reg.MEM_BSTATE0 0) / 0x80) (w.r % 0x80 / 8) (w.v ||| ~~~w.hm)
  else f.genWrite w

/-- The SCRUB unit (R294, R295). -/
def Fab.wrScrub (f : Fab) (m : Master) (w : RegWr) : Fab :=
  if w.r = Reg.SCRUB_INJECT then
    f.scrubInject m ((w.full (f.reg w.r) &&& w64 (2 ^ 63 - 1)) ||| (w.v &&& w64 (2 ^ 63)))
  else if w.r = Reg.SCRUB_PERIOD then
    let f := ((f.genWrite w).atLeast Reg.SCRUB_PERIOD_SRAM 1).atLeast Reg.SCRUB_PERIOD_DDR 1
    (f.atMost Reg.SCRUB_PERIOD_SRAM 0x2A300).atMost Reg.SCRUB_PERIOD_DDR 0x2A300
  else f.genWrite w

/-- The TEST unit (R296). -/
def Fab.wrTest (f : Fab) (m : Master) (w : RegWr) : Fab :=
  if 0x0200050800 ≤ w.r && m.code ≠ 0 then f else f.genWrite w

/-- LINK.CTL (R335): FEC outside training and use, then EN, then RETRAIN. -/
def Fab.wrLinkCtl (f : Fab) (w : RegWr) (c : Nat) : Fab :=
  let fec := f.get (Reg.LINK_CTL_FEC c)
  let en := f.get (Reg.LINK_CTL_EN c)
  let still := f.lst c = lsDisabled || f.lst c = lsDown
  let f := f.genWrite w
  let new := f.get (Reg.LINK_CTL_EN c)
  let f := f.set (Reg.LINK_CTL_EN c) en
  let f := if still then f else f.set (Reg.LINK_CTL_FEC c) fec
  let f := if w.low then f.linkEn c (new == 1) else f
  if w.v.getLsbD 1 then f.linkRetrain c else f

/-- The LINK unit (R334, R335); hosts only read it. -/
def Fab.wrLink (f : Fab) (m : Master) (w : RegWr) (now : Nat) : Fab :=
  if m.isHost then f
  else if w.r < 0x0200110000 then
    let c := (w.r - 0x0200100000) / 0x1000
    if w.r = Reg.LINK_CTL c then f.wrLinkCtl w c
    else if w.r = Reg.LINK_LAT c then (if w.low then f.linkLat c (fget w.v 0 12) else f)
    else if w.r = Reg.LINK_STAT c then
      let was := f.bit (Reg.LINK_STAT_TBLERR c)
      let f := f.genWrite w
      match f.portPart c with
      | some p => if was && !f.bit (Reg.LINK_STAT_TBLERR c) then f.readyCheck p now else f
      | none => f
    else f.genWrite w
  else if w.r = Reg.LINK_TBCTL && w.low then
    -- the timebase of the root is valid once PARENT is set (R322)
    let f := f.genWrite w
    if f.get Reg.LINK_TBCTL_PARENT = 0x1F then f.set Reg.LINK_TBCTL_VALID 1 else f
  else f.genWrite w

/-- The bits that the fields of a partition register take (R400). -/
def hpMask (a : Nat) : Word :=
  let o := (a - 0x0200201000) % 0x100
  if o = 0 then w64 0x1FFF0000001F else if o < 0x20 then w64 (2 ^ 64 - 1) else if o = 0x20 then w64 (2 ^ 40 - 1) else w64 (2 ^ 32 - 1)

/-- Is the register the active-engine mask of a share that is neither STOPPED nor HALTED (R16)? -/
def Fab.maskHeld (f : Fab) (r : Nat) : Bool :=
  (List.range 8).any (fun p => (List.range 3).any (fun i => r == Reg.HP_PACTIVE p i) && !f.atRest p)

/-- The HP unit (R400): management firmware writes the partition registers. -/
def Fab.wrHp (f : Fab) (m : Master) (w : RegWr) : Fab :=
  if 0x0200201000 ≤ w.r then
    (if m.code = 0 && (famAt w.r).isSome && !f.maskHeld w.r then f.setReg w.r (w.full (f.reg w.r) &&& hpMask w.r) else f)
  else f.genWrite w

/-- The DDR unit (R455): a retraining meets the modules that answered before. -/
def Fab.wrDdr (f : Fab) (m : Master) (w : RegWr) : Fab :=
  if m.code ≠ 0 then f
  else if w.r = Reg.DDR_CTL then (if w.v.getLsbD 0 then f.ddrRetrain m f.dimms else f)
  else f.genWrite w

/-- The feature for want of which a write of SQ.CTL is refused (R379, R380): that of the lowest bit, where several are. -/
def Fab.ctlRefused (f : Fab) (p : Nat) (v : Word) : Option Nat :=
  let mode := if f.atRest p then v.getLsbD 0 || f.bit (Reg.HP_PCFG_DX48 p) else f.barrierMode p
  if v.getLsbD 0 && !f.partFeat p 2 then some 2
  else if v.getLsbD 1 && !mode && !f.partFeat p 1 then some 1
  else if v.getLsbD 6 && !f.partFeat p 11 then some 11
  else none

/-- SQ.CTL of partition `p` (R370): its bits act in increasing order; a write that one of them refuses is discarded whole. -/
def Fab.wrSqCtl (f : Fab) (m : Master) (w : RegWr) (p now : Nat) : Fab :=
  if !w.low then f
  else if (f.ctlRefused p w.v).isSome then f.refuseFeat (f.portOf p) ((f.ctlRefused p w.v).getD 0)
  else
    let b (i : Nat) : Bool := w.v.getLsbD i
    let f := if b 0 = f.bit (Reg.SQ_CTL_RUNMODE p) then f else f.sqRunmode p (b 0)
    let f := if b 1 then f.sqGo p now else f
    let f := if b 2 then f.sqStop p else f
    let f := if m.code = 0 then f.sqHoldreq p (b 3) now else f
    let f := if b 4 then f.sqClear p else f
    let f := if b 5 then f.sqJreset p else f
    if b 6 = f.bit (Reg.SQ_CTL_CAPEN p) then f else f.sqCapen p (b 6)

/-- A register of a partition that is written only at rest (R370), with the bounds of its fields. -/
def Fab.wrSqRest (f : Fab) (w : RegWr) (p : Nat) : Fab :=
  if !f.atRest p then f
  else
    let f := f.genWrite w
    if w.r = Reg.SQ_INTERVAL p then f.atLeast (Reg.SQ_INTERVAL_EARLY p) 1
    else if w.r = Reg.SQ_TIMING p then f.atLeast (Reg.SQ_TIMING_RETRYMAX p) 1
    else if w.r = Reg.SQ_JCFG p then (f.atLeast (Reg.SQ_JCFG_DSIZE p) 1).atMost (Reg.SQ_JCFG_DSIZE p) 256
    else f

/-- The DCN latched by committed-view reads is released: a 1 clears VALID and MIXED (R365). -/
def Fab.cvClear (f : Fab) (valid mixed : Fld) (w : RegWr) : Fab :=
  if w.v.getLsbD 0 then (f.set valid 0).set mixed 0 else f

/-- A register of partition `p` in the SQ unit. -/
def Fab.wrSqPart (f : Fab) (m : Master) (w : RegWr) (p now : Nat) : Fab :=
  let o := w.r - Reg.SQ_CTL p
  if o = 0 then f.wrSqCtl m w p now
  else if w.r = Reg.SQ_INTERVAL p || w.r = Reg.SQ_TREE p || w.r = Reg.SQ_TIMING p || w.r = Reg.SQ_SCHED p ||
      w.r = Reg.SQ_JCFG p then f.wrSqRest w p
  else if w.r = Reg.SQ_DCN p then f.sqDcn p (w.full (f.reg w.r)).toNat
  else if w.r = Reg.SQ_VIEW_CTL p && w.v.getLsbD 0 && !f.partFeat p 10 then f.refuseFeat (f.portOf p) 10
  else if w.r = Reg.SQ_VIEW_CTL p then
    let f := f.genWrite { w with v := (w.v &&& ~~~(1 : Word)) ||| (f.reg w.r &&& 1 &&& w.hm) }
    if w.low then f.viewReq p (w.v.getLsbD 0) else f
  else if w.r = Reg.SQ_CVFLAGS p then f.cvClear (Reg.SQ_CVFLAGS_VALID p) (Reg.SQ_CVFLAGS_MIXED p) w
  else if 0x100 ≤ o && o < 0x140 && o % 16 = 8 then
    let q := (o - 0x100) / 16
    if q < 2 then (if w.low then f.ringPtr p q (fget w.v 0 32) now else f)
    else if w.high then f.ringPtr p q (fget w.v 32 32) now else f
  else if 0x100 ≤ o && o < 0x140 then
    let q := (o - 0x100) / 16
    ((f.genWrite w).atLeast (Reg.SQ_BASE_LOG2SIZE p q) 12).atMost (Reg.SQ_BASE_LOG2SIZE p q) 30
  else f.genWrite w

/-- The granules whose bit of SQ.JDDR(i) the Damson core may change now: of no partition, or of one at rest (R370). -/
def Fab.jddrOpen (f : Fab) (i : Nat) : Word :=
  w64 ((List.range 64).foldl (fun m j => if (f.granPart (64 * i + j)).all f.atRest then m + 2 ^ j else m) 0)

/-- The SQ unit. -/
def Fab.wrSq (f : Fab) (m : Master) (w : RegWr) (now : Nat) : Fab :=
  if w.r < 0x0200408000 then f.wrSqPart m w ((w.r - 0x0200400000) / 0x1000) now
  else if m.isHost then f
  else if w.r = Reg.SQ_MCVFLAGS then f.cvClear Reg.SQ_MCVFLAGS_VALID Reg.SQ_MCVFLAGS_MIXED w
  else if 0x020040A000 ≤ w.r && w.r < 0x020040A100 then
    (if m.code = 0 then f.genWrite { w with v := w.v &&& f.jddrOpen ((w.r - 0x020040A000) / 8) ||| (f.reg w.r &&& w.hm &&&
        ~~~f.jddrOpen ((w.r - 0x020040A000) / 8)) } else f)
  else if 0x0200408800 ≤ w.r && w.r < 0x0200409400 then
    (if m.code = 0 && (f.unitPart ((w.r - 0x0200408800) / 0x80)).all f.atRest then f.genWrite w else f)
  else f.genWrite w

/-- A write of PWR.AVS (R560): TARGET stays within 700 to 850 mV, and firmware reports a change to the BMC (R568). -/
def Fab.avsWrite (f : Fab) (w : RegWr) : Fab :=
  let g := ((f.genWrite w).atLeast Reg.PWR_AVS_TARGET 700).atMost Reg.PWR_AVS_TARGET 850
  let mv := g.get Reg.PWR_AVS_TARGET
  if mv = f.get Reg.PWR_AVS_TARGET then g else g.emit (.avsTarget mv)

/-- The PWR unit (R562). -/
def Fab.wrPwr (f : Fab) (m : Master) (w : RegWr) : Fab :=
  if m.code ≠ 0 then f
  else if w.r = Reg.PWR_SLEEP then (if w.low then f.sleepReq m w.v else f)
  else if w.r = Reg.PWR_LINKWAKE then (if w.low then f.linkWake m (fget w.v 0 16) else f)
  else if w.r = Reg.PWR_AVS then f.avsWrite w
  else if Reg.PWR_ECLK 0 ≤ w.r && w.r < Reg.PWR_ECLK 6 then
    (if w.low then f.eclkWrite m ((w.r - Reg.PWR_ECLK 0) / 8) (fget w.v 0 8) else f)
  else if Reg.PWR_BLOCK 0 ≤ w.r && w.r < Reg.PWR_BLOCK 24 then
    (if w.low then f.blockReq m ((w.r - Reg.PWR_BLOCK 0) / 8) (fget w.v 0 2) else f)
  else f.genWrite w

/-- A mailbox of port `n` (R385): registers, then the request buffer. -/
def Fab.wrMbx (f : Fab) (w : RegWr) : Fab :=
  let n := (w.r - 0x0200600000) / 0x1000
  let o := w.r % 0x1000
  if 4 ≤ n then f
  else if o = 0 then (if w.low then f.doorbell n w.v else f)
  else if 0x400 ≤ o && o < 0x800 then
    let i := 128 * n + (o - 0x400) / 8
    f.updMbx (fun x => { x with req := Store.set 0 x.req i (w.full (Store.get 0 x.req i)) })
  else f.genWrite w

/-- The UMX window (R517): the Damson core writes UMX.REQ. -/
def Fab.wrUmx (f : Fab) (m : Master) (w : RegWr) : Fab :=
  if w.r = Reg.UMX_REQ && w.low then f.umxReq m (fget w.v 0 8) (fget w.v 8 32) else f

/-- DBG.DCTL (R537): its bits act in increasing order; a write by the Damson core is discarded. -/
def Fab.wrDctl (f : Fab) (m : Master) (w : RegWr) : Fab :=
  if m.code = 0 then f
  else
    let f := if w.v.getLsbD 0 then f.damHalt false else f
    let f := if w.v.getLsbD 1 then f.damResume else f
    if w.v.getLsbD 2 then f.damStep else f

/-- The DBG unit but for DBG.MDATA (R541). -/
def Fab.wrDbg (f : Fab) (m : Master) (w : RegWr) (now : Nat) : Fab :=
  f.byDbg m w.r (fun f =>
    let halted := f.bit Reg.DBG_DSTAT_HALTED
    let i (base : Nat) : Nat := (w.r - base) / 8
    if Reg.DBG_EHALT 0 ≤ w.r && w.r < Reg.DBG_EHALT 3 then f.onMask (i (Reg.DBG_EHALT 0)) w.v.toNat 1 (fun g e => g.ehalt e)
    else if Reg.DBG_ERESUME 0 ≤ w.r && w.r < Reg.DBG_ERESUME 3 then
      f.onMask (i (Reg.DBG_ERESUME 0)) w.v.toNat 1 (fun g e => g.eresume e now)
    else if Reg.DBG_ESTEP 0 ≤ w.r && w.r < Reg.DBG_ESTEP 3 then
      f.onMask (i (Reg.DBG_ESTEP 0)) w.v.toNat 1 (fun g e => g.estep e now)
    else if w.r = Reg.DBG_DCTL then f.wrDctl m w
    else if w.r = Reg.DBG_DPC || w.r = Reg.DBG_DSR || (Reg.DBG_DREG 1 ≤ w.r && w.r < Reg.DBG_DREG 32) then
      (if halted then f.genWrite w else f)
    else if w.r = Reg.DBG_DREG 0 || w.r = Reg.DBG_MDATA then f
    else f.genWrite w)

/-- A write of a device register. -/
def Fab.wrUnit (f : Fab) (m : Master) (w : RegWr) (now : Nat) : Fab :=
  if mgmtRegs w.r then
    let before := f.anyAlarm
    if w.r < 0x0300A70000 then (f.genWrite w).alarmSync before else f.genWrite w
  else if w.r < 0x0200010000 then f.wrDevUnit m w
  else if w.r < 0x0200020000 then f.wrIsc m w
  else if w.r < 0x0200030000 then f.wrDma m w
  else if w.r < 0x0200040000 then f.wrMemUnit m w
  else if w.r < 0x0200050000 then f.wrScrub m w
  else if w.r < 0x0200060000 then f.wrTest m w
  else if w.r < 0x0200200000 then f.wrLink m w now
  else if w.r < 0x0200300000 then f.wrHp m w
  else if w.r < 0x0200400000 then f.wrDdr m w
  else if w.r < 0x0200500000 then f.wrSq m w now
  else if w.r < 0x0200600000 then f.wrPwr m w
  else if w.r < 0x0200700000 then f.wrMbx w
  else if w.r < 0x0200800000 then f.wrUmx m w
  else f.wrDbg m w now

/-- A write access of `n` bytes at a register address (R10, R11, R233, R234). -/
def Fab.regWrite (f : Fab) (m : Master) (a n v now : Nat) : Acc :=
  if regHole a || !regReach m a then ⟨0, false, true, false, f.errLog m a 0 0⟩
  else if f.pwr.st = 2 && !unitAwake a then ⟨0, false, true, false, f.errLog m a 1 0⟩
  else if !regAligned a n then ⟨0, false, false, false, f⟩
  else ⟨0, false, false, false, f.wrUnit m (regWr a n v) now⟩

/-! ### Reads -/

/-- Eight bytes of a list from an offset. -/
def listWord (l : List Nat) (o : Nat) : Word := w64 (ofBytes ((l.drop o).take 8))

/-- ISC.TSTAT of a target as a master sees it (R440): a host sees its own sources alone in PEND. -/
def Fab.tstatValue (f : Fab) (m : Master) (t : Nat) : Word :=
  let v := f.reg (Reg.ISC_TSTAT t)
  if m.code ≤ 1 then v
  else fset v 13 1 (b2n (f.pres.any (fun x => x.2 == t && !f.bit (Reg.ISC_SCFG_DEV x.1) &&
    m.parts.testBit (f.get (Reg.ISC_SCFG_OWNER x.1)))))

/-- The value of a register of the ISC as a master reads it, with nothing claimed. -/
def Fab.iscValue (f : Fab) (m : Master) (r : Nat) : Word :=
  if 0x0200011040 ≤ r && r < 0x0200015000 then
    let s := (r - 0x0200011000) / 64
    if m.port.isSome && !f.ownsSource m s then 0
    else if r % 64 = 48 then w64 (f.peekSclaim s)
    else f.reg r
  else if r = Reg.ISC_TCLAIM then (if m.code ≤ 1 then w64 (f.peekClaim 192) else 0)
  else if 0x0200016000 ≤ r && r < 0x0200016628 then
    let t := (r - 0x0200016000) / 8
    let own := t < 192 && (f.engPart t).any (fun p => m.parts.testBit p) || m.port = some (t - 193) && 193 ≤ t
    if m.port.isSome && !own then 0 else f.tstatValue m t
  else f.reg r

/-- The value of a device register as a master reads it, without side effect. -/
def Fab.regValue (f : Fab) (m : Master) (r : Nat) : Word :=
  if r < 0x0200010000 then
    if 0x0200004000 ≤ r && r < 0x0200005000 then listWord f.mgmt.report (r - 0x0200004000)
    else if 0x0200006000 ≤ r && r < 0x0200008000 then w64 (f.mgmt.flashNum (0x2800000 + (r - 0x0200006000)) 8)
    else f.reg r
  else if r < 0x0200020000 then f.iscValue m r
  else if 0x0200021000 ≤ r && r < 0x0200021800 && m.port.isSome &&
      !(f.chanPart ((r - 0x0200021000) / 64)).any (fun p => m.parts.testBit p) then 0
  else if 0x0200100000 ≤ r && r < 0x0200110000 && m.port.isSome &&
      !(f.portPart ((r - 0x0200100000) / 0x1000)).any (fun p => m.parts.testBit p) then 0
  else if 0x0200600000 ≤ r && r < 0x0200604000 && 0x400 ≤ r % 0x1000 && r % 0x1000 < 0xC00 then
    let i := 128 * ((r - 0x0200600000) / 0x1000) + r % 0x400 / 8
    if r % 0x1000 < 0x800 then Store.get 0 f.mbx.req i else Store.get 0 f.mbx.rsp i
  else if Reg.PWR_ECLK 0 ≤ r && r < Reg.PWR_ECLK 6 then
    fset (f.reg r) 9 1 (b2n (f.get Reg.LINK_TBCTL_PARENT ≠ 0x1F && f.bit Reg.LINK_TBCTL_VALID && !f.bit Reg.LINK_TBCTL_HOLDOVER))
  else if r = Reg.LINK_TB then w64 f.tbNow
  else if r = Reg.PWR_DROOPCTL then fset (f.reg r) 1 1 (b2n ((List.range 8).any f.lockMode))
  else if r = Reg.UMX_ID then w64 (b2n f.umx.suffixM + 2 * b2n (!f.umx.calOk))
  else if 0x0200702000 ≤ r && r < 0x0200704000 then w64 (f.mgmt.flashNum (umxCert + (r - 0x0200702000)) 8)
  else if 0x0200704000 ≤ r && r < 0x0200710000 then
    listWord (Store.get [] f.umx.recs ((r - 0x0200704000) / 0x2000)) (r % 0x2000)
  else f.reg r

/-- The claim that a live read of a claim register makes (R433, R434). -/
def Fab.claimRead (f : Fab) (m : Master) (r : Nat) : Fab :=
  if r = Reg.ISC_TCLAIM && m.code ≤ 1 then (f.claim 192).2
  else if 0x0200011040 ≤ r && r < 0x0200015000 && r % 64 = 48 then
    let s := (r - 0x0200011000) / 64
    match m.port with
    | some n => if f.ownsSource m s then (f.hostClaim s n).2 else f
    | none => f
  else f

/-- A read access of `n` bytes at a register address; `live` says that claims act, where the half with SRC is read (R10). -/
def Fab.regRead (f : Fab) (m : Master) (a n : Nat) (live : Bool) : Acc :=
  if regHole a || !regReach m a then ⟨ones n, false, true, false, f.errLog m a 0 0⟩
  else if f.pwr.st = 2 && !unitAwake a then ⟨ones n, false, true, false, f.errLog m a 1 0⟩
  else if !regAligned a n then ⟨ones n, false, false, false, f⟩
  else
    let r := a / 8 * 8
    ⟨regPart (f.regValue m r) a n, false, false, false, if live && (n = 8 || a % 8 = 0) then f.claimRead m r else f⟩

/-! ### Any device address -/

/-- A read of `n` bytes at a device address by a master that reaches registers and memory. -/
def Fab.rdAny (f : Fab) (m : Master) (a n : Nat) (live : Bool) : Acc :=
  if isRegAddr a then f.regRead m a n live else f.rdDev m a n

/-- A write of `n` bytes at a device address; `now` is the ECLK at which a share may become ready. -/
def Fab.wrAny (f : Fab) (m : Master) (a n v now : Nat) : Acc :=
  if isRegAddr a then f.regWrite m a n v now else f.wrDev m a n v

/-! ### Debug accesses (R523, R529, R541) -/

/-- The debug port reads 8 bytes; a read of DBG.MDATA is an access of its own at DBG.MADDR, to a depth. -/
def Fab.dbgRead (f : Fab) (a : Nat) (live : Bool) : Nat → Acc
  | 0 => ⟨ones 8, false, true, false, f⟩
  | d + 1 =>
    if a = Reg.DBG_MDATA then f.dbgRead (f.get Reg.DBG_MADDR_ADDR * 8) (f.bit Reg.DBG_MADDR_LIVE) d
    else f.rdAny dbgPort a 8 live

/-- The debug port writes 8 bytes. -/
def Fab.dbgWrite (f : Fab) (a : Nat) (v : Word) (now : Nat) : Nat → Acc
  | 0 => ⟨0, false, true, false, f⟩
  | d + 1 =>
    if a = Reg.DBG_MDATA then f.dbgWrite (f.get Reg.DBG_MADDR_ADDR * 8) v now d
    else f.wrAny dbgPort a 8 v.toNat now

/-- The error that a debug access leaves in WCSR: 1 refused, 2 poison. -/
def Fab.accErr (f : Fab) (r : Acc) : Fab := if r.refused then f.dxwErr 1 else if r.bad then f.dxwErr 2 else f

/-- DBG.MDATA is read: the data, all-ones where the access fails. -/
def Fab.mdataRead (f : Fab) : Acc :=
  let r := f.dbgRead (f.get Reg.DBG_MADDR_ADDR * 8) (f.bit Reg.DBG_MADDR_LIVE) 2
  { r with fab := r.fab.accErr r, refused := false, bad := false }

/-- DBG.MDATA is written. -/
def Fab.mdataWrite (f : Fab) (v : Word) (now : Nat) : Acc :=
  let r := f.dbgWrite (f.get Reg.DBG_MADDR_ADDR * 8) v now 2
  { r with fab := r.fab.accErr r, refused := false, bad := false }

/-- DEBUG_ACCESS_DONE: the access launched over DXW completes, or is abandoned after 64 µs (`late`). The wait for the DDR sweep
counts toward no timeout. -/
def Fab.debugDone (f : Fab) (late : Bool) (now : Nat) : Fab :=
  match f.dxw.acc with
  | some ⟨a, none, none⟩ =>
    let r := if f.live then f.dbgRead a (f.bit Reg.DBG_ACCESS_SIDEFX) 2 else ⟨ones 8, false, false, false, f⟩
    if r.wait then f
    else if late || !f.live then (f.updDxw (fun x => { x with acc := some ⟨a, none, some (w64 (ones 8))⟩ })).dxwErr 3
    else (r.fab.updDxw (fun x => { x with acc := some ⟨a, none, some (w64 r.data)⟩ })).accErr r
  | some ⟨a, some v, none⟩ =>
    let r := if f.live then f.dbgWrite a v now 2 else ⟨0, false, false, false, f⟩
    if r.wait then f
    else if late || !f.live then (f.updDxw (fun x => { x with acc := none })).dxwErr 3
    else (r.fab.updDxw (fun x => { x with acc := none })).accErr r
  | _ => f

/-! ### The meanings -/

/-- DEBUG_ACCESS_DONE. -/
def execDebugAccessDone (late : Bool) (now : Nat) (s : State) : Host.Outcome State Fault Refusal :=
  .next { s with fab := s.fab.debugDone late now }

/-- MDATA_ACCESS: the master of a code reads DBG.MDATA, or writes `v` to it. -/
def execMdataAccess (m : Nat) (wr : Option Word) (now : Nat) (s : State) : Host.Outcome State Fault Refusal :=
  byMaster m Reg.DBG_MDATA (fun f x => f.byDbg x Reg.DBG_MDATA (fun f =>
    match wr with
    | some v => (f.mdataWrite v now).fab
    | none => let r := f.mdataRead; if r.wait then r.fab else r.fab.emit (.answer x.code r.data 8 false))) s

/-- REGISTER_WRITE: the master of a code (7: a probe over DXW, at wire register `a`; 8: the same with a CRC error) writes `n`
bytes. -/
def execRegisterWrite (m a n : Nat) (v : Word) (now : Nat) (s : State) : Host.Outcome State Fault Refusal :=
  if m = 7 || m = 8 then
    (if a < 16 then .next { s with fab := s.fab.wireWrite a v (m == 7) } else .refused .noSuchUnit)
  else if m < 6 && (isRegAddr a || inEcs a) && 1 ≤ n && n ≤ 8 then
    .next { s with fab := s.fab.whenLive (fun f => (f.wrAny (f.master m) a n v.toNat now).fab) }
  else .refused .noSuchUnit

end Sys2Proof.Machine
end

