-- ==== Sys2Proof/Machine/DmaCmds.lean ====
section
/-! DEFINITION. What the responses to a DMA channel do (spec/13): its accesses to device memory and device registers are performed
when they are answered. -/

namespace Sys2Proof.Machine

/-- DESCRIPTOR_FETCH (R406): the fetch is answered: from device memory, or by the host with `ok` and `data`. -/
def Fab.descFetch (f : Fab) (k : Nat) (ok : Bool) (data : BitVec 512) : Fab :=
  let x := f.ch k
  if x.stage ≠ .fetch then f
  else
    let r : Acc := if x.curHost then ⟨data.toNat, !ok, false, false, f⟩
      else f.rdAny (f.chan k) (f.get (Reg.DMA_CH_CUR_ADDR k)) 64 false
    if r.wait then f
    else if r.bad || r.refused then r.fab.chHalt k 6 false
    else
      let f := r.fab.updCh k (fun x => { DmaCh.reset with
        stage := .run, desc := BitVec.ofNat 512 r.data, fetched := x.fetched, curHost := x.curHost })
      if !f.descOk k then f.chHalt k 6 false
      else
        let f := f.set (Reg.DMA_CH_COUNT_COUNT k) (f.ch k).dlen
        let f := f.updCh k (fun x => { x with ovl := x.overlap })
        if (f.ch k).dlen = 0 then f.updCh k (fun x => { x with stage := .done }) else f.dmaRun

/-- The first address of a request whose code word cannot be used, among the words from `a` on. -/
def Fab.firstBad (f : Fab) (m : Master) (a n : Nat) : Nat → Option Nat
  | 0 => none
  | fuel + 1 =>
    if n = 0 then none
    else
      let b := min n (16 - a % 16)
      let r := f.rdDev m a b
      if r.bad || r.refused then some a else r.fab.firstBad m (a + b) (n - b) fuel

/-- DMA_READ_RESPONSE (R408, R415): the oldest read is answered: source data from the device now, or given by the host. Once no
further read is issued, the data is discarded. -/
def Fab.dmaRead (f : Fab) (k : Nat) (ok : Bool) (data : BitVec 2048) : Fab :=
  let x := f.ch k
  match x.rq with
  | [] => f
  | q :: t =>
    if x.stage ≠ .run then f
    else
      let a := x.src + q.off
      let m := f.chan k
      let r : Acc := if x.srcSp = 1 then ⟨data.toNat % 2 ^ (8 * q.len), !ok, false, false, f⟩ else f.rdAny m a q.len false
      if r.wait then f
      else
        let g := r.fab.updCh k (fun x => { x with rq := t })
        let take (g : Fab) (n : Nat) : Fab :=
          if n = 0 then g
          else (g.chunkPut q.chunk n r.data).updCh k (fun x => { x with fl := x.fl ++ [⟨q.chunk, 0, n⟩] })
        let g := if !(r.bad || r.refused) then (if x.ended then g else take g q.len)
          else
            let at_ := if x.srcSp = 1 then a else (f.firstBad m a q.len (wordFuel q.len)).getD a
            let beat := max a (at_ / 64 * 64)
            if x.ended then g.chFail k beat 2 else (take g (beat - a)).chFail k beat 2
        ((g.dmaStat).chSettle k).dmaRun

/-- DMA_WRITE_RESPONSE (R410, R416): the oldest device write is performed and answered, or the flush read is answered with
`ok`. -/
def Fab.dmaWrite (f : Fab) (k : Nat) (ok : Bool) : Fab :=
  let x := f.ch k
  if x.stage = .flush then
    (if ok then f else f.chFail k (x.dst + x.wOff - 1) 3).updCh k (fun x => { x with stage := .done })
  else if x.stage = .run && x.dstSp = 0 then
    match x.wOut with
    | [] => f
    | w :: t =>
      let d := if x.ovl then f.free (8 * w.len) else (w.data, f)
      let r := d.2.wrAny (d.2.chan k) w.addr w.len d.1 0
      if r.wait then f
      else
        let g := r.fab.updCh k (fun x => { x with wOut := t })
        (((if r.bad || r.refused then g.chWriteFail k w.addr 3 else g).dmaStat).chSettle k).dmaRun
  else f

/-- DESCRIPTOR_COMPLETE (R411, R412): `ok` is the host's answer where WBQ lies in host memory. -/
def Fab.descDone (f : Fab) (k : Nat) (ok : Bool) : Fab :=
  let x := f.ch k
  if x.stage ≠ .done then f
  else
    let cur := f.get (Reg.DMA_CH_CUR_ADDR k)
    let wbq := x.status + f.get (Reg.DMA_CH_COUNT_COUNT k) * 2 ^ 32
    let r : Acc := if !x.wb then ⟨0, false, false, false, f⟩
      else if x.curHost then
        ⟨0, !ok || !f.chanBme k, false, false,
          if f.chanBme k then f.emit (.hostWrite ((f.chanPort k).getD 0) (cur + 32) 8 wbq) else f⟩
      else f.wrAny (f.chan k) (cur + 32) 8 wbq 0
    let f := r.fab
    if r.wait then f
    else if r.bad || r.refused then
      (if x.curHost then f else f.undefined (f.chan k) cur 64).chHalt k 3 false
    else
      let f := f.set (Reg.DMA_CH_STAT_DONE k) (f.get (Reg.DMA_CH_STAT_DONE k) + 1)
      let f := if x.irq then f.raise (81 + k) true else f
      (if x.status ≠ 1 then f.chHalt k x.status x.irq
        else if x.stop then f.chHalt k 1 x.irq
        else f.chFetch k x.next x.nxtSp x.irq).dmaRun

/-- Each device write that a disabled channel had issued is performed or discarded, freely (R418). -/
def Fab.lateWrites (f : Fab) (m : Master) : List DmaWr → Fab
  | [] => f
  | w :: t =>
    let r := f.free 1
    (if r.1 = 1 then (r.2.wrAny m w.addr w.len w.data 0).fab else r.2).lateWrites m t

/-- DMA_QUIESCE: the last outstanding request of a disabled channel ends, and its chunks are freed (R418). -/
def Fab.dmaQuiesce (f : Fab) (k : Nat) : Fab :=
  if f.get (Reg.DMA_CH_STAT_STATE k) = 2 && !f.bit (Reg.DMA_CH_STAT_QUIESCE k) then
    let f := f.lateWrites (f.chan k) (f.ch k).wOut
    (((f.set (Reg.DMA_CH_STAT_QUIESCE k) 1).updCh k (fun _ => DmaCh.reset)).dmaStat).dmaRun
  else f

/-! ### The meanings -/

/-- DESCRIPTOR_FETCH. -/
def execDescriptorFetch (k : Nat) (ok : Bool) (data : BitVec 512) (s : State) : Host.Outcome State Fault Refusal :=
  onChan k (fun f => f.descFetch k ok data) s

/-- DMA_READ_RESPONSE. -/
def execDmaReadResponse (k : Nat) (ok : Bool) (data : BitVec 2048) (s : State) : Host.Outcome State Fault Refusal :=
  onChan k (fun f => f.dmaRead k ok data) s

/-- DMA_WRITE_RESPONSE. -/
def execDmaWriteResponse (k : Nat) (ok : Bool) (s : State) : Host.Outcome State Fault Refusal :=
  onChan k (fun f => f.dmaWrite k ok) s

/-- DESCRIPTOR_COMPLETE. -/
def execDescriptorComplete (k : Nat) (ok : Bool) (s : State) : Host.Outcome State Fault Refusal :=
  onChan k (fun f => f.descDone k ok) s

/-- DMA_QUIESCE. A request of the mailbox may wait for it (R393). -/
def execDmaQuiesce (k : Nat) (s : State) : Host.Outcome State Fault Refusal :=
  onChan k (fun f => (f.dmaQuiesce k).mbxAdvance) s

end Sys2Proof.Machine
end

