-- ==== Sys2Proof/Machine/Damson.lean ====
section
/-! DEFINITION. The Damson core (R457–R464): instructions, loads that wait, divides, exceptions and interrupts. Its registers are
those of the DBG unit (R541): G0–G31 in DBG.DREG, the PC in DBG.DPC, the status in DBG.DSR. -/

namespace Sys2Proof.Machine

/-! ### Registers -/

def Fab.gReg (f : Fab) (n : Nat) : BitVec 32 := BitVec.ofNat 32 (f.get (Reg.DBG_DREG_G n))

/-- Write a general register; G0 discards writes (R457). -/
def Fab.setG (f : Fab) (n : Nat) (v : BitVec 32) : Fab := if n = 0 then f else f.set (Reg.DBG_DREG_G n) v.toNat

/-- The PC, a 32-bit offset in the management region (log 60). -/
def Fab.dpc (f : Fab) : Nat := f.get Reg.DBG_DPC_PC

def Fab.setPc (f : Fab) (v : Nat) : Fab := f.set Reg.DBG_DPC_PC v

/-- The status in effect: bit 0 MODE (0 KERNEL, 1 TASK), bit 1 IE (log 60). -/
def Fab.dsr (f : Fab) : BitVec 32 := BitVec.ofNat 32 (f.get Reg.DBG_DSR_SR)

def Fab.setSr (f : Fab) (v : BitVec 32) : Fab := f.set Reg.DBG_DSR_SR v.toNat

def Fab.taskMode (f : Fab) : Bool := f.dsr.getLsbD 0
def Fab.damIe (f : Fab) : Bool := f.dsr.getLsbD 1

/-! ### Exceptions (R462–R464) -/

/-- A divide in flight is abandoned at an entry (R464). -/
def Dam.abandon (d : Dam) : Dam :=
  match d.div with
  | some x => if d.pend then { d with div := none, lost := true } else { d with div := none, saved := x, pend := true }
  | none => d

/-- The status once every write of it has taken effect. -/
def Fab.srFinal (f : Fab) : BitVec 32 := f.dam.srq.foldl (fun _ x => x.2) f.dsr

/-- Entry with a code and a return address (R462): status writes on their way take effect before it. -/
def Fab.damEnter (f : Fab) (code epc : Nat) : Fab :=
  let sr := f.srFinal
  let f := f.updDam (fun d => { d.abandon with
    cause := code, epc := epc, esr := sr, srq := [], slot := none, ld := none, step := false, skip := false })
  (f.setSr (sr &&& ~~~(3 : BitVec 32))).setPc ((f.dam.dvec.toNat + 16 * code) % 2 ^ 32)

/-- An exception of the instruction at the PC. The return address names it; where it stands in a delay slot, the spec does not
give the address: a free value. -/
def Fab.damExc (f : Fab) (code : Nat) : Fab :=
  if f.dam.slot.isSome then
    let r := f.free 32
    r.2.damEnter code r.1
  else f.damEnter code f.dpc

/-- SYSCALL: the return address is that of the instruction or of the next, which the spec does not say. -/
def Fab.damSyscall (f : Fab) : Fab :=
  if f.dam.slot.isSome then f.damExc 4
  else
    let r := f.free 1
    r.2.damEnter 4 ((f.dpc + 4 * r.1) % 2 ^ 32)

/-- An instruction completes: the PC moves on, status writes come nearer, a step ends, and a halt that waits may act. -/
def Fab.damRetire (f : Fab) (next : Nat) : Fab :=
  let d := f.dam
  let due := d.srq.filter (fun x => x.1 ≤ 1)
  let f := due.foldl (fun g x => g.setSr x.2) f
  let f := f.setPc next
  let f := f.updDam (fun d => { d with
    srq := (d.srq.filter (fun x => 1 < x.1)).map (fun x => (x.1 - 1, x.2)), skip := false, step := d.step && d.slot.isSome })
  if f.bit Reg.DBG_DSTAT_HALTED then f else f.damHaltTry

/-- Where the core goes after the instruction at the PC. -/
def Fab.damNext (f : Fab) : Nat := f.dam.slot.getD ((f.dpc + 4) % 2 ^ 32)

/-- An instruction that is no branch completes. -/
def Fab.damDone (f : Fab) : Fab := (f.updDam (fun d => { d with slot := none })).damRetire f.damNext

/-! ### Accesses (R460, R461, R465, R539) -/

/-- Is the address in the xSPI flash controller (R465)? -/
def flashCtl (a : Nat) : Bool := 0x0300A00000 ≤ a && a < 0x0300A10000

/-- Is the address in the hash and signature engine (R465)? -/
def hashEngine (a : Nat) : Bool := 0x0300A20000 ≤ a && a < 0x0300A30000

/-- Is the address in a unit of the management region whose registers the spec does not lay out: flash controller, OTP front end,
hash engine, entropy source, I3C target, UART0 (R465)? -/
def damDevice (a : Nat) : Bool :=
  flashCtl a || (0x0300A10000 ≤ a && a < 0x0300A20000) || hashEngine a || (0x0300A30000 ≤ a && a < 0x0300A31000) ||
    (0x0300A50000 ≤ a && a < 0x0300A51000) || (0x0300A60000 ≤ a && a < 0x0300A61000)

/-- Does an access in TASK mode raise the privilege exception (R460): to the vault, the OTP front end or the key ports of the hash
engine? -/
def damPriv (a : Nat) : Bool :=
  (0x0300200000 ≤ a && a < 0x0300240000) || (0x0300A10000 ≤ a && a < 0x0300A20000) || (hashEngine a && Config.keyPort a)

/-- May TASK mode not reach the address otherwise (R465, R541)? -/
def damTaskShut (a : Nat) : Bool :=
  flashCtl a || hashEngine a || (0x0300A70000 ≤ a && a < 0x0300A71000) || (0x0200800000 ≤ a && a < 0x0200900000)

/-- Is the address in the flash read window? -/
def inFlashWin (a : Nat) : Bool := 0x0300C00000 ≤ a && a < 0x0301000000

/-- The patch unit that matches a 32-bit word, by its kind (R539): region 0 boot ROM, 1 flash read window. -/
def Fab.patchAt (f : Fab) (kind region off : Nat) : Option Nat :=
  ((List.range 16).find? (fun u => (f.get (Reg.PATCH_A_KIND u) = 1 || f.get (Reg.PATCH_A_KIND u) = 2) &&
    f.get (Reg.PATCH_A_REGION u) = region && f.get (Reg.PATCH_A_ADDR u) * 4 = off)).filter
      (fun u => f.get (Reg.PATCH_A_KIND u) = kind)

/-- The region and offset of a word that a patch unit may match. -/
def patchPlace (a : Nat) : Option (Nat × Nat) :=
  if 0x0300000000 ≤ a && a < 0x0300020000 then some (0, a - 0x0300000000)
  else if inFlashWin a then some (1, a - 0x0300C00000)
  else none

/-- The word that a patch unit puts in place of one at an address. -/
def Fab.patched (f : Fab) (a n : Nat) : Option Nat :=
  if n ≠ 4 || a % 4 ≠ 0 then none
  else
    match patchPlace a with
    | some (g, o) => (f.patchAt 1 g o).map (fun u => f.get (Reg.PATCH_V_VALUE u))
    | none => none

/-- A read by the Damson core of `n` bytes. What a register that the spec does not lay out holds is free (log 78). -/
def Fab.damRead (f : Fab) (a n : Nat) : Acc :=
  match f.patched a n with
  | some v => ⟨v, false, false, false, f⟩
  | none =>
    if f.taskMode && damTaskShut a then ⟨ones n, false, true, false, f.errLog damson a 0 0⟩
    else if inFlashWin a then ⟨f.mgmt.flashNum (f.mgmt.window + (a - 0x0300C00000)) n, false, false, false, f⟩
    else if damDevice a then ⟨(f.free (8 * n)).1, false, false, false, (f.free (8 * n)).2⟩
    else if a / 8 * 8 = Reg.DBG_MDATA && regAligned a n then
      let r := f.mdataRead
      { r with data := regPart (w64 r.data) a n }
    else f.rdAny damson a n true

/-- A store into the flash controller may move the flash read window: its base is then a free 4 MiB boundary of the flash (R465,
log 78). -/
def Fab.moveWindow (f : Fab) : Fab :=
  let r := f.free 4
  r.2.updMgmt (fun m => { m with window := r.1 * 0x400000 })

/-- A write by the Damson core. The flash read window takes none. -/
def Fab.damWrite (f : Fab) (a n v now : Nat) : Acc :=
  if f.taskMode && damTaskShut a then ⟨0, false, true, false, f.errLog damson a 0 0⟩
  else if inFlashWin a then ⟨0, false, false, false, f⟩
  else if damDevice a then ⟨0, false, false, false, if flashCtl a then f.moveWindow else f⟩
  else if a = Reg.DBG_MDATA && n = 8 then f.mdataWrite (w64 v) now
  else if a / 8 * 8 = Reg.DBG_MDATA && regAligned a n then f.wrAny dbgPort (f.get Reg.DBG_MADDR_ADDR * 8 + a % 8) n v now
  else f.wrAny damson a n v now

/-- Does either end of an access lie where a test holds? -/
def eitherEnd (a n : Nat) (p : Nat → Bool) : Bool := p a || p (a + n - 1)

/-- Does an access of the vault wait for its wipe (R262)? -/
def Fab.vaultWaits (f : Fab) (a : Nat) : Bool := 0x0300200000 ≤ a && a < 0x0300240000 && f.bit Reg.MEM_VAULT_WIPING

/-- The value that a load of `n` bytes writes. -/
def damExtend (v n : Nat) (sgn : Bool) : BitVec 32 :=
  if sgn then BitVec.ofInt 32 (if v < 2 ^ (8 * n - 1) then (v : Int) else (v : Int) - 2 ^ (8 * n)) else BitVec.ofNat 32 v

/-- The load that waits has its response: it writes its register, or raises a bus error. `fail` says that the flash did not
answer. -/
def Fab.damLoadDone (f : Fab) (x : DamLd) (fail : Bool) : Fab :=
  let r := f.damRead x.a x.n
  if r.wait || f.vaultWaits x.a then f
  else if (fail && inFlashWin x.a) || r.bad then (if fail && inFlashWin x.a then f else r.fab).damExc 1
  else ((r.fab.updDam (fun d => { d with ld := none })).setG x.rd (damExtend r.data x.n x.sgn)).damDone

/-- Does a load get its data with no response to wait for: from the ROM or the TCM (R457)? -/
def damNear (a n : Nat) : Bool :=
  (0x0300000000 ≤ a && a + n ≤ 0x0300020000) || (0x0300100000 ≤ a && a + n ≤ 0x0300200000)

/-- A load issues. -/
def Fab.damLoad (f : Fab) (x : DamLd) : Fab :=
  if f.taskMode && eitherEnd x.a x.n damPriv then f.damExc 3
  else
    let f := if x.lock then f.updDam (fun d => { d with lock := true }) else f
    if damNear x.a x.n then f.damLoadDone x false else f.updDam (fun d => { d with ld := some x })

/-- A store; `now` as for a register write. -/
def Fab.damStore (f : Fab) (a n v now : Nat) (done : Fab → Fab) : Fab :=
  if f.taskMode && eitherEnd a n damPriv then f.damExc 3
  else
    let r := f.damWrite a n v now
    if r.wait || f.vaultWaits a then f else (done r.fab).damDone

/-! ### Results -/

/-- What a divide or remainder gives. The corners that the spec does not state are free functions of the operands. -/
def DamDiv.result (x : DamDiv) : BitVec 32 :=
  let corner := x.y = 0 || (x.sgn && x.x = 0x80000000 && x.y = 0xFFFFFFFF)
  if corner then BitVec.ofNat 32 (Config.damsonAlu (0x100 + 2 * b2n x.sgn + b2n x.rem) x.x.toNat x.y.toNat)
  else if x.sgn then BitVec.ofInt 32 (if x.rem then x.x.toInt.tmod x.y.toInt else x.x.toInt.tdiv x.y.toInt)
  else BitVec.ofNat 32 (if x.rem then x.x.toNat % x.y.toNat else x.x.toNat / x.y.toNat)

/-- What a closing locked store reports: success or failure, whose values the spec does not give. -/
def damReport (ok : Bool) : BitVec 32 := BitVec.ofNat 32 (Config.damsonAlu 0x200 (b2n ok) 0)

/-- The control registers by the model's numbers (log 60): SR, CAUSE, EPC, ESR, DVEC, and DIVSAVE in three parts. -/
def Fab.damCtl (f : Fab) (c : Nat) : BitVec 32 :=
  let d := f.dam
  if c = 0 then f.dsr
  else if c = 1 then BitVec.ofNat 32 d.cause
  else if c = 2 then BitVec.ofNat 32 d.epc
  else if c = 3 then d.esr
  else if c = 4 then d.dvec
  else if c = 5 then d.saved.x
  else if c = 6 then d.saved.y
  else BitVec.ofNat 32 (d.saved.rd + 32 * b2n d.saved.sgn + 64 * b2n d.saved.rem + 2 ^ 30 * b2n d.pend + 2 ^ 31 * b2n d.lost)

/-- Write a control register. A status write takes effect from the fourth instruction after this one (R460). -/
def Dam.setCtl (d : Dam) (c : Nat) (v : BitVec 32) : Dam :=
  if c = 0 then { d with srq := d.srq ++ [(4, v)] }
  else if c = 1 then { d with cause := v.toNat }
  else if c = 2 then { d with epc := v.toNat }
  else if c = 3 then { d with esr := v }
  else if c = 4 then { d with dvec := v }
  else if c = 5 then { d with saved := { d.saved with x := v } }
  else if c = 6 then { d with saved := { d.saved with y := v } }
  else { d with
    saved := { d.saved with rd := v.toNat % 32, sgn := v.getLsbD 5, rem := v.getLsbD 6 }
    pend := v.getLsbD 30
    lost := v.getLsbD 31 }

/-- RFE: the status and the PC return, and a divide that an entry abandoned is issued again (R463, R464). -/
def Fab.damRfe (f : Fab) : Fab :=
  let d := f.dam
  let f := f.setSr d.esr
  let f := f.updDam (fun d => { d with
    slot := none, div := if d.pend then some d.saved else d.div, pend := false })
  f.damRetire d.epc

/-! ### One instruction -/

/-- General registers that an instruction names. -/
def damRegs : DamOp → List Nat
  | .alu _ rd ra rb imm => if imm.isSome then [rd, ra] else [rd, ra, rb]
  | .mul _ rlo rhi ra rb => [rlo, rhi, ra, rb]
  | .div _ _ rd ra rb => [rd, ra, rb]
  | .load _ _ _ rd => [rd]
  | .store _ _ ra => [ra]
  | .lockLoad _ _ rd => [rd]
  | .lockStore _ _ ra rd => [ra, rd]
  | .branch _ _ _ => []
  | .syscall => []
  | .rfe => []
  | .icinv _ => []
  | .noFetch => []
  | .getCtl _ rd => [rd]
  | .setCtl _ ra => [ra]
  | .illegal => []

/-- Is the instruction a divide? -/
def isDamDiv : DamOp → Bool
  | .div _ _ _ _ _ => true
  | _ => false

/-- Does a divide in flight hold the instruction (R457)? -/
def Fab.damHeld (f : Fab) (op : DamOp) : Bool :=
  f.dam.div.any (fun x => isDamDiv op || (x.rd ≠ 0 && (damRegs op).contains x.rd))

/-! ### Fetching (R458, R459, R539) -/

/-- Does the instruction cache serve the address: boot ROM, TCM, flash read window? -/
def damCached (a : Nat) : Bool :=
  (0x0300000000 ≤ a && a < 0x0300020000) || (0x0300100000 ≤ a && a < 0x0300200000) || inFlashWin a

/-- The cache line that holds a line, if one does. -/
def Dam.cached (d : Dam) (l : Nat) : Option DamLine :=
  let way (w : Nat) := (Store.get none d.icache (2 * (l % 256) + w)).filter (fun x => x.line == l)
  (way 0).or (way 1)

/-- Bytes of a line as a patch unit and the memory give them now, the breakpoints that match in it, and what a read of it makes of
the fabric; the address of a word that reads as poison. -/
def Fab.damLineOf (f : Fab) (l : Nat) : DamLine × Option Nat × Fab :=
  let a := 32 * l
  let r : MemRd := if inFlashWin a then ⟨f.mgmt.flashNum (f.mgmt.window + (a - 0x0300C00000)) 32, none, f⟩
    else (f.bankTurn damson a).read 3 a 32
  let unit (kind i : Nat) : Option Nat := (patchPlace (a + 4 * i)).bind (fun x => f.patchAt kind x.1 x.2)
  let data := (List.range 8).foldl (fun v i =>
    match unit 1 i with
    | some u => natSetBits v (32 * i) 32 (f.get (Reg.PATCH_V_VALUE u))
    | none => v) r.data
  let brk := (List.range 8).foldl (fun v i => v + b2n (unit 2 i).isSome * 2 ^ i) 0
  (⟨l, BitVec.ofNat 256 data, BitVec.ofNat 8 brk⟩, r.bad, r.fab)

/-- What a fetch gives: whether the word reads as poison, whether it waits, whether a breakpoint matched it, and the fabric. -/
structure DamFetch where
  bad  : Bool
  wait : Bool
  brk  : Bool
  fab  : Fab
  deriving DecidableEq, Repr

/-- The core fetches at the PC: from the line buffer, from the cache, or from memory, which fills a way that the spec does not name. A
line with a word that reads as poison is not kept. Elsewhere nothing is cached. -/
def Fab.damFetch (f : Fab) : DamFetch :=
  let a := 0x0300000000 + f.dpc
  let l := a / 32
  let brkOf (x : DamLine) : Bool := x.brk.getLsbD (a / 4 % 8)
  if !damCached a then
    let r := f.rdAny damson a 4 false
    ⟨r.bad, r.wait || f.vaultWaits a, false, if r.wait || f.vaultWaits a then f else r.fab⟩
  else
    match f.dam.lbuf.filter (fun x => x.line == l) with
    | some x => ⟨false, false, brkOf x, f⟩
    | none =>
      match f.dam.cached l with
      | some x => ⟨false, false, brkOf x, f.updDam (fun d => { d with lbuf := some x })⟩
      | none =>
        let r := f.damLineOf l
        match r.2.1 with
        | some b => ⟨b / 16 == a / 16, false, brkOf r.1, r.2.2⟩
        | none =>
          let w := r.2.2.free 1
          ⟨false, false, brkOf r.1, w.2.updDam (fun d => { d with
            icache := Store.set none d.icache (2 * (l % 256) + w.1) (some r.1), lbuf := some r.1 })⟩

/-- The instruction behind a delay slot is fetched and squashed when a branch is taken: it may fill the line buffer (R458). -/
def Fab.wrongPath (f : Fab) : Fab :=
  let l := (0x0300000000 + (f.dpc + 8) % 2 ^ 32) / 32
  let r := f.free 1
  let x := match f.dam.cached l with
    | some x => some x
    | none =>
      let y := f.damLineOf l
      if y.2.1.isSome then none else some y.1
  if r.1 = 1 && damCached (32 * l) && x.isSome then r.2.updDam (fun d => { d with lbuf := x }) else r.2

/-- ICINV for the line of an address, or for the whole cache: the line buffer is emptied in either case (R459). -/
def Dam.icinv (d : Dam) (line : Option Nat) : Dam :=
  match line with
  | some a => { d with lbuf := none, icache := d.icache.filter (fun c => c.2.all (fun x => x.line ≠ a / 32)) }
  | none => { d with lbuf := none, icache := [] }

/-- The effect of an instruction at the PC. -/
def Fab.damOp (f : Fab) (op : DamOp) (now : Nat) : Fab :=
  match op with
  | .alu fn rd ra rb imm =>
    (f.setG rd (BitVec.ofNat 32 (Config.damsonAlu fn (f.gReg ra).toNat (imm.getD (f.gReg rb)).toNat))).damDone
  | .mul sgn rlo rhi ra rb =>
    let p : BitVec 64 := if sgn then BitVec.ofInt 64 ((f.gReg ra).toInt * (f.gReg rb).toInt)
      else BitVec.ofNat 64 ((f.gReg ra).toNat * (f.gReg rb).toNat)
    ((f.setG rlo (p.setWidth 32)).setG rhi ((p >>> 32).setWidth 32)).damDone
  | .div sgn rem rd ra rb => (f.updDam (fun d => { d with div := some ⟨sgn, rem, f.gReg ra, f.gReg rb, rd⟩ })).damDone
  | .load a n sgn rd => f.damLoad ⟨a, n, sgn, rd, false⟩
  | .lockLoad a n rd => f.damLoad ⟨a, n, false, rd, true⟩
  | .store a n ra => f.damStore a n (f.gReg ra).toNat now (fun f => f)
  | .lockStore a n ra rd =>
    if f.dam.lock then
      f.damStore a n (f.gReg ra).toNat now (fun f => (f.updDam (fun d => { d with lock := false })).setG rd (damReport true))
    else (f.setG rd (damReport false)).damDone
  | .branch taken annul target =>
    if f.dam.slot.isSome then f.damExc 2
    else if !taken && annul then f.damRetire ((f.dpc + 8) % 2 ^ 32)
    else
      let dest := if taken then target.toNat else (f.dpc + 8) % 2 ^ 32
      let f := if taken then f.wrongPath else f
      (f.updDam (fun d => { d with slot := some dest })).damRetire ((f.dpc + 4) % 2 ^ 32)
  | .syscall => f.damSyscall
  | .rfe => f.damRfe
  | .icinv line => (f.updDam (fun d => d.icinv line)).damDone
  | .noFetch => f.damExc 1
  | .getCtl c rd => if 8 ≤ c then f.damExc 2 else (f.setG rd (f.damCtl c)).damDone
  | .setCtl c ra => if 8 ≤ c then f.damExc 2 else (f.updDam (fun d => d.setCtl c (f.gReg ra))).damDone
  | .illegal => f.damExc 2

/-- The instruction at the PC is fetched and executed. A breakpoint that matched its word when it was filled stops the core before
it (R537, R539); a word that reads as poison, or that the flash did not give (`noFetch`), is a bus error; TASK mode fetches nothing
that it may not access. -/
def Fab.damRun (f : Fab) (op : DamOp) (now : Nat) : Fab :=
  let a := 0x0300000000 + f.dpc
  if f.taskMode && damPriv a then f.damExc 3
  else if op = .noFetch && inFlashWin a && !(f.dam.lbuf.any (fun x => x.line == a / 32) || (f.dam.cached (a / 32)).isSome) then
    f.damExc 1
  else
    let r := f.damFetch
    if r.wait then f
    else if r.brk && f.open_ && !f.dam.skip && f.dam.slot.isNone then r.fab.damStop.set Reg.DBG_DSTAT_PBRK 1
    else if r.bad then r.fab.damExc 1
    else if op = .noFetch || f.damHeld op then r.fab
    else r.fab.damOp op now

/-- DAMSON_INSTRUCTION: the core executes the operation at its PC, halts before it, or waits. -/
def Fab.damInstr (f : Fab) (op : DamOp) (now : Nat) : Fab :=
  if !f.live || !f.dam.started || f.dam.ld.isSome then f
  else if f.bit Reg.DBG_DSTAT_HALTED && !f.dam.step then f
  else
    let f := if f.bit Reg.DBG_DSTAT_HALTED then f else f.damHaltTry
    if f.bit Reg.DBG_DSTAT_HALTED && !f.dam.step then f else f.damRun op now

/-- DAMSON_LOAD_RESPONSE. -/
def Fab.damResponse (f : Fab) (fail : Bool) : Fab :=
  match f.dam.ld with
  | some x => f.damLoadDone x fail
  | none => f

/-- DAMSON_BUS_TIMEOUT: a load has waited 64 µs; the wait for the DDR sweep does not count (R284). -/
def Fab.damTimeout (f : Fab) : Fab :=
  match f.dam.ld with
  | some x => if f.unswept x.a then f else f.damExc 1
  | none => f

/-- DAMSON_DIVIDE_COMPLETE. -/
def Fab.damDivide (f : Fab) : Fab :=
  match f.dam.div with
  | some x => (f.updDam (fun d => { d with div := none })).setG x.rd x.result
  | none => f

/-- DAMSON_INTERRUPT (R463): a load that waits completes first when its response comes in time, and is abandoned otherwise. -/
def Fab.damInterrupt (f : Fab) (inTime : Bool) : Fab :=
  let can (f : Fab) : Bool := f.dam.started && !f.bit Reg.DBG_DSTAT_HALTED && f.damIe && f.dam.slot.isNone &&
    f.bit (Reg.ISC_TSTAT_PEND 192)
  if !can f then f
  else
    let f := if inTime then f.damResponse false else f
    if can f then f.damEnter 5 f.dpc else f

/-! ### The meanings -/

/-- Is an operation of the right form: registers, sizes, addresses? -/
def damWf (op : DamOp) : Bool :=
  (damRegs op).all (fun r => r < 32) &&
    (match op with
      | .load a n _ _ | .store a n _ | .lockLoad a n _ | .lockStore a n _ _ => (n == 1 || n == 2 || n == 4) && a + n ≤ 2 ^ 40
      | _ => true)

/-- DAMSON_INSTRUCTION. -/
def execDamsonInstruction (op : DamOp) (now : Nat) (s : State) : Host.Outcome State Fault Refusal :=
  if damWf op then .next { s with fab := s.fab.damInstr op now } else .refused .noSuchUnit

/-- DAMSON_LOAD_RESPONSE; `fail` says that the flash did not answer a read of its window. -/
def execDamsonLoadResponse (fail : Bool) (s : State) : Host.Outcome State Fault Refusal :=
  .next { s with fab := s.fab.whenLive (fun f => f.damResponse fail) }

/-- DAMSON_BUS_TIMEOUT. -/
def execDamsonBusTimeout (s : State) : Host.Outcome State Fault Refusal :=
  .next { s with fab := s.fab.whenLive (fun f => f.damTimeout) }

/-- DAMSON_DIVIDE_COMPLETE. -/
def execDamsonDivideComplete (s : State) : Host.Outcome State Fault Refusal :=
  .next { s with fab := s.fab.whenLive (fun f => f.damDivide) }

/-- DAMSON_INTERRUPT. -/
def execDamsonInterrupt (inTime : Bool) (s : State) : Host.Outcome State Fault Refusal :=
  .next { s with fab := s.fab.whenLive (fun f => f.damInterrupt inTime) }

end Sys2Proof.Machine
end

