-- ==== Sys2Proof/Machine/Host.lean ====
section
/-! DEFINITION. Requests of the hosts (spec/12): the base address registers, ownership checks, MSI-X, resets of a port, and the
negotiation of features. -/

namespace Sys2Proof.Machine

/-! ### The base address registers (R375) -/

/-- Where a request leads: a register as the port's own or through the window of a partition, the MSI-X table or its
pending bits, the committed view of a partition, a memory at a device address, or no device address. -/
inductive HostTgt where
  | reg (a : Nat) | part (p a : Nat) | table (o : Nat) | pba (o : Nat) | view (p o : Nat) | mem (a : Nat) | hole
  deriving DecidableEq, Repr

/-- The partition window. -/
def partMap (p o : Nat) : HostTgt :=
  if o < 0x1000 then .part p (Reg.SQ_CTL p + o)
  else if 0x10000 ≤ o && o < 0x20000 then .part p (0x0200020000 + (o - 0x10000))
  else if 0x20000 ≤ o && o < 0x30000 then .part p (0x0200010000 + (o - 0x20000))
  else if 0x30000 ≤ o && o < 0x40000 then .part p (0x0200100000 + (o - 0x30000))
  else if 0x40000 ≤ o && o < 0x40100 then .part p (Reg.HP_PCFG p + (o - 0x40000))
  else .hole

/-- Where an offset of a BAR of port `n` leads. -/
def hostMap (n bar o : Nat) : HostTgt :=
  if bar = 0 then
    if o < 0x10000 then .reg (0x0200000000 + o)
    else if o < 0x10100 then .reg (Reg.HP_STAT n + (o - 0x10000))
    else if 0x11000 ≤ o && o < 0x12000 then .reg (Reg.MGMT_MBX_CTL n + (o - 0x11000))
    else if 0x12000 ≤ o && o < 0x13000 then .table (o - 0x12000)
    else if 0x13000 ≤ o && o < 0x14000 then .pba (o - 0x13000)
    else if 0x20000 ≤ o && o < 0x30000 then .reg (0x0200700000 + (o - 0x20000))
    else if 0x1000000 ≤ o && o < 0x1400000 then partMap ((o - 0x1000000) / 0x80000) ((o - 0x1000000) % 0x80000)
    else .hole
  else if bar = 2 then
    if o < 0x0200000000 then .mem o
    else if 0x0800000000 ≤ o then .view ((o - 0x0800000000) / 2 ^ 32) ((o - 0x0800000000) % 2 ^ 32)
    else .hole
  else .mem (ddrBase + o)

/-- The size of a BAR; 6 stands for the configuration space. -/
def barSize (bar : Nat) : Nat :=
  if bar = 0 then 2 ^ 25 else if bar = 2 then 2 ^ 36 else if bar = 4 then 2 ^ 39 else if bar = 6 then 4096 else 0

/-! ### MSI-X (R399) -/

/-- Sixteen bytes of an entry of the MSI-X table. -/
def Fab.msixEntry (f : Fab) (n s : Nat) : BitVec 128 := Store.get (BitVec.ofNat 128 (2 ^ 96)) f.msixTab (256 * n + s)

/-- Send every message of a port that is pending and may go now. -/
def Fab.msixFlush (f : Fab) (n : Nat) : Fab :=
  let ready (x : Nat × Nat) : Bool := x.1 == n && !f.msixMasked n x.2 && f.bit (Reg.HP_STAT_BME n)
  (f.msixPend.filter ready).foldl (fun g x => g.emit (.msix n x.2))
    { f with msixPend := f.msixPend.filter (fun x => !ready x) }

/-- Write 4 or 8 bytes of the table. Of vector control only the mask bit is held. -/
def Fab.msixWrite (f : Fab) (n o len v : Nat) : Fab :=
  if !regAligned o len then f
  else
    let s := o / 16
    let w := natSetBits (f.msixEntry n s).toNat (8 * (o % 16)) (8 * len) v % 2 ^ 97
    { f with msixTab := Store.set (BitVec.ofNat 128 (2 ^ 96)) f.msixTab (256 * n + s) (BitVec.ofNat 128 w) }.msixFlush n

/-- The pending bits of a port, as a number. -/
def Fab.msixBits (f : Fab) (n : Nat) : Nat :=
  (List.range 256).foldl (fun v s => if f.msixPend.contains (n, s) then v + 2 ^ s else v) 0

/-! ### Resets of a port (R374) -/

/-- The port's configuration space, MSI-X table and mailbox return to reset; a request in progress completes and its response is
discarded; its partitions' channels are disabled; accepted features go when nothing is bound. -/
def Fab.portReset (f : Fab) (n : Nat) : Fab :=
  let f : Fab := { f with
    regs := f.regs.filter (fun c => !(Reg.MGMT_MBX_CTL n ≤ c.1 && c.1 < Reg.MGMT_MBX_CTL n + 0x1000))
    msixTab := f.msixTab.filter (fun c => c.1 / 256 ≠ n)
    msixPend := f.msixPend.filter (fun x => x.1 ≠ n)
    pcfg := f.pcfg.filter (fun c => c.1 / 1024 ≠ n) }
  let f := f.updMbx (fun m => { m with
    req := m.req.filter (fun c => c.1 / 128 ≠ n)
    rsp := m.rsp.filter (fun c => c.1 / 128 ≠ n)
    queue := m.queue.map (fun x => if x.1 = n then (x.1, x.2.1, true) else x) })
  let f := f.set (Reg.HP_STAT_BME n) 0
  let ch := (List.range 32).filter (fun k => (f.chanPart k).any (fun p => (f.get (Reg.HP_BIND_PARTS n)).testBit p))
  let f := ch.foldl (fun g k => g.dmaDisable k) f
  let f := if f.get (Reg.HP_BIND_PARTS n) = 0 then f.setReg (Reg.DEV_FEAT_ACCEPT n) 0 else f
  f.set (Reg.HP_STAT_FLR n) 1

/-! ### The configuration space (R371)

A Type 0 header with the capabilities of power management at 0x40, PCI Express at 0x70, MSI-X at 0xB0 and AER at 0x100. R371 gives
the contents; the places are those of the PCIe specification, and the order of the capabilities is the model's (log 101). -/

/-- Bits of configuration word `i` that a write stores. -/
def cfgRw (i : Nat) : BitVec 32 :=
  match i with
  | 1 => 0x0542
  | 3 => 0xFF
  | 4 => 0xFE000000
  | 7 => 0xFFFFFFF0
  | 9 => 0xFFFFFF80
  | 15 => 0xFF
  | 17 => 0x3
  | 30 => 0x70EF
  | 32 => 0xC3
  | 44 => 0xC0000000
  | 66 => 0x007FF030
  | 67 => 0x007FF030
  | 70 => 0x140
  | _ => 0

/-- Bits of configuration word `i` that a write of 1 clears: error bits of Status, Device Status and AER. -/
def cfgW1c (i : Nat) : BitVec 32 :=
  match i with
  | 1 => 0xF9000000
  | 30 => 0xF0000
  | 65 => 0x007FF030
  | _ => 0

/-- Fixed and derived bits of configuration word `i`. -/
def Fab.cfgFixed (f : Fab) (n i : Nat) : BitVec 32 :=
  match i with
  | 0 => BitVec.ofNat 32 (f.get Reg.DEV_ID_VENDOR + 0x0192 * 2 ^ 16)
  | 1 => BitVec.ofNat 32 (0x100000 + 4 * f.get (Reg.HP_STAT_BME n))
  | 2 => 0x12000002
  | 6 => 0xC
  | 8 => 0xC
  | 11 => BitVec.ofNat 32 (if f.mgmt.opts = [] then f.get Reg.DEV_ID_VENDOR + 0x0192 * 2 ^ 16 else f.mgmt.opts.getD 0 0)
  | 13 => 0x40
  | 16 => 0x00037001
  | 17 => 0x8
  | 28 => 0x0002B010
  | 29 => 0x10008022
  | 31 => 0x885
  | 32 => BitVec.ofNat 32 (f.get (Reg.HP_STAT_SPEED n) * 2 ^ 16 + f.get (Reg.HP_STAT_WIDTH n) * 2 ^ 20)
  | 37 => 0x30000
  | 44 => 0x00FF0011
  | 45 => 0x12000
  | 46 => 0x13000
  | 64 => 0x00020001
  | 70 => 0xA0
  | _ => 0

/-- `len` bytes of the configuration space. -/
def Fab.cfgRead (f : Fab) (n o len : Nat) : Nat :=
  let w := (List.range (len / 4 + 2)).foldl (fun v k =>
    let i := o / 4 + k
    v + 2 ^ (32 * k) * (if i < 1024 then (f.cfgWord n i ||| f.cfgFixed n i).toNat else 0)) 0
  natBits w (8 * (o % 4)) (8 * len)

/-- Is the function in D3hot, where it takes configuration requests only? -/
def Fab.inD3 (f : Fab) (n : Nat) : Bool := (f.cfgWord n 17) &&& 3 == 3

/-- Write the bits of `mask` in configuration word `i`: Bus Master Enable, the function mask and Initiate FLR act at once. -/
def Fab.cfgPut (f : Fab) (n i : Nat) (v mask : BitVec 32) : Fab :=
  let old := f.cfgWord n i
  let rw := cfgRw i &&& mask
  let new := ((old &&& ~~~rw) ||| (v &&& rw)) &&& ~~~(v &&& mask &&& cfgW1c i)
  let g : Fab := { f with pcfg := Store.set (cfgInit i) f.pcfg (1024 * n + i) new }
  if i = 1 && mask.getLsbD 2 then (g.set (Reg.HP_STAT_BME n) (b2n (v.getLsbD 2))).msixFlush n
  else if i = 44 then g.msixFlush n
  else if i = 30 && mask.getLsbD 15 && v.getLsbD 15 then g.portReset n
  else g

/-- A write of `len` bytes of the configuration space. -/
def Fab.cfgWrite (f : Fab) (n o len v : Nat) : Fab :=
  let x := v % 2 ^ (8 * len) * 2 ^ (8 * (o % 4))
  let m := (2 ^ (8 * len) - 1) * 2 ^ (8 * (o % 4))
  (List.range (len / 4 + 2)).foldl (fun g k =>
    if natBits m (32 * k) 32 = 0 || 1024 ≤ o / 4 + k then g
    else g.cfgPut n (o / 4 + k) (BitVec.ofNat 32 (natBits x (32 * k) 32)) (BitVec.ofNat 32 (natBits m (32 * k) 32))) f

/-- A poisoned write is logged as a non-fatal error: Poisoned TLP Received in AER, Non-Fatal Error Detected, Detected Parity
Error. -/
def Fab.cfgPoisoned (f : Fab) (n : Nat) : Fab :=
  [(65, 0x1000), (30, 0x20000), (1, 0x80000000)].foldl (fun (g : Fab) (x : Nat × BitVec 32) =>
    { g with pcfg := Store.set (cfgInit x.1) g.pcfg (1024 * n + x.1) (g.cfgWord n x.1 ||| x.2) }) f

/-! ### Requests (R372–R376) -/

/-- The refusal of a request to a unit that the port's partitions do not own (R376). -/
def Fab.notOwned (f : Fab) (m : Master) (a n : Nat) : Acc := ⟨ones n, false, true, false, f.hostRefuse m a 2 0⟩

/-- Was a request to a memory refused for its owner? -/
def Fab.ownerRefused (f : Fab) (m : Master) (a n : Nat) (wr : Bool) : Bool :=
  f.refusal m a wr == some 2 || f.refusal m (a + n - 1) wr == some 2

/-- The request of a host port that maps to no device address (R234). -/
def Fab.hostHole (f : Fab) (m : Master) (bar o n : Nat) : Acc := ⟨ones n, false, true, false, f.errLog m o 0 (bar / 2 + 1)⟩

/-- The master that a request through the window of a partition acts as (R376). -/
def partMaster (n p : Nat) : Master := ⟨2 + n, 2 ^ p, false⟩

/-- A read through the committed view, one slice after the other (R396); in STANDBY it stands closed. -/
def Fab.hostView (f : Fab) (n p o len : Nat) : Nat → Acc
  | 0 => ⟨ones len, false, true, false, f.hostHole (f.host n) 2 (0x0800000000 + 2 ^ 32 * p + o) len |>.fab⟩
  | fuel + 1 =>
    let m := f.host n
    let k := min len (2 ^ 32 - o)
    let r := if !m.parts.testBit p then f.notOwned m (0x0400000000 + o) k
      else if f.pwr.st = 2 then ⟨ones k, false, true, false, f.errLog m (0x0400000000 + o) 1 0⟩
      else f.cvRead m p o k
    if len ≤ k then r
    else
      let t := r.fab.hostView n (p + 1) 0 (len - k) fuel
      ⟨r.data + 2 ^ (8 * k) * t.data, r.bad || t.bad, r.refused || t.refused, r.wait || t.wait, t.fab⟩

/-- Is the device in the failed state, where only the DEV unit reads (R467)? -/
def Fab.failedHost (f : Fab) (bar o : Nat) (wr : Bool) : Bool :=
  f.bit Reg.DEV_BOOTSTAT_FAILED && (wr || bar ≠ 0 || 0x10000 ≤ o)

/-- The access that a read request of port `n` makes. -/
def Fab.hostAcc (f : Fab) (n bar o len : Nat) : Acc :=
  let m := f.host n
  if f.failedHost bar o false then f.hostHole m bar o len
  else
    match hostMap n bar o with
    | .reg a => f.regRead m a len true
    | .part p a => if m.parts.testBit p then f.regRead (partMaster n p) a len true else f.notOwned m a len
    | .table x => ⟨if regAligned x len then natBits (f.msixEntry n (x / 16)).toNat (8 * (x % 16)) (8 * len) else ones len,
        false, false, false, f⟩
    | .pba x => ⟨if regAligned x len then natBits (f.msixBits n) (8 * x) (8 * len) else ones len, false, false, false, f⟩
    | .view p x => f.hostView n p x len 2
    | .mem a =>
      let r := f.rdDev m a len
      if r.refused && f.ownerRefused m a len false then { r with fab := r.fab.hostCount m Reg.HP_ERRCNT_REFUSED } else r
    | .hole => f.hostHole m bar o len

/-- The access that a write request of port `n` makes; `now` is the ECLK at which a share may be started or become ready. -/
def Fab.hostPut (f : Fab) (n bar o len v now : Nat) : Acc :=
  let m := f.host n
  if f.failedHost bar o true then f.hostHole m bar o len
  else
    match hostMap n bar o with
    | .reg a => f.regWrite m a len v now
    | .part p a => if m.parts.testBit p then f.regWrite (partMaster n p) a len v now else f.notOwned m a len
    | .table x => ⟨0, false, false, false, f.msixWrite n x len v⟩
    | .pba _ => ⟨0, false, false, false, f⟩
    | .view p x =>
      if !m.parts.testBit p then f.notOwned m (0x0400000000 + x) len
      else if f.pwr.st = 2 then ⟨0, false, true, false, f.errLog m (0x0400000000 + x) 1 0⟩
      else f.cvWrite m p x len v
    | .mem a =>
      let r := f.wrDev m a len v
      if r.refused && f.ownerRefused m a len true then { r with fab := r.fab.hostCount m Reg.HP_ERRCNT_REFUSED } else r
    | .hole => f.hostHole m bar o len

/-- A request reaches port `n`: not while its PERST_N is asserted; in STANDBY, and while a sleep request waits for its edge, it is
a wake event as well (R551, R552). -/
def Fab.hostReach (f : Fab) (n : Nat) (g : Fab → Fab) : Fab :=
  if f.pwr.perst.contains n then f
  else f.whenLive (fun f => if f.pwr.st = 2 || f.pwr.req.isSome then (g f).wakeEvent 0 n n else g f)

/-- HOST_MEMORY_READ: a read request is answered, or waits for the sweep (R284). `bar` 6 is a read of the configuration space, which
is retried until the port is ready (R466, R467). -/
def Fab.hostRead (f : Fab) (n bar o len : Nat) : Fab :=
  let m := f.host n
  if bar = 6 && f.get Reg.DEV_BOOTSTAT_STEP < 10 && !f.bit Reg.DEV_BOOTSTAT_FAILED then f.emit (.cfgRetry n)
  else if bar = 6 then f.emit (.answer m.code (f.cfgRead n o len) len false)
  else if f.inD3 n then f.emit (.abort n)
  else
  let r := f.hostAcc n bar o len
  if r.wait then f
  else
    let f := if r.bad then r.fab.hostCount m Reg.HP_ERRCNT_EP else r.fab
    f.emit (.answer m.code r.data len r.bad)

/-- HOST_MEMORY_WRITE: a posted write is performed; a poisoned one is discarded and logged (R371). `bar` 6 is a write of the
configuration space. -/
def Fab.hostWrite (f : Fab) (n bar o len v : Nat) (bad : Bool) (now : Nat) : Fab :=
  if bad then (f.hostCount (f.host n) Reg.HP_ERRCNT_EPRX).cfgPoisoned n
  else if bar = 6 then (if f.get Reg.DEV_BOOTSTAT_STEP < 10 && !f.bit Reg.DEV_BOOTSTAT_FAILED then f.emit (.cfgRetry n)
    else f.cfgWrite n o len v)
  else if f.inD3 n then f
  else
    let r := f.hostPut n bar o len v now
    if r.wait then f else r.fab

/-- PERST_N of port `n` changes its level: assertion resets the port and takes its link down; release lets the link train to a
speed and width (0 for no link). Either edge is a wake event (R552). -/
def Fab.perst (f : Fab) (n : Nat) (asserted : Bool) (speed width : Nat) : Fab :=
  if f.pwr.perst.contains n == asserted then f
  else
    let f := f.updPwr (fun x => { x with perst := if asserted then n :: x.perst else x.perst.filter (· ≠ n) })
    let x := if asserted then (0, 0) else (speed, width)
    let f := f.whenLive (fun f =>
      let f := if asserted then f.portReset n else f
      ((f.set (Reg.HP_STAT_LINKUP n) (b2n (x.1 ≠ 0))).set (Reg.HP_STAT_SPEED n) x.1).set (Reg.HP_STAT_WIDTH n) x.2)
    if f.pwr.st < 3 || f.pwr.req.isSome then f.wakeEvent 1 n (4 + n) else f

/-! ### The meanings -/

/-- HOST_MEMORY_READ: port `n` reads `len` bytes at an offset of BAR 0, 2 or 4, or (6) of the configuration space. -/
def execHostMemoryRead (n bar o len : Nat) (s : State) : Host.Outcome State Fault Refusal :=
  if 4 ≤ n || len = 0 || 4096 < len || barSize bar < o + len then .refused .noSuchUnit
  else .next { s with fab := s.fab.hostReach n (fun f => f.hostRead n bar o len) }

/-- HOST_MEMORY_WRITE: port `n` writes bytes, first byte at the offset; `bad` says that the request is poisoned. -/
def execHostMemoryWrite (n bar o : Nat) (data : Bytes) (bad : Bool) (now : Nat) (s : State) : Host.Outcome State Fault Refusal :=
  let len := data.length
  if 4 ≤ n || len = 0 || 512 < len || barSize bar < o + len then .refused .noSuchUnit
  else .next { s with fab := s.fab.hostReach n (fun f => f.hostWrite n bar o len (ofBytes (byteNums data)) bad now) }

/-- COMPLETER_ABORT: a read (`rd`) or write of port `n` is not done within 40 µs (R373). -/
def execCompleterAbort (n : Nat) (rd : Bool) (s : State) : Host.Outcome State Fault Refusal :=
  onHost n (fun f =>
    let f := f.stick (Reg.HP_ERRCNT_CA n) 1
    if rd then f.emit (.abort n) else f) s

/-- FUNCTION_LEVEL_RESET of port `n`. -/
def execFunctionLevelReset (n : Nat) (s : State) : Host.Outcome State Fault Refusal := onHost n (fun f => f.portReset n) s

/-- PERST_N of port `n`. -/
def execPerstN (n : Nat) (asserted : Bool) (speed width : Nat) (s : State) : Host.Outcome State Fault Refusal :=
  if 4 ≤ n || 5 < speed || !([0, 1, 2, 4, 8].contains width) then .refused .noSuchUnit
  else .next { s with fab := s.fab.perst n asserted speed width }

/-- FEAT_ACCEPT_WRITE: the master of a code writes DEV.FEAT_ACCEPT of port `n`; another port's host is not admitted. -/
def execFeatAcceptWrite (m n : Nat) (v : Word) (s : State) : Host.Outcome State Fault Refusal :=
  if 4 ≤ n then .refused .noSuchUnit
  else byMaster m (Reg.DEV_FEAT_ACCEPT n) (fun f x => if 1 < x.code && x.code ≠ 2 + n then f else f.featWrite n v) s

end Sys2Proof.Machine
end

