-- ==== Sys2Proof/Machine/Monitor.lean ====
section
/-! DEFINITION. The resident monitor (R538), and the test access port (R540). -/

namespace Sys2Proof.Machine

/-! ### UART0 frames (RFC 1662) -/

/-- One octet of the 32-bit FCS. -/
def fcsStep (c b : Nat) : Nat :=
  (List.range 8).foldl (fun c _ => if c % 2 = 1 then (c / 2) ^^^ 0xEDB88320 else c / 2) (c ^^^ b)

/-- The FCS of octets. -/
def fcs32 (l : List Nat) : Nat := 0xFFFFFFFF - l.foldl fcsStep 0xFFFFFFFF

/-- Octets between flags, with their FCS, and the flag and escape octets stuffed. -/
def uartFrame (l : List Nat) : List Nat :=
  0x7E :: ((l ++ toBytes (fcs32 l) 4).map (fun b => if b = 0x7E || b = 0x7D then [0x7D, b ^^^ 0x20] else [b])).flatten ++ [0x7E]

/-! ### Requests -/

/-- What a monitor request comes to: the fabric, its status and its response payload; none while it waits. -/
abbrev MonRes := Option (Fab × Nat × List Nat)

/-- Fields of a request's payload after PART. -/
def monMask (r : Nat) : Nat := rqBits r 1 192
def monEng (r : Nat) : Nat := rqBits r 1 8
def monOff (r : Nat) : Nat := rqBits r 2 32
def monCount (r : Nat) : Nat := rqBits r 6 8
def monAddr (r : Nat) : Nat := rqBits r 1 40
def monLen (r : Nat) : Nat := rqBits r 6 16

/-- Length and fields of a register request. -/
def monRegForm (r extra : Nat) : Bool :=
  rqForm r (7 + extra * monCount r) && monEng r < 192 && 1 ≤ monCount r && monCount r ≤ 126 && monOff r % 8 == 0 &&
    monOff r + 8 * monCount r ≤ 0x10000

/-- Length and fields of a memory request. -/
def monMemForm (r len : Nat) : Bool :=
  rqForm r len && 8 ≤ monLen r && monLen r ≤ 1008 && monLen r % 8 == 0 && monAddr r % 8 == 0 && monAddr r + monLen r ≤ 2 ^ 40

/-- Length and fields of a monitor request by opcode. -/
def monForm (op r : Nat) : Bool :=
  if op = 0x10 then rqForm r 1
  else if op ≤ 0x13 then rqForm r 25
  else if op = 0x14 then monRegForm r 0
  else if op = 0x15 then monRegForm r 8
  else if op = 0x16 then monMemForm r 9 && rqBits r 8 8 < 2
  else monMemForm r (8 + monLen r)

/-- Does a request of a source reach an engine: over the mailbox, the active engines of the port's partitions? -/
def Fab.monReach (f : Fab) (port : Option Nat) (e : Nat) : Bool :=
  match port with
  | some n => (f.bound n).any (fun p => f.activeIn p e)
  | none => e < 192

/-- A mask of the engines that satisfy `g`, as 24 bytes. -/
def engMask (g : Nat → Bool) : List Nat := toBytes ((List.range 192).foldl (fun v e => if g e then v + 2 ^ e else v) 0) 24

/-- MON_STATUS: the engines halted, and the active engines. -/
def Fab.monStatus (f : Fab) (port : Option Nat) : MonRes :=
  some (f, 0, engMask (fun e => f.monReach port e && (f.engine e).halted) ++
    engMask (fun e => f.monReach port e && (List.range 8).any (fun p => f.activeIn p e)))

/-- Act on the engines of a mask that a request reaches. -/
def Fab.monEngines (f : Fab) (port : Option Nat) (r : Nat) (g : Fab → Nat → Fab) : MonRes :=
  some (((List.range 192).filter (fun e => (monMask r).testBit e && f.monReach port e)).foldl g f, 0, [])

/-- Is the engine of a register request within reach, and does it stand open? The status otherwise. -/
def Fab.monEngStatus (f : Fab) (port : Option Nat) (r : Nat) : Nat :=
  if !f.monReach port (monEng r) then 1 else if (f.engine (monEng r)).openToArea then 0 else 0xA

/-- The device address of the `i`-th register of a request. -/
def monRegAddr (r i : Nat) : Nat := monEng r * 0x100000 + 0xF0000 + monOff r + 8 * i

/-- MON_RDREG. -/
def Fab.monRdreg (f : Fab) (port : Option Nat) (r : Nat) : MonRes :=
  if f.monEngStatus port r ≠ 0 then some (f, f.monEngStatus port r, [])
  else
    let x := (List.range (monCount r)).foldl (fun (x : Fab × List Nat) i =>
      let a := x.1.rdEcs dbgPort (monRegAddr r i) 8
      (a.fab, x.2 ++ toBytes a.data 8)) (f, [])
    some (x.1, 0, x.2)

/-- MON_WRREG. -/
def Fab.monWrreg (f : Fab) (port : Option Nat) (r : Nat) : MonRes :=
  if f.monEngStatus port r ≠ 0 then some (f, f.monEngStatus port r, [])
  else
    some ((List.range (monCount r)).foldl (fun g i => (g.wrEcs dbgPort (monRegAddr r i) 8 (rqBits r (7 + 8 * i) 64)).fab) f, 0, [])

/-- DBG.MADDR names the word that DBG.MDATA reaches. -/
def Fab.monAt (f : Fab) (a : Nat) (live : Bool) : Fab :=
  (f.set Reg.DBG_MADDR_ADDR (a / 8)).set Reg.DBG_MADDR_LIVE (b2n live)

/-- Is an address within what R376 admits for the source of a request? KIND of the refusal otherwise. -/
def Fab.monRefusal (f : Fab) (port : Option Nat) (a : Nat) (wr : Bool) : Option Nat :=
  match port with
  | none => none
  | some n =>
    if a < 0x0200000000 || isDdr a then f.refusal (f.host n) a wr
    else some 2

/-- Read the words of a MON_RDMEM through DBG.MDATA. -/
def Fab.monReads (f : Fab) (port : Option Nat) (a : Nat) (live : Bool) : Nat → MonRes
  | 0 => some (f, 0, [])
  | k + 1 =>
    let x : Acc := match f.monRefusal port a false with
      | some kind => ⟨ones 8, false, true, false, f.hostRefuse (f.host (port.getD 0)) a kind 0⟩
      | none => (f.monAt a live).mdataRead
    if x.wait then none
    else
      match x.fab.monReads port (a + 8) live k with
      | some t => some (t.1, 0, toBytes x.data 8 ++ t.2.2)
      | none => none

/-- Write the words of a MON_WRMEM through DBG.MDATA. -/
def Fab.monWrites (f : Fab) (port : Option Nat) (a now : Nat) : List Nat → MonRes
  | [] => some (f, 0, [])
  | v :: l =>
    let x : Acc := match f.monRefusal port a true with
      | some kind => ⟨0, false, true, false, f.hostRefuse (f.host (port.getD 0)) a kind 0⟩
      | none => (f.monAt a true).mdataWrite (w64 v) now
    if x.wait then none else x.fab.monWrites port (a + 8) now l

/-- What a request comes to once its length, features and binding are checked. -/
def Fab.monCheck (f : Fab) (port : Option Nat) (op r : Nat) (g : Fab → MonRes) : MonRes :=
  if !monForm op r || port.isSome && 8 ≤ rqBits r 0 8 then some (f, 1, [])
  else
    match port with
    | some n =>
      if !f.accepted n 12 then some (f, 2, [])
      else if !f.boundTo n (rqBits r 0 8) then some (f, 7, [])
      else g f
    | none => g f

/-- Serve a monitor request: from the head of the mailboxes, or over UART0, which answers CLOSED while debug access is closed. A
request that waits changes nothing. -/
def Fab.monitor (f : Fab) (src : MonSrc) (op : Nat) (g : Fab → Option Nat → Nat → MonRes) : Fab :=
  match src with
  | .mailbox n =>
    f.serve n op (fun f r =>
      match f.monCheck (some n) op r (fun f => g f (some n) r) with
      | some x => x.1.respond x.2.1 (rqBits r 0 8) x.2.2
      | none => f)
  | .uart seq payload =>
    let r := op + seq.toNat * 2 ^ 8 + payload.length * 2 ^ 16 + 2 ^ 64 * ofBytes (byteNums payload)
    let answer (f : Fab) (status : Nat) (l : List Nat) : Fab :=
      f.emit (.uart (uartFrame (toBytes (op + seq.toNat * 2 ^ 8 + status * 2 ^ 16 + rqBits r 0 8 * 2 ^ 24 + l.length * 2 ^ 32) 8 ++ l)))
    if !f.fwUp then f
    else if !f.bit Reg.DBG_STAT_OPEN then answer f 9 []
    else
      match f.monCheck none op r (fun f => g f none r) with
      | some x => answer x.1 x.2.1 x.2.2
      | none => f

/-! ### The test access port (R540) -/

/-- Does the boundary register drive or float pins: only while PORST_N is asserted? -/
def Fab.scanActs (f : Fab) : Bool := f.pwr.porst

/-- The instruction register takes a code. -/
def Fab.tapIr (f : Fab) (code drive : Nat) : Fab :=
  { f with tap := { f.tap with ir := BitVec.ofNat 4 code, drive := drive } }

/-- A data scan through the bypass register: one bit of delay, a 0 first. -/
def bypassScan (n v : Nat) : Nat := (2 * v) % 2 ^ n

/-- BYPASS. -/
def Fab.tapBypass (f : Fab) (code n v : Nat) : Fab := (f.tapIr code 0).emit (.tdo (bypassScan n v))

/-- EXTEST, CLAMP (drive 1) and HIGHZ (drive 2) act while PORST_N is asserted, and are as BYPASS at other times. CLAMP and HIGHZ
select the bypass register. -/
def Fab.tapDrive (f : Fab) (code drive n v : Nat) : Fab :=
  if f.scanActs then (f.tapIr code drive).emit (.tdo (bypassScan n v)) else f.tapBypass code n v

/-- A scan of the boundary register: the pins sampled come out, and the bits shifted in stay. -/
def Fab.tapBoundary (f : Fab) (code drive pins v : Nat) : Fab :=
  let f := f.tapIr code drive
  { f with tap := { f.tap with boundary := v } }.emit (.tdo pins)

/-! ### The meanings -/

/-- Run a monitor request of a source. -/
def onMon (src : MonSrc) (op : Nat) (g : Fab → Option Nat → Nat → MonRes) (s : State) : Host.Outcome State Fault Refusal :=
  match src with
  | .mailbox n => onHost n (fun f => f.monitor src op g) s
  | .uart _ payload =>
    if 1016 < payload.length then .refused .noSuchUnit else .next { s with fab := s.fab.whenLive (fun f => f.monitor src op g) }

/-- MON_STATUS. -/
def execMonStatus (src : MonSrc) (s : State) : Host.Outcome State Fault Refusal :=
  onMon src 0x10 (fun f port _ => f.monStatus port) s

/-- MON_HALT. -/
def execMonHalt (src : MonSrc) (s : State) : Host.Outcome State Fault Refusal :=
  onMon src 0x11 (fun f port r => f.monEngines port r (fun g e => g.ehalt e)) s

/-- MON_RESUME; `now` is the ECLK at which a HOLDING share may go on. -/
def execMonResume (src : MonSrc) (now : Nat) (s : State) : Host.Outcome State Fault Refusal :=
  onMon src 0x12 (fun f port r => f.monEngines port r (fun g e => g.eresume e now)) s

/-- MON_STEP. -/
def execMonStep (src : MonSrc) (now : Nat) (s : State) : Host.Outcome State Fault Refusal :=
  onMon src 0x13 (fun f port r => f.monEngines port r (fun g e => g.estep e now)) s

/-- MON_RDREG. -/
def execMonRdreg (src : MonSrc) (s : State) : Host.Outcome State Fault Refusal :=
  onMon src 0x14 (fun f port r => f.monRdreg port r) s

/-- MON_WRREG. -/
def execMonWrreg (src : MonSrc) (s : State) : Host.Outcome State Fault Refusal :=
  onMon src 0x15 (fun f port r => f.monWrreg port r) s

/-- MON_RDMEM. -/
def execMonRdmem (src : MonSrc) (s : State) : Host.Outcome State Fault Refusal :=
  onMon src 0x16 (fun f port r => f.monReads port (monAddr r) (rqBits r 8 8 == 1) (monLen r / 8)) s

/-- MON_WRMEM. -/
def execMonWrmem (src : MonSrc) (now : Nat) (s : State) : Host.Outcome State Fault Refusal :=
  onMon src 0x17 (fun f port r => f.monWrites port (monAddr r) now
    ((List.range (monLen r / 8)).map (fun i => rqBits r (8 + 8 * i) 64))) s

/-- EXTEST: `pins` are the levels that the boundary cells capture, `n` and `v` the bits of a scan. -/
def execExtest (pins n v : Nat) (s : State) : Host.Outcome State Fault Refusal :=
  .next { s with fab := if s.fab.scanActs then s.fab.tapBoundary 0 1 pins v else s.fab.tapBypass 0 n v }

/-- SAMPLE/PRELOAD. -/
def execSamplePreload (pins v : Nat) (s : State) : Host.Outcome State Fault Refusal :=
  .next { s with fab := s.fab.tapBoundary 1 0 pins v }

/-- IDCODE. -/
def execIdcode (s : State) : Host.Outcome State Fault Refusal :=
  .next { s with fab := (s.fab.tapIr 2 0).emit (.tdo 0x2019256B) }

/-- CLAMP. -/
def execClamp (n v : Nat) (s : State) : Host.Outcome State Fault Refusal := .next { s with fab := s.fab.tapDrive 3 1 n v }

/-- HIGHZ. -/
def execHighz (n v : Nat) (s : State) : Host.Outcome State Fault Refusal := .next { s with fab := s.fab.tapDrive 4 2 n v }

/-- BYPASS: code 15, or another code that names no instruction. -/
def execTapBypass (code : BitVec 4) (n v : Nat) (s : State) : Host.Outcome State Fault Refusal :=
  if code.toNat < 5 then .refused .noSuchUnit else .next { s with fab := s.fab.tapBypass code.toNat n v }

end Sys2Proof.Machine
end

