-- ==== Sys2Proof/Machine/Dispatch.lean ====
section
/-! DEFINITION. What each command does: one direct call of its meaning. -/

namespace Sys2Proof.Machine

/-- The effect of a command on everything but the queue. -/
def exec (i : Instr) (s : State) : Host.Outcome State Fault Refusal :=
  match i with
  | .bundleIssue e => Sys2Proof.Machine.execBundleIssue e s
  | .perfCounterWrap e k n => Sys2Proof.Machine.execPerfCounterWrap e k n s
  | .quinceResult e => Sys2Proof.Machine.execQuinceResult e s
  | .farLoadResult e idx at_ => Sys2Proof.Machine.execFarLoadResult e idx at_ s
  | .farStorePerformed x => Sys2Proof.Machine.execFarStorePerformed x s
  | .putVisible idx => Sys2Proof.Machine.execPutVisible idx s
  | .trapEntry e => Sys2Proof.Machine.execTrapEntry e s
  | .interruptEntry e b => Sys2Proof.Machine.execInterruptEntry e b s
  | .rteReturn e => Sys2Proof.Machine.execRteReturn e s
  | .engineRelease p t restored => Sys2Proof.Machine.execEngineRelease p t restored s
  | .designCycleBoundary p b => Sys2Proof.Machine.execDesignCycleBoundary p b s
  | .stimulusWrite p => Sys2Proof.Machine.execStimulusWrite p s
  | .report c now w => Sys2Proof.Machine.execReport c now w s
  | .decide c now w => Sys2Proof.Machine.execDecide c now w s
  | .ready c now w => Sys2Proof.Machine.execReady c now w s
  | .go c now w => Sys2Proof.Machine.execGo c now w s
  | .barrier c now w => Sys2Proof.Machine.execBarrier c now w s
  | .squareRelease c now w => Sys2Proof.Machine.execSquareRelease c now w s
  | .early c now w => Sys2Proof.Machine.execEarly c now w s
  | .sqEnd c now w => Sys2Proof.Machine.execSqEnd c now w s
  | .halt c now w => Sys2Proof.Machine.execHalt c now w s
  | .decisionTimeout p => Sys2Proof.Machine.execDecisionTimeout p s
  | .stepTimeout p now => Sys2Proof.Machine.execStepTimeout p now s
  | .sqCtlGo p now => Sys2Proof.Machine.execSqCtlGo p now s
  | .sqCtlStop p => Sys2Proof.Machine.execSqCtlStop p s
  | .sqCtlHoldreq p v now => Sys2Proof.Machine.execSqCtlHoldreq p v now s
  | .sqCtlClear p => Sys2Proof.Machine.execSqCtlClear p s
  | .sqCtlJreset p => Sys2Proof.Machine.execSqCtlJreset p s
  | .sqCtlCapen p v => Sys2Proof.Machine.execSqCtlCapen p v s
  | .sqCtlRunmode p v => Sys2Proof.Machine.execSqCtlRunmode p v s
  | .sqDcnWrite p v => Sys2Proof.Machine.execSqDcnWrite p v s
  | .viewHoldRequest p v => Sys2Proof.Machine.execViewHoldRequest p v s
  | .committedViewRead m p off len => Sys2Proof.Machine.execCommittedViewRead m p off len s
  | .committedViewWrite m p off len data => Sys2Proof.Machine.execCommittedViewWrite m p off len data s
  | .linkCtlEn c v => Sys2Proof.Machine.execLinkCtlEn c v s
  | .linkCtlRetrain c => Sys2Proof.Machine.execLinkCtlRetrain c s
  | .linkLatWrite c v => Sys2Proof.Machine.execLinkLatWrite c v s
  | .elecDone c => Sys2Proof.Machine.execElecDone c s
  | .elecTimeout c => Sys2Proof.Machine.execElecTimeout c s
  | .alignLock c lrev lpol => Sys2Proof.Machine.execAlignLock c lrev lpol s
  | .alignFail c => Sys2Proof.Machine.execAlignFail c s
  | .train c now w => Sys2Proof.Machine.execTrain c now w s
  | .timesync c now w => Sys2Proof.Machine.execTimesync c now w s
  | .timesyncEcho c now rtt w => Sys2Proof.Machine.execTimesyncEcho c now rtt w s
  | .latprobe c now w => Sys2Proof.Machine.execLatprobe c now w s
  | .pinComplete c peerOk => Sys2Proof.Machine.execPinComplete c peerOk s
  | .latprobeSend c now => Sys2Proof.Machine.execLatprobeSend c now s
  | .tblsync c now w => Sys2Proof.Machine.execTblsync c now w s
  | .frameFlit c now w => Sys2Proof.Machine.execFrameFlit c now w s
  | .scheduledFlit c now w => Sys2Proof.Machine.execScheduledFlit c now w s
  | .flitRelease c now => Sys2Proof.Machine.execFlitRelease c now s
  | .linkRead c now => Sys2Proof.Machine.execLinkRead c now s
  | .idleFlit c now w => Sys2Proof.Machine.execIdleFlit c now w s
  | .bgHdr c now w data => Sys2Proof.Machine.execBgHdr c now w data s
  | .ackFlit c now w => Sys2Proof.Machine.execAckFlit c now w s
  | .credit c now w => Sys2Proof.Machine.execCredit c now w s
  | .wake c now w => Sys2Proof.Machine.execWake c now w s
  | .down c now w => Sys2Proof.Machine.execDown c now w s
  | .lossOfSignal c => Sys2Proof.Machine.execLossOfSignal c s
  | .lossOfFrameLock c => Sys2Proof.Machine.execLossOfFrameLock c s
  | .ebOverflow c => Sys2Proof.Machine.execEbOverflow c s
  | .memOwnerWrite master isD j v => Sys2Proof.Machine.execMemOwnerWrite master isD j v s
  | .wipeComplete isD j => Sys2Proof.Machine.execWipeComplete isD j s
  | .memBstateWrite cb b r v => Sys2Proof.Machine.execMemBstateWrite cb b r v s
  | .bankTransitionComplete a => Sys2Proof.Machine.execBankTransitionComplete a s
  | .repairWriteback a => Sys2Proof.Machine.execRepairWriteback a s
  | .poisonRewrite a => Sys2Proof.Machine.execPoisonRewrite a s
  | .scrubWord isD => Sys2Proof.Machine.execScrubWord isD s
  | .scrubPassOverrun isD => Sys2Proof.Machine.execScrubPassOverrun isD s
  | .testerChunk fails bad lost => Sys2Proof.Machine.execTesterChunk fails bad lost s
  | .scrubInject master v => Sys2Proof.Machine.execScrubInject master v s
  | .ddrSweep n => Sys2Proof.Machine.execDdrSweep n s
  | .hostMemoryRead n bar o len => Sys2Proof.Machine.execHostMemoryRead n bar o len s
  | .hostMemoryWrite n bar o data bad now => Sys2Proof.Machine.execHostMemoryWrite n bar o data bad now s
  | .completerAbort n rd => Sys2Proof.Machine.execCompleterAbort n rd s
  | .functionLevelReset n => Sys2Proof.Machine.execFunctionLevelReset n s
  | .perstN n asserted speed width => Sys2Proof.Machine.execPerstN n asserted speed width s
  | .featAcceptWrite m n v => Sys2Proof.Machine.execFeatAcceptWrite m n v s
  | .doorbell n v => Sys2Proof.Machine.execDoorbell n v s
  | .query n => Sys2Proof.Machine.execQuery n s
  | .create n => Sys2Proof.Machine.execCreate n s
  | .destroy n => Sys2Proof.Machine.execDestroy n s
  | .ddrAdd n => Sys2Proof.Machine.execDdrAdd n s
  | .ddrRelease n => Sys2Proof.Machine.execDdrRelease n s
  | .declare n => Sys2Proof.Machine.execDeclare n s
  | .monStatus src => Sys2Proof.Machine.execMonStatus src s
  | .monHalt src => Sys2Proof.Machine.execMonHalt src s
  | .monResume src now => Sys2Proof.Machine.execMonResume src now s
  | .monStep src now => Sys2Proof.Machine.execMonStep src now s
  | .monRdreg src => Sys2Proof.Machine.execMonRdreg src s
  | .monWrreg src => Sys2Proof.Machine.execMonWrreg src s
  | .monRdmem src => Sys2Proof.Machine.execMonRdmem src s
  | .monWrmem src now => Sys2Proof.Machine.execMonWrmem src now s
  | .dmaStart master k => Sys2Proof.Machine.execDmaStart master k s
  | .dmaDisable k => Sys2Proof.Machine.execDmaDisable k s
  | .dmaCtlDisable v => Sys2Proof.Machine.execDmaCtlDisable v s
  | .descriptorFetch k ok data => Sys2Proof.Machine.execDescriptorFetch k ok data s
  | .dmaReadResponse k ok data => Sys2Proof.Machine.execDmaReadResponse k ok data s
  | .dmaWriteResponse k ok => Sys2Proof.Machine.execDmaWriteResponse k ok s
  | .descriptorComplete k ok => Sys2Proof.Machine.execDescriptorComplete k ok s
  | .dmaTimeout x => Sys2Proof.Machine.execDmaTimeout x s
  | .dmaQuiesce k => Sys2Proof.Machine.execDmaQuiesce k s
  | .iscMessage => Sys2Proof.Machine.execIscMessage s
  | .iscClaim t src => Sys2Proof.Machine.execIscClaim t src s
  | .iscComplete t src => Sys2Proof.Machine.execIscComplete t src s
  | .iscEoi t => Sys2Proof.Machine.execIscEoi t s
  | .coalescingTimer src => Sys2Proof.Machine.execCoalescingTimer src s
  | .iscScfgWrite m src v => Sys2Proof.Machine.execIscScfgWrite m src v s
  | .iscSmaskWrite m src j v => Sys2Proof.Machine.execIscSmaskWrite m src j v s
  | .iscCtlWrite m v => Sys2Proof.Machine.execIscCtlWrite m v s
  | .iscSraise m db src lvl => Sys2Proof.Machine.execIscSraise m db src lvl s
  | .ddrRetrain m ds => Sys2Proof.Machine.execDdrRetrain m ds s
  | .refresh n => Sys2Proof.Machine.execRefresh n s
  | .dimmTemperatureRead n t hot => Sys2Proof.Machine.execDimmTemperatureRead n t hot s
  | .caParityAlert n second words => Sys2Proof.Machine.execCaParityAlert n second words s
  | .startUp b => Sys2Proof.Machine.execStartUp b s
  | .damsonInstruction op now => Sys2Proof.Machine.execDamsonInstruction op now s
  | .damsonLoadResponse fail => Sys2Proof.Machine.execDamsonLoadResponse fail s
  | .damsonBusTimeout => Sys2Proof.Machine.execDamsonBusTimeout s
  | .damsonDivideComplete => Sys2Proof.Machine.execDamsonDivideComplete s
  | .damsonInterrupt inTime => Sys2Proof.Machine.execDamsonInterrupt inTime s
  | .wdogKick m v => Sys2Proof.Machine.execWdogKick m v s
  | .wdogExpiry => Sys2Proof.Machine.execWdogExpiry s
  | .status => Sys2Proof.Machine.execStatus s
  | .sensors j => Sys2Proof.Machine.execSensors j s
  | .imgErase => Sys2Proof.Machine.execImgErase s
  | .imgWrite off data => Sys2Proof.Machine.execImgWrite off data s
  | .imgActivate => Sys2Proof.Machine.execImgActivate s
  | .confirm => Sys2Proof.Machine.execConfirm s
  | .svnCommit => Sys2Proof.Machine.execSvnCommit s
  | .attest nonce => Sys2Proof.Machine.execAttest nonce s
  | .cert => Sys2Proof.Machine.execCert s
  | .logRead seq => Sys2Proof.Machine.execLogRead seq s
  | .lcRequest token => Sys2Proof.Machine.execLcRequest token s
  | .optBurn req => Sys2Proof.Machine.execOptBurn req s
  | .flashDone => Sys2Proof.Machine.execFlashDone s
  | .sensorSample ts vs => Sys2Proof.Machine.execSensorSample ts vs s
  | .thermalRelease now => Sys2Proof.Machine.execThermalRelease now s
  | .tamperTrip => Sys2Proof.Machine.execTamperTrip s
  | .umxSample i0 v0 i1 v1 => Sys2Proof.Machine.execUmxSample i0 v0 i1 v1 s
  | .umxMillisecond act => Sys2Proof.Machine.execUmxMillisecond act s
  | .umxCheckpoint => Sys2Proof.Machine.execUmxCheckpoint s
  | .usageRecord => Sys2Proof.Machine.execUsageRecord s
  | .timebaseCheck n => Sys2Proof.Machine.execTimebaseCheck n s
  | .sealSample open_ => Sys2Proof.Machine.execSealSample open_ s
  | .setInterval m arg => Sys2Proof.Machine.execSetInterval m arg s
  | .update m arg => Sys2Proof.Machine.execUpdate m arg s
  | .enclaveRestart => Sys2Proof.Machine.execEnclaveRestart s
  | .dxwResync => Sys2Proof.Machine.execDxwResync s
  | .wdataRead => Sys2Proof.Machine.execWdataRead s
  | .wdataWrite v crc => Sys2Proof.Machine.execWdataWrite v crc s
  | .debugAccessDone late now => Sys2Proof.Machine.execDebugAccessDone late now s
  | .wchalRead => Sys2Proof.Machine.execWchalRead s
  | .wunlockWrite v crc => Sys2Proof.Machine.execWunlockWrite v crc s
  | .chalnew v crc => Sys2Proof.Machine.execChalnew v crc s
  | .unlkPw v crc => Sys2Proof.Machine.execUnlkPw v crc s
  | .unlkTok v crc => Sys2Proof.Machine.execUnlkTok v crc s
  | .unlockCheckDone => Sys2Proof.Machine.execUnlockCheckDone s
  | .ehalt m e => Sys2Proof.Machine.execEhalt m e s
  | .engineHalt e => Sys2Proof.Machine.execEngineHalt e s
  | .estep m e now => Sys2Proof.Machine.execEstep m e now s
  | .eresume m e now => Sys2Proof.Machine.execEresume m e now s
  | .damsonHalt m late => Sys2Proof.Machine.execDamsonHalt m late s
  | .damsonResume m => Sys2Proof.Machine.execDamsonResume m s
  | .damsonStep m => Sys2Proof.Machine.execDamsonStep m s
  | .mdataAccess m wr now => Sys2Proof.Machine.execMdataAccess m wr now s
  | .extest pins n v => Sys2Proof.Machine.execExtest pins n v s
  | .samplePreload pins v => Sys2Proof.Machine.execSamplePreload pins v s
  | .idcode => Sys2Proof.Machine.execIdcode s
  | .clamp n v => Sys2Proof.Machine.execClamp n v s
  | .highz n v => Sys2Proof.Machine.execHighz n v s
  | .tapBypass code n v => Sys2Proof.Machine.execTapBypass code n v s
  | .sleepRequest m v => Sys2Proof.Machine.execSleepRequest m v s
  | .sleepCommit => Sys2Proof.Machine.execSleepCommit s
  | .wakeEvent kind j => Sys2Proof.Machine.execWakeEvent kind j s
  | .linkwake m v => Sys2Proof.Machine.execLinkwake m v s
  | .eclkFreqWrite m g v => Sys2Proof.Machine.execEclkFreqWrite m g v s
  | .blockReqWrite m b v => Sys2Proof.Machine.execBlockReqWrite m b v s
  | .blockTransitionComplete b => Sys2Proof.Machine.execBlockTransitionComplete b s
  | .droopEvent b recent => Sys2Proof.Machine.execDroopEvent b recent s
  | .porstNAssert => Sys2Proof.Machine.execPorstNAssert s
  | .brownOut rail => Sys2Proof.Machine.execBrownOut rail s
  | .aonLoss => Sys2Proof.Machine.execAonLoss s
  | .thermtrip => Sys2Proof.Machine.execThermtrip s
  | .registerWrite m a n v now => Sys2Proof.Machine.execRegisterWrite m a n v now s
  | .conflictCounterWrap b m n => Sys2Proof.Machine.execConflictCounterWrap b m n s
  | .vaultWipeComplete => Sys2Proof.Machine.execVaultWipeComplete s
  | .eclkPllLock g => Sys2Proof.Machine.execEclkPllLock g s
  | .railsInRange b => Sys2Proof.Machine.execRailsInRange b s
  | .dormantExitTimeout => Sys2Proof.Machine.execDormantExitTimeout s
  | .ringPtrWrite p q v now => Sys2Proof.Machine.execRingPtrWrite p q v now s

end Sys2Proof.Machine
end

