-- ==== Sys2Proof/Machine/Elder.lean ====
section
/-! DEFINITION. What the Elder clock does by itself (spec/19): one XTAL32 period, which passes when no command waits (log 9). -/

namespace Sys2Proof.Machine

/-- PWR.ETIME counts; at COUNT = CMP it is a TIMER wake event (R543, R552). -/
def Fab.etimeTick (f : Fab) : Fab :=
  let t := f.reg Reg.PWR_ETIME + 1
  let f := f.setReg Reg.PWR_ETIME t
  if f.reg Reg.PWR_ETIMER = t then f.wakeEvent 4 0 28 else f

/-- The watchdog counts at 1,024 Hz while it is enabled and not frozen (R489, R490). -/
def Fab.wdogTick (f : Fab) : Fab :=
  if f.live && f.bit Reg.DEV_WDOG_EN && !f.bit Reg.DBG_DSTAT_HALTED && (f.reg Reg.PWR_ETIME).toNat % 32 = 0 then
    f.set Reg.DEV_WDOG_COUNT (f.get Reg.DEV_WDOG_COUNT - 1)
  else f

/-- LOCKOUT counts seconds down (R528). -/
def Fab.lockoutTick (f : Fab) : Fab :=
  if f.dxw.lockout = 0 then f
  else f.updDxw (fun x =>
    if x.tick + 1 < 32768 then { x with tick := x.tick + 1 } else { x with tick := 0, lockout := x.lockout - 1 })

/-- The timebase has advanced as far as ETIME says while the device runs: 390,625/8 units a period (R320, log 75). -/
def Fab.clkTick (f : Fab) : Fab :=
  if f.live then { f with clk := max f.clk ((f.reg Reg.PWR_ETIME).toNat * 390625 / 8) } else f

/-- One XTAL32 period. -/
def Fab.xtalTick (f : Fab) : Fab := f.etimeTick.wdogTick.lockoutTick.clkTick

end Sys2Proof.Machine
end

