-- ==== Sys2Proof/Laws/Store.lean ====
section
/-! SUPPORT. Laws of sparse data: a read after a write, and the canonical form that every operation keeps. -/

namespace Sys2Proof.Machine

/-- Every key of the store is above `i`. -/
def Store.above {α : Type} (i : Nat) (s : Store α) : Prop := ∀ c ∈ s, i < c.1

theorem Store.get_put_same {α : Type} (d : α) (s : Store α) (i : Nat) (v : α) : Store.get d (s.put i v) i = v := by
  induction s with
  | nil => simp [Store.put, Store.get]
  | cons c t ih =>
    obtain ⟨k, u⟩ := c
    unfold Store.put
    split
    · simp [Store.get]
    · split
      · subst_vars; simp [Store.get]
      · simp [Store.get, *]

theorem Store.get_put_ne {α : Type} (d : α) (s : Store α) {i j : Nat} (v : α) (h : j ≠ i) :
    Store.get d (s.put i v) j = Store.get d s j := by
  induction s with
  | nil => simp [Store.put, Store.get, h]
  | cons c t ih =>
    obtain ⟨k, u⟩ := c
    unfold Store.put
    split
    · simp [Store.get, h]
    · split
      · subst_vars; simp [Store.get, h]
      · simp [Store.get, ih]

theorem Store.get_filter {α : Type} (d : α) (s : Store α) (p : Nat → Bool) (i : Nat) :
    Store.get d (s.filter (fun c => p c.1)) i = if p i then Store.get d s i else d := by
  induction s with
  | nil => simp [Store.get]
  | cons c t ih =>
    obtain ⟨k, u⟩ := c
    by_cases hk : p k
    · by_cases hi : i = k
      · subst hi; simp [Store.get, hk]
      · simp [Store.get, hk, hi, ih]
    · by_cases hi : i = k
      · subst hi; simp [hk, ih]
      · simp [Store.get, hk, hi, ih]

theorem Store.get_del_same {α : Type} (d : α) (s : Store α) (i : Nat) : Store.get d (s.del i) i = d := by
  simpa [Store.del] using Store.get_filter d s (fun k => decide (k ≠ i)) i

theorem Store.get_del_ne {α : Type} (d : α) (s : Store α) {i j : Nat} (h : j ≠ i) :
    Store.get d (s.del i) j = Store.get d s j := by
  simpa [Store.del, h] using Store.get_filter d s (fun k => decide (k ≠ i)) j

/-- A read after a write of the same key gives the value written. -/
@[simp] theorem Store.get_set_same {α : Type} [DecidableEq α] (d : α) (s : Store α) (i : Nat) (v : α) :
    Store.get d (Store.set d s i v) i = v := by
  unfold Store.set
  split
  · subst_vars; exact Store.get_del_same _ s i
  · exact Store.get_put_same d s i v

/-- A write leaves every other key alone. The defaults of the read and of the write may differ. -/
theorem Store.get_set_ne {α : Type} [DecidableEq α] (d e : α) (s : Store α) {i j : Nat} (v : α) (h : j ≠ i) :
    Store.get d (Store.set e s i v) j = Store.get d s j := by
  unfold Store.set
  split
  · exact Store.get_del_ne d s h
  · exact Store.get_put_ne d s v h

/-! ### The canonical form -/

/-- The canonical form, as each entry sees it. -/
theorem Store.wf_cons {α : Type} [DecidableEq α] (d : Nat → α) (k : Nat) (v : α) (t : Store α) :
    Store.wf d ((k, v) :: t) = true ↔ v ≠ d k ∧ Store.above k t ∧ Store.wf d t = true := by
  induction t generalizing k v with
  | nil => simp [Store.wf, Store.above]
  | cons c t ih =>
    obtain ⟨k', v'⟩ := c
    have h := ih k' v'
    simp only [Store.wf, Bool.and_eq_true, decide_eq_true_eq, h, Store.above, List.mem_cons]
    constructor
    · rintro ⟨⟨a, b⟩, c, e, g⟩
      refine ⟨a, ?_, c, e, g⟩
      rintro x (rfl | hx)
      · exact b
      · exact Nat.lt_trans b (e x hx)
    · rintro ⟨a, b, c, e, g⟩
      exact ⟨⟨a, b (k', v') (.inl rfl)⟩, c, e, g⟩

theorem Store.wf_filter {α : Type} [DecidableEq α] (d : Nat → α) (s : Store α) (p : Nat × α → Bool) (h : Store.wf d s = true) :
    Store.wf d (s.filter p) = true := by
  induction s with
  | nil => rfl
  | cons c t ih =>
    obtain ⟨k, v⟩ := c
    rw [Store.wf_cons] at h
    by_cases hp : p (k, v)
    · rw [List.filter_cons_of_pos hp, Store.wf_cons]
      exact ⟨h.1, fun x hx => h.2.1 x (List.mem_filter.1 hx).1, ih h.2.2⟩
    · rw [List.filter_cons_of_neg hp]
      exact ih h.2.2

theorem Store.mem_put {α : Type} (s : Store α) (i : Nat) (v : α) (x : Nat × α) (h : x ∈ s.put i v) : x = (i, v) ∨ x ∈ s := by
  induction s with
  | nil => simpa [Store.put] using h
  | cons c t ih =>
    obtain ⟨k, u⟩ := c
    unfold Store.put at h
    split at h
    · simpa using h
    · split at h
      · subst_vars
        simp only [List.mem_cons] at h ⊢
        rcases h with h | h
        · exact .inl h
        · exact .inr (.inr h)
      · simp only [List.mem_cons] at h ⊢
        rcases h with h | h
        · exact .inr (.inl h)
        · rcases ih h with h | h
          · exact .inl h
          · exact .inr (.inr h)

theorem Store.wf_put {α : Type} [DecidableEq α] (d : Nat → α) (s : Store α) (i : Nat) (v : α) (h : Store.wf d s = true)
    (hv : v ≠ d i) : Store.wf d (s.put i v) = true := by
  induction s with
  | nil => simp [Store.put, Store.wf, hv]
  | cons c t ih =>
    obtain ⟨k, u⟩ := c
    have h' := (Store.wf_cons d k u t).1 h
    unfold Store.put
    split
    · rename_i hlt
      rw [Store.wf_cons]
      refine ⟨hv, ?_, h⟩
      intro x hx
      rcases List.mem_cons.1 hx with rfl | hx
      · exact hlt
      · exact Nat.lt_trans hlt (h'.2.1 x hx)
    · split
      · subst_vars
        rw [Store.wf_cons]
        exact ⟨hv, h'.2.1, h'.2.2⟩
      · rename_i hlt hne
        rw [Store.wf_cons]
        refine ⟨h'.1, ?_, ih h'.2.2⟩
        intro x hx
        rcases Store.mem_put t i v x hx with rfl | hx
        · exact Nat.lt_of_le_of_ne (Nat.le_of_not_lt hlt) (fun e => hne e.symm)
        · exact h'.2.1 x hx

/-- A write keeps the canonical form. -/
theorem Store.wf_set {α : Type} [DecidableEq α] (d : Nat → α) (s : Store α) (i : Nat) (v : α) (h : Store.wf d s = true) :
    Store.wf d (Store.set (d i) s i v) = true := by
  unfold Store.set
  split
  · exact Store.wf_filter d s _ h
  · exact Store.wf_put d s i v h ‹_›

theorem Store.wf_clear {α : Type} [DecidableEq α] (d : Nat → α) (s : Store α) (lo hi : Nat) (h : Store.wf d s = true) :
    Store.wf d (s.clear lo hi) = true := Store.wf_filter d s _ h

/-- In the canonical form, stores that read alike are equal: equal contents are equal data. -/
theorem Store.ext_of_get {α : Type} [DecidableEq α] (d : Nat → α) {s t : Store α} (hs : Store.wf d s = true)
    (ht : Store.wf d t = true) (h : ∀ i, Store.get (d i) s i = Store.get (d i) t i) : s = t := by
  induction s generalizing t with
  | nil =>
    cases t with
    | nil => rfl
    | cons c t =>
      obtain ⟨k, v⟩ := c
      have := h k
      simp [Store.get] at this
      exact absurd this.symm ((Store.wf_cons d k v t).1 ht).1
  | cons c s ih =>
    obtain ⟨k, v⟩ := c
    have hs' := (Store.wf_cons d k v s).1 hs
    have low : ∀ (u : Store α) (j i : Nat), Store.above j u → i ≤ j → Store.get (d i) u i = d i := by
      intro u j i hu hij
      induction u with
      | nil => rfl
      | cons x u ihu =>
        have hx := hu x (List.mem_cons_self ..)
        simp only [Store.get]
        rw [if_neg (by omega)]
        exact ihu (fun y hy => hu y (List.mem_cons_of_mem _ hy))
    cases t with
    | nil =>
      have := h k
      simp [Store.get] at this
      exact absurd this hs'.1
    | cons c t =>
      obtain ⟨k', v'⟩ := c
      have ht' := (Store.wf_cons d k' v' t).1 ht
      have e : k = k' := by
        rcases Nat.lt_trichotomy k k' with hlt | heq | hgt
        · have := h k
          simp only [Store.get, if_true] at this
          rw [if_neg (by omega), low t k' k ht'.2.1 (by omega)] at this
          exact absurd this hs'.1
        · exact heq
        · have := h k'
          simp only [Store.get, if_true] at this
          rw [if_neg (by omega), low s k k' hs'.2.1 (by omega)] at this
          exact absurd this.symm ht'.1
      subst e
      have ev : v = v' := by simpa [Store.get] using h k
      subst ev
      refine congrArg _ (ih hs'.2.2 ht'.2.2 (fun i => ?_))
      by_cases hi : i = k
      · subst hi
        rw [low s i i hs'.2.1 (Nat.le_refl _), low t i i ht'.2.1 (Nat.le_refl _)]
      · have := h i
        simpa [Store.get, hi] using this

end Sys2Proof.Machine
end

