-- ==== Sys2Proof/Laws/Memory.lean ====
section
/-! SUPPORT. Laws of memory: every memory operation keeps the canonical form; a read after a write gives the bytes written, and
a write leaves every other byte alone. -/

namespace Sys2Proof.Machine

@[simp] theorem byteAt_setByte_same (m : List Host.Cell) (a : Nat) (v : Byte) : byteAt (setByte m a v) a = v :=
  Store.get_set_same 0 m a v

theorem byteAt_setByte_ne (m : List Host.Cell) {a b : Nat} (v : Byte) (h : b ≠ a) : byteAt (setByte m a v) b = byteAt m b :=
  Store.get_set_ne 0 0 m v h

theorem setByte_wf {m : List Host.Cell} (a : Nat) (v : Byte) (h : Memory.wf m = true) : Memory.wf (setByte m a v) = true :=
  Store.wf_set (fun _ => (0 : Byte)) m a v h

/-- A store of bytes keeps the canonical form. -/
theorem writeN_wf {m : List Host.Cell} (a n v : Nat) (h : Memory.wf m = true) : Memory.wf (writeN m a n v) = true := by
  induction n generalizing m a v with
  | zero => exact h
  | succ n ih => exact ih _ _ (setByte_wf _ _ h)

/-- Clearing a range of addresses keeps the canonical form. -/
theorem clear_wf {m : List Host.Cell} (lo hi : Nat) (h : Memory.wf m = true) : Memory.wf (Store.clear m lo hi) = true :=
  Store.wf_clear (fun _ => (0 : Byte)) m lo hi h

/-- Removing bytes keeps the canonical form. -/
theorem filter_wf {m : List Host.Cell} (p : Host.Cell → Bool) (h : Memory.wf m = true) : Memory.wf (m.filter p) = true :=
  Store.wf_filter (fun _ => (0 : Byte)) m p h

/-- A store leaves every byte outside the bytes stored alone. -/
theorem byteAt_writeN_outside (m : List Host.Cell) (a n v b : Nat) (h : b < a ∨ a + n ≤ b) :
    byteAt (writeN m a n v) b = byteAt m b := by
  induction n generalizing m a v with
  | zero => rfl
  | succ n ih =>
    rw [writeN, ih _ _ _ (by omega), byteAt_setByte_ne _ _ (by omega)]

/-- A byte stored reads back. -/
theorem byteAt_writeN (m : List Host.Cell) (a n v i : Nat) (h : i < n) :
    byteAt (writeN m a n v) (a + i) = BitVec.ofNat 8 (v / 256 ^ i) := by
  induction n generalizing m a v i with
  | zero => omega
  | succ n ih =>
    cases i with
    | zero => rw [writeN, byteAt_writeN_outside _ _ _ _ _ (by omega)]; simp
    | succ i =>
      have := ih (setByte m a (BitVec.ofNat 8 v)) (a + 1) (v / 256) i (by omega)
      rw [writeN, show a + (i + 1) = a + 1 + i by omega, this, Nat.div_div_eq_div_mul, Nat.pow_succ, Nat.mul_comm 256]

/-- Bytes that agree read alike. -/
theorem readN_congr (m m' : List Host.Cell) (a n : Nat) (h : ∀ i, i < n → byteAt m (a + i) = byteAt m' (a + i)) :
    readN m a n = readN m' a n := by
  induction n generalizing a with
  | zero => rfl
  | succ n ih =>
    rw [readN, readN, ih (a + 1) (fun i hi => by have := h (i + 1) (by omega); rwa [show a + (i + 1) = a + 1 + i by omega] at this)]
    have := h 0 (by omega)
    rw [Nat.add_zero] at this
    rw [this]

/-- Reading outside the bytes stored gives what it gave. -/
theorem readN_writeN_outside (m : List Host.Cell) (a n v b k : Nat) (h : b + k ≤ a ∨ a + n ≤ b) :
    readN (writeN m a n v) b k = readN m b k :=
  readN_congr _ _ _ _ (fun i hi => byteAt_writeN_outside _ _ _ _ _ (by omega))

/-- Reading the bytes stored gives the number stored. -/
theorem readN_writeN (m : List Host.Cell) (a n v : Nat) : readN (writeN m a n v) a n = v % 256 ^ n := by
  induction n generalizing m a v with
  | zero => simp [readN, Nat.mod_one]
  | succ n ih =>
    rw [readN, writeN, ih, byteAt_writeN_outside _ _ _ _ _ (by omega), byteAt_setByte_same, BitVec.toNat_ofNat]
    change v % 256 + 256 * (v / 256 % 256 ^ n) = v % 256 ^ (n + 1)
    rw [Nat.pow_succ, Nat.mul_comm (256 ^ n) 256, Nat.mod_mul]

end Sys2Proof.Machine
end

