-- ==== Sys2Proof/Laws/State.lean ====
section
/-! SUPPORT. What the updates of State leave alone, one lemma for each update and field or reader; and what an update of a
Store-held part reads as. -/

namespace Sys2Proof.Machine


/-! ### setReg -/

@[simp] theorem Fab.setReg_mem (f : Fab) (a : Nat) (v : Word) : (f.setReg a v).mem = f.mem := rfl
@[simp] theorem Fab.setReg_err (f : Fab) (a : Nat) (v : Word) : (f.setReg a v).err = f.err := rfl
@[simp] theorem Fab.setReg_key (f : Fab) (a : Nat) (v : Word) : (f.setReg a v).key = f.key := rfl
@[simp] theorem Fab.setReg_keys (f : Fab) (a : Nat) (v : Word) : (f.setReg a v).keys = f.keys := rfl
@[simp] theorem Fab.setReg_pairs (f : Fab) (a : Nat) (v : Word) : (f.setReg a v).pairs = f.pairs := rfl
@[simp] theorem Fab.setReg_repair (f : Fab) (a : Nat) (v : Word) : (f.setReg a v).repair = f.repair := rfl
@[simp] theorem Fab.setReg_breq (f : Fab) (a : Nat) (v : Word) : (f.setReg a v).breq = f.breq := rfl
@[simp] theorem Fab.setReg_lost (f : Fab) (a : Nat) (v : Word) : (f.setReg a v).lost = f.lost := rfl
@[simp] theorem Fab.setReg_eng (f : Fab) (a : Nat) (v : Word) : (f.setReg a v).eng = f.eng := rfl
@[simp] theorem Fab.setReg_sh (f : Fab) (a : Nat) (v : Word) : (f.setReg a v).sh = f.sh := rfl
@[simp] theorem Fab.setReg_stq (f : Fab) (a : Nat) (v : Word) : (f.setReg a v).stq = f.stq := rfl
@[simp] theorem Fab.setReg_puts (f : Fab) (a : Nat) (v : Word) : (f.setReg a v).puts = f.puts := rfl
@[simp] theorem Fab.setReg_past (f : Fab) (a : Nat) (v : Word) : (f.setReg a v).past = f.past := rfl
@[simp] theorem Fab.setReg_pbT (f : Fab) (a : Nat) (v : Word) : (f.setReg a v).pbT = f.pbT := rfl
@[simp] theorem Fab.setReg_confT (f : Fab) (a : Nat) (v : Word) : (f.setReg a v).confT = f.confT := rfl
@[simp] theorem Fab.setReg_tBad (f : Fab) (a : Nat) (v : Word) : (f.setReg a v).tBad = f.tBad := rfl
@[simp] theorem Fab.setReg_injWait (f : Fab) (a : Nat) (v : Word) : (f.setReg a v).injWait = f.injWait := rfl
@[simp] theorem Fab.setReg_link (f : Fab) (a : Nat) (v : Word) : (f.setReg a v).link = f.link := rfl
@[simp] theorem Fab.setReg_farSt (f : Fab) (a : Nat) (v : Word) : (f.setReg a v).farSt = f.farSt := rfl
@[simp] theorem Fab.setReg_dma (f : Fab) (a : Nat) (v : Word) : (f.setReg a v).dma = f.dma := rfl
@[simp] theorem Fab.setReg_dmaR (f : Fab) (a : Nat) (v : Word) : (f.setReg a v).dmaR = f.dmaR := rfl
@[simp] theorem Fab.setReg_dmaW (f : Fab) (a : Nat) (v : Word) : (f.setReg a v).dmaW = f.dmaW := rfl
@[simp] theorem Fab.setReg_inbox (f : Fab) (a : Nat) (v : Word) : (f.setReg a v).inbox = f.inbox := rfl
@[simp] theorem Fab.setReg_latched (f : Fab) (a : Nat) (v : Word) : (f.setReg a v).latched = f.latched := rfl
@[simp] theorem Fab.setReg_pres (f : Fab) (a : Nat) (v : Word) : (f.setReg a v).pres = f.pres := rfl
@[simp] theorem Fab.setReg_istk (f : Fab) (a : Nat) (v : Word) : (f.setReg a v).istk = f.istk := rfl
@[simp] theorem Fab.setReg_itim (f : Fab) (a : Nat) (v : Word) : (f.setReg a v).itim = f.itim := rfl
@[simp] theorem Fab.setReg_dhalt (f : Fab) (a : Nat) (v : Word) : (f.setReg a v).dhalt = f.dhalt := rfl
@[simp] theorem Fab.setReg_msixTab (f : Fab) (a : Nat) (v : Word) : (f.setReg a v).msixTab = f.msixTab := rfl
@[simp] theorem Fab.setReg_msixPend (f : Fab) (a : Nat) (v : Word) : (f.setReg a v).msixPend = f.msixPend := rfl
@[simp] theorem Fab.setReg_pcfg (f : Fab) (a : Nat) (v : Word) : (f.setReg a v).pcfg = f.pcfg := rfl
@[simp] theorem Fab.setReg_pwr (f : Fab) (a : Nat) (v : Word) : (f.setReg a v).pwr = f.pwr := rfl
@[simp] theorem Fab.setReg_mgmt (f : Fab) (a : Nat) (v : Word) : (f.setReg a v).mgmt = f.mgmt := rfl
@[simp] theorem Fab.setReg_mbx (f : Fab) (a : Nat) (v : Word) : (f.setReg a v).mbx = f.mbx := rfl
@[simp] theorem Fab.setReg_dam (f : Fab) (a : Nat) (v : Word) : (f.setReg a v).dam = f.dam := rfl
@[simp] theorem Fab.setReg_umx (f : Fab) (a : Nat) (v : Word) : (f.setReg a v).umx = f.umx := rfl
@[simp] theorem Fab.setReg_dxw (f : Fab) (a : Nat) (v : Word) : (f.setReg a v).dxw = f.dxw := rfl
@[simp] theorem Fab.setReg_tap (f : Fab) (a : Nat) (v : Word) : (f.setReg a v).tap = f.tap := rfl
@[simp] theorem Fab.setReg_dimms (f : Fab) (a : Nat) (v : Word) : (f.setReg a v).dimms = f.dimms := rfl
@[simp] theorem Fab.setReg_ref2x (f : Fab) (a : Nat) (v : Word) : (f.setReg a v).ref2x = f.ref2x := rfl
@[simp] theorem Fab.setReg_once (f : Fab) (a : Nat) (v : Word) : (f.setReg a v).once = f.once := rfl
@[simp] theorem Fab.setReg_clk (f : Fab) (a : Nat) (v : Word) : (f.setReg a v).clk = f.clk := rfl
@[simp] theorem Fab.setReg_tbOff (f : Fab) (a : Nat) (v : Word) : (f.setReg a v).tbOff = f.tbOff := rfl
@[simp] theorem Fab.setReg_out (f : Fab) (a : Nat) (v : Word) : (f.setReg a v).out = f.out := rfl
@[simp] theorem Fab.setReg_fresh (f : Fab) (a : Nat) (v : Word) : (f.setReg a v).fresh = f.fresh := rfl
@[simp] theorem Fab.setReg_engine (f : Fab) (a : Nat) (v : Word) (i : Nat) : (f.setReg a v).engine i = f.engine i := rfl
@[simp] theorem Fab.setReg_share (f : Fab) (a : Nat) (v : Word) (i : Nat) : (f.setReg a v).share i = f.share i := rfl
@[simp] theorem Fab.setReg_port (f : Fab) (a : Nat) (v : Word) (i : Nat) : (f.setReg a v).port i = f.port i := rfl
@[simp] theorem Fab.setReg_ch (f : Fab) (a : Nat) (v : Word) (i : Nat) : (f.setReg a v).ch i = f.ch i := rfl

/-! ### set -/

@[simp] theorem Fab.set_mem (f : Fab) (x : Fld) (v : Nat) : (f.set x v).mem = f.mem := rfl
@[simp] theorem Fab.set_err (f : Fab) (x : Fld) (v : Nat) : (f.set x v).err = f.err := rfl
@[simp] theorem Fab.set_key (f : Fab) (x : Fld) (v : Nat) : (f.set x v).key = f.key := rfl
@[simp] theorem Fab.set_keys (f : Fab) (x : Fld) (v : Nat) : (f.set x v).keys = f.keys := rfl
@[simp] theorem Fab.set_pairs (f : Fab) (x : Fld) (v : Nat) : (f.set x v).pairs = f.pairs := rfl
@[simp] theorem Fab.set_repair (f : Fab) (x : Fld) (v : Nat) : (f.set x v).repair = f.repair := rfl
@[simp] theorem Fab.set_breq (f : Fab) (x : Fld) (v : Nat) : (f.set x v).breq = f.breq := rfl
@[simp] theorem Fab.set_lost (f : Fab) (x : Fld) (v : Nat) : (f.set x v).lost = f.lost := rfl
@[simp] theorem Fab.set_eng (f : Fab) (x : Fld) (v : Nat) : (f.set x v).eng = f.eng := rfl
@[simp] theorem Fab.set_sh (f : Fab) (x : Fld) (v : Nat) : (f.set x v).sh = f.sh := rfl
@[simp] theorem Fab.set_stq (f : Fab) (x : Fld) (v : Nat) : (f.set x v).stq = f.stq := rfl
@[simp] theorem Fab.set_puts (f : Fab) (x : Fld) (v : Nat) : (f.set x v).puts = f.puts := rfl
@[simp] theorem Fab.set_past (f : Fab) (x : Fld) (v : Nat) : (f.set x v).past = f.past := rfl
@[simp] theorem Fab.set_pbT (f : Fab) (x : Fld) (v : Nat) : (f.set x v).pbT = f.pbT := rfl
@[simp] theorem Fab.set_confT (f : Fab) (x : Fld) (v : Nat) : (f.set x v).confT = f.confT := rfl
@[simp] theorem Fab.set_tBad (f : Fab) (x : Fld) (v : Nat) : (f.set x v).tBad = f.tBad := rfl
@[simp] theorem Fab.set_injWait (f : Fab) (x : Fld) (v : Nat) : (f.set x v).injWait = f.injWait := rfl
@[simp] theorem Fab.set_link (f : Fab) (x : Fld) (v : Nat) : (f.set x v).link = f.link := rfl
@[simp] theorem Fab.set_farSt (f : Fab) (x : Fld) (v : Nat) : (f.set x v).farSt = f.farSt := rfl
@[simp] theorem Fab.set_dma (f : Fab) (x : Fld) (v : Nat) : (f.set x v).dma = f.dma := rfl
@[simp] theorem Fab.set_dmaR (f : Fab) (x : Fld) (v : Nat) : (f.set x v).dmaR = f.dmaR := rfl
@[simp] theorem Fab.set_dmaW (f : Fab) (x : Fld) (v : Nat) : (f.set x v).dmaW = f.dmaW := rfl
@[simp] theorem Fab.set_inbox (f : Fab) (x : Fld) (v : Nat) : (f.set x v).inbox = f.inbox := rfl
@[simp] theorem Fab.set_latched (f : Fab) (x : Fld) (v : Nat) : (f.set x v).latched = f.latched := rfl
@[simp] theorem Fab.set_pres (f : Fab) (x : Fld) (v : Nat) : (f.set x v).pres = f.pres := rfl
@[simp] theorem Fab.set_istk (f : Fab) (x : Fld) (v : Nat) : (f.set x v).istk = f.istk := rfl
@[simp] theorem Fab.set_itim (f : Fab) (x : Fld) (v : Nat) : (f.set x v).itim = f.itim := rfl
@[simp] theorem Fab.set_dhalt (f : Fab) (x : Fld) (v : Nat) : (f.set x v).dhalt = f.dhalt := rfl
@[simp] theorem Fab.set_msixTab (f : Fab) (x : Fld) (v : Nat) : (f.set x v).msixTab = f.msixTab := rfl
@[simp] theorem Fab.set_msixPend (f : Fab) (x : Fld) (v : Nat) : (f.set x v).msixPend = f.msixPend := rfl
@[simp] theorem Fab.set_pcfg (f : Fab) (x : Fld) (v : Nat) : (f.set x v).pcfg = f.pcfg := rfl
@[simp] theorem Fab.set_pwr (f : Fab) (x : Fld) (v : Nat) : (f.set x v).pwr = f.pwr := rfl
@[simp] theorem Fab.set_mgmt (f : Fab) (x : Fld) (v : Nat) : (f.set x v).mgmt = f.mgmt := rfl
@[simp] theorem Fab.set_mbx (f : Fab) (x : Fld) (v : Nat) : (f.set x v).mbx = f.mbx := rfl
@[simp] theorem Fab.set_dam (f : Fab) (x : Fld) (v : Nat) : (f.set x v).dam = f.dam := rfl
@[simp] theorem Fab.set_umx (f : Fab) (x : Fld) (v : Nat) : (f.set x v).umx = f.umx := rfl
@[simp] theorem Fab.set_dxw (f : Fab) (x : Fld) (v : Nat) : (f.set x v).dxw = f.dxw := rfl
@[simp] theorem Fab.set_tap (f : Fab) (x : Fld) (v : Nat) : (f.set x v).tap = f.tap := rfl
@[simp] theorem Fab.set_dimms (f : Fab) (x : Fld) (v : Nat) : (f.set x v).dimms = f.dimms := rfl
@[simp] theorem Fab.set_ref2x (f : Fab) (x : Fld) (v : Nat) : (f.set x v).ref2x = f.ref2x := rfl
@[simp] theorem Fab.set_once (f : Fab) (x : Fld) (v : Nat) : (f.set x v).once = f.once := rfl
@[simp] theorem Fab.set_clk (f : Fab) (x : Fld) (v : Nat) : (f.set x v).clk = f.clk := rfl
@[simp] theorem Fab.set_tbOff (f : Fab) (x : Fld) (v : Nat) : (f.set x v).tbOff = f.tbOff := rfl
@[simp] theorem Fab.set_out (f : Fab) (x : Fld) (v : Nat) : (f.set x v).out = f.out := rfl
@[simp] theorem Fab.set_fresh (f : Fab) (x : Fld) (v : Nat) : (f.set x v).fresh = f.fresh := rfl
@[simp] theorem Fab.set_engine (f : Fab) (x : Fld) (v : Nat) (i : Nat) : (f.set x v).engine i = f.engine i := rfl
@[simp] theorem Fab.set_share (f : Fab) (x : Fld) (v : Nat) (i : Nat) : (f.set x v).share i = f.share i := rfl
@[simp] theorem Fab.set_port (f : Fab) (x : Fld) (v : Nat) (i : Nat) : (f.set x v).port i = f.port i := rfl
@[simp] theorem Fab.set_ch (f : Fab) (x : Fld) (v : Nat) (i : Nat) : (f.set x v).ch i = f.ch i := rfl

/-! ### stick -/

@[simp] theorem Fab.stick_mem (f : Fab) (x : Fld) (n : Nat) : (f.stick x n).mem = f.mem := rfl
@[simp] theorem Fab.stick_err (f : Fab) (x : Fld) (n : Nat) : (f.stick x n).err = f.err := rfl
@[simp] theorem Fab.stick_key (f : Fab) (x : Fld) (n : Nat) : (f.stick x n).key = f.key := rfl
@[simp] theorem Fab.stick_keys (f : Fab) (x : Fld) (n : Nat) : (f.stick x n).keys = f.keys := rfl
@[simp] theorem Fab.stick_pairs (f : Fab) (x : Fld) (n : Nat) : (f.stick x n).pairs = f.pairs := rfl
@[simp] theorem Fab.stick_repair (f : Fab) (x : Fld) (n : Nat) : (f.stick x n).repair = f.repair := rfl
@[simp] theorem Fab.stick_breq (f : Fab) (x : Fld) (n : Nat) : (f.stick x n).breq = f.breq := rfl
@[simp] theorem Fab.stick_lost (f : Fab) (x : Fld) (n : Nat) : (f.stick x n).lost = f.lost := rfl
@[simp] theorem Fab.stick_eng (f : Fab) (x : Fld) (n : Nat) : (f.stick x n).eng = f.eng := rfl
@[simp] theorem Fab.stick_sh (f : Fab) (x : Fld) (n : Nat) : (f.stick x n).sh = f.sh := rfl
@[simp] theorem Fab.stick_stq (f : Fab) (x : Fld) (n : Nat) : (f.stick x n).stq = f.stq := rfl
@[simp] theorem Fab.stick_puts (f : Fab) (x : Fld) (n : Nat) : (f.stick x n).puts = f.puts := rfl
@[simp] theorem Fab.stick_past (f : Fab) (x : Fld) (n : Nat) : (f.stick x n).past = f.past := rfl
@[simp] theorem Fab.stick_pbT (f : Fab) (x : Fld) (n : Nat) : (f.stick x n).pbT = f.pbT := rfl
@[simp] theorem Fab.stick_confT (f : Fab) (x : Fld) (n : Nat) : (f.stick x n).confT = f.confT := rfl
@[simp] theorem Fab.stick_tBad (f : Fab) (x : Fld) (n : Nat) : (f.stick x n).tBad = f.tBad := rfl
@[simp] theorem Fab.stick_injWait (f : Fab) (x : Fld) (n : Nat) : (f.stick x n).injWait = f.injWait := rfl
@[simp] theorem Fab.stick_link (f : Fab) (x : Fld) (n : Nat) : (f.stick x n).link = f.link := rfl
@[simp] theorem Fab.stick_farSt (f : Fab) (x : Fld) (n : Nat) : (f.stick x n).farSt = f.farSt := rfl
@[simp] theorem Fab.stick_dma (f : Fab) (x : Fld) (n : Nat) : (f.stick x n).dma = f.dma := rfl
@[simp] theorem Fab.stick_dmaR (f : Fab) (x : Fld) (n : Nat) : (f.stick x n).dmaR = f.dmaR := rfl
@[simp] theorem Fab.stick_dmaW (f : Fab) (x : Fld) (n : Nat) : (f.stick x n).dmaW = f.dmaW := rfl
@[simp] theorem Fab.stick_inbox (f : Fab) (x : Fld) (n : Nat) : (f.stick x n).inbox = f.inbox := rfl
@[simp] theorem Fab.stick_latched (f : Fab) (x : Fld) (n : Nat) : (f.stick x n).latched = f.latched := rfl
@[simp] theorem Fab.stick_pres (f : Fab) (x : Fld) (n : Nat) : (f.stick x n).pres = f.pres := rfl
@[simp] theorem Fab.stick_istk (f : Fab) (x : Fld) (n : Nat) : (f.stick x n).istk = f.istk := rfl
@[simp] theorem Fab.stick_itim (f : Fab) (x : Fld) (n : Nat) : (f.stick x n).itim = f.itim := rfl
@[simp] theorem Fab.stick_dhalt (f : Fab) (x : Fld) (n : Nat) : (f.stick x n).dhalt = f.dhalt := rfl
@[simp] theorem Fab.stick_msixTab (f : Fab) (x : Fld) (n : Nat) : (f.stick x n).msixTab = f.msixTab := rfl
@[simp] theorem Fab.stick_msixPend (f : Fab) (x : Fld) (n : Nat) : (f.stick x n).msixPend = f.msixPend := rfl
@[simp] theorem Fab.stick_pcfg (f : Fab) (x : Fld) (n : Nat) : (f.stick x n).pcfg = f.pcfg := rfl
@[simp] theorem Fab.stick_pwr (f : Fab) (x : Fld) (n : Nat) : (f.stick x n).pwr = f.pwr := rfl
@[simp] theorem Fab.stick_mgmt (f : Fab) (x : Fld) (n : Nat) : (f.stick x n).mgmt = f.mgmt := rfl
@[simp] theorem Fab.stick_mbx (f : Fab) (x : Fld) (n : Nat) : (f.stick x n).mbx = f.mbx := rfl
@[simp] theorem Fab.stick_dam (f : Fab) (x : Fld) (n : Nat) : (f.stick x n).dam = f.dam := rfl
@[simp] theorem Fab.stick_umx (f : Fab) (x : Fld) (n : Nat) : (f.stick x n).umx = f.umx := rfl
@[simp] theorem Fab.stick_dxw (f : Fab) (x : Fld) (n : Nat) : (f.stick x n).dxw = f.dxw := rfl
@[simp] theorem Fab.stick_tap (f : Fab) (x : Fld) (n : Nat) : (f.stick x n).tap = f.tap := rfl
@[simp] theorem Fab.stick_dimms (f : Fab) (x : Fld) (n : Nat) : (f.stick x n).dimms = f.dimms := rfl
@[simp] theorem Fab.stick_ref2x (f : Fab) (x : Fld) (n : Nat) : (f.stick x n).ref2x = f.ref2x := rfl
@[simp] theorem Fab.stick_once (f : Fab) (x : Fld) (n : Nat) : (f.stick x n).once = f.once := rfl
@[simp] theorem Fab.stick_clk (f : Fab) (x : Fld) (n : Nat) : (f.stick x n).clk = f.clk := rfl
@[simp] theorem Fab.stick_tbOff (f : Fab) (x : Fld) (n : Nat) : (f.stick x n).tbOff = f.tbOff := rfl
@[simp] theorem Fab.stick_out (f : Fab) (x : Fld) (n : Nat) : (f.stick x n).out = f.out := rfl
@[simp] theorem Fab.stick_fresh (f : Fab) (x : Fld) (n : Nat) : (f.stick x n).fresh = f.fresh := rfl
@[simp] theorem Fab.stick_engine (f : Fab) (x : Fld) (n : Nat) (i : Nat) : (f.stick x n).engine i = f.engine i := rfl
@[simp] theorem Fab.stick_share (f : Fab) (x : Fld) (n : Nat) (i : Nat) : (f.stick x n).share i = f.share i := rfl
@[simp] theorem Fab.stick_port (f : Fab) (x : Fld) (n : Nat) (i : Nat) : (f.stick x n).port i = f.port i := rfl
@[simp] theorem Fab.stick_ch (f : Fab) (x : Fld) (n : Nat) (i : Nat) : (f.stick x n).ch i = f.ch i := rfl

/-! ### setEng -/

@[simp] theorem Fab.setEng_regs (f : Fab) (e : Nat) (v : Engine) : (f.setEng e v).regs = f.regs := rfl
@[simp] theorem Fab.setEng_mem (f : Fab) (e : Nat) (v : Engine) : (f.setEng e v).mem = f.mem := rfl
@[simp] theorem Fab.setEng_err (f : Fab) (e : Nat) (v : Engine) : (f.setEng e v).err = f.err := rfl
@[simp] theorem Fab.setEng_key (f : Fab) (e : Nat) (v : Engine) : (f.setEng e v).key = f.key := rfl
@[simp] theorem Fab.setEng_keys (f : Fab) (e : Nat) (v : Engine) : (f.setEng e v).keys = f.keys := rfl
@[simp] theorem Fab.setEng_pairs (f : Fab) (e : Nat) (v : Engine) : (f.setEng e v).pairs = f.pairs := rfl
@[simp] theorem Fab.setEng_repair (f : Fab) (e : Nat) (v : Engine) : (f.setEng e v).repair = f.repair := rfl
@[simp] theorem Fab.setEng_breq (f : Fab) (e : Nat) (v : Engine) : (f.setEng e v).breq = f.breq := rfl
@[simp] theorem Fab.setEng_lost (f : Fab) (e : Nat) (v : Engine) : (f.setEng e v).lost = f.lost := rfl
@[simp] theorem Fab.setEng_sh (f : Fab) (e : Nat) (v : Engine) : (f.setEng e v).sh = f.sh := rfl
@[simp] theorem Fab.setEng_stq (f : Fab) (e : Nat) (v : Engine) : (f.setEng e v).stq = f.stq := rfl
@[simp] theorem Fab.setEng_puts (f : Fab) (e : Nat) (v : Engine) : (f.setEng e v).puts = f.puts := rfl
@[simp] theorem Fab.setEng_past (f : Fab) (e : Nat) (v : Engine) : (f.setEng e v).past = f.past := rfl
@[simp] theorem Fab.setEng_pbT (f : Fab) (e : Nat) (v : Engine) : (f.setEng e v).pbT = f.pbT := rfl
@[simp] theorem Fab.setEng_confT (f : Fab) (e : Nat) (v : Engine) : (f.setEng e v).confT = f.confT := rfl
@[simp] theorem Fab.setEng_tBad (f : Fab) (e : Nat) (v : Engine) : (f.setEng e v).tBad = f.tBad := rfl
@[simp] theorem Fab.setEng_injWait (f : Fab) (e : Nat) (v : Engine) : (f.setEng e v).injWait = f.injWait := rfl
@[simp] theorem Fab.setEng_link (f : Fab) (e : Nat) (v : Engine) : (f.setEng e v).link = f.link := rfl
@[simp] theorem Fab.setEng_farSt (f : Fab) (e : Nat) (v : Engine) : (f.setEng e v).farSt = f.farSt := rfl
@[simp] theorem Fab.setEng_dma (f : Fab) (e : Nat) (v : Engine) : (f.setEng e v).dma = f.dma := rfl
@[simp] theorem Fab.setEng_dmaR (f : Fab) (e : Nat) (v : Engine) : (f.setEng e v).dmaR = f.dmaR := rfl
@[simp] theorem Fab.setEng_dmaW (f : Fab) (e : Nat) (v : Engine) : (f.setEng e v).dmaW = f.dmaW := rfl
@[simp] theorem Fab.setEng_inbox (f : Fab) (e : Nat) (v : Engine) : (f.setEng e v).inbox = f.inbox := rfl
@[simp] theorem Fab.setEng_latched (f : Fab) (e : Nat) (v : Engine) : (f.setEng e v).latched = f.latched := rfl
@[simp] theorem Fab.setEng_pres (f : Fab) (e : Nat) (v : Engine) : (f.setEng e v).pres = f.pres := rfl
@[simp] theorem Fab.setEng_istk (f : Fab) (e : Nat) (v : Engine) : (f.setEng e v).istk = f.istk := rfl
@[simp] theorem Fab.setEng_itim (f : Fab) (e : Nat) (v : Engine) : (f.setEng e v).itim = f.itim := rfl
@[simp] theorem Fab.setEng_dhalt (f : Fab) (e : Nat) (v : Engine) : (f.setEng e v).dhalt = f.dhalt := rfl
@[simp] theorem Fab.setEng_msixTab (f : Fab) (e : Nat) (v : Engine) : (f.setEng e v).msixTab = f.msixTab := rfl
@[simp] theorem Fab.setEng_msixPend (f : Fab) (e : Nat) (v : Engine) : (f.setEng e v).msixPend = f.msixPend := rfl
@[simp] theorem Fab.setEng_pcfg (f : Fab) (e : Nat) (v : Engine) : (f.setEng e v).pcfg = f.pcfg := rfl
@[simp] theorem Fab.setEng_pwr (f : Fab) (e : Nat) (v : Engine) : (f.setEng e v).pwr = f.pwr := rfl
@[simp] theorem Fab.setEng_mgmt (f : Fab) (e : Nat) (v : Engine) : (f.setEng e v).mgmt = f.mgmt := rfl
@[simp] theorem Fab.setEng_mbx (f : Fab) (e : Nat) (v : Engine) : (f.setEng e v).mbx = f.mbx := rfl
@[simp] theorem Fab.setEng_dam (f : Fab) (e : Nat) (v : Engine) : (f.setEng e v).dam = f.dam := rfl
@[simp] theorem Fab.setEng_umx (f : Fab) (e : Nat) (v : Engine) : (f.setEng e v).umx = f.umx := rfl
@[simp] theorem Fab.setEng_dxw (f : Fab) (e : Nat) (v : Engine) : (f.setEng e v).dxw = f.dxw := rfl
@[simp] theorem Fab.setEng_tap (f : Fab) (e : Nat) (v : Engine) : (f.setEng e v).tap = f.tap := rfl
@[simp] theorem Fab.setEng_dimms (f : Fab) (e : Nat) (v : Engine) : (f.setEng e v).dimms = f.dimms := rfl
@[simp] theorem Fab.setEng_ref2x (f : Fab) (e : Nat) (v : Engine) : (f.setEng e v).ref2x = f.ref2x := rfl
@[simp] theorem Fab.setEng_once (f : Fab) (e : Nat) (v : Engine) : (f.setEng e v).once = f.once := rfl
@[simp] theorem Fab.setEng_clk (f : Fab) (e : Nat) (v : Engine) : (f.setEng e v).clk = f.clk := rfl
@[simp] theorem Fab.setEng_tbOff (f : Fab) (e : Nat) (v : Engine) : (f.setEng e v).tbOff = f.tbOff := rfl
@[simp] theorem Fab.setEng_out (f : Fab) (e : Nat) (v : Engine) : (f.setEng e v).out = f.out := rfl
@[simp] theorem Fab.setEng_fresh (f : Fab) (e : Nat) (v : Engine) : (f.setEng e v).fresh = f.fresh := rfl
@[simp] theorem Fab.setEng_reg (f : Fab) (e : Nat) (v : Engine) (b : Nat) : (f.setEng e v).reg b = f.reg b := rfl
@[simp] theorem Fab.setEng_get (f : Fab) (e : Nat) (v : Engine) (y : Fld) : (f.setEng e v).get y = f.get y := rfl
@[simp] theorem Fab.setEng_bit (f : Fab) (e : Nat) (v : Engine) (y : Fld) : (f.setEng e v).bit y = f.bit y := rfl
@[simp] theorem Fab.setEng_share (f : Fab) (e : Nat) (v : Engine) (i : Nat) : (f.setEng e v).share i = f.share i := rfl
@[simp] theorem Fab.setEng_port (f : Fab) (e : Nat) (v : Engine) (i : Nat) : (f.setEng e v).port i = f.port i := rfl
@[simp] theorem Fab.setEng_ch (f : Fab) (e : Nat) (v : Engine) (i : Nat) : (f.setEng e v).ch i = f.ch i := rfl
@[simp] theorem Fab.setEng_unitPart (f : Fab) (e : Nat) (v : Engine) (u : Nat) : (f.setEng e v).unitPart u = f.unitPart u := rfl
@[simp] theorem Fab.setEng_granPart (f : Fab) (e : Nat) (v : Engine) (y : Nat) : (f.setEng e v).granPart y = f.granPart y := rfl
@[simp] theorem Fab.setEng_engPart (f : Fab) (e : Nat) (v : Engine) (u : Nat) : (f.setEng e v).engPart u = f.engPart u := rfl
@[simp] theorem Fab.setEng_activeIn (f : Fab) (e : Nat) (v : Engine) (y z : Nat) : (f.setEng e v).activeIn y z = f.activeIn y z := rfl
@[simp] theorem Fab.setEng_st (f : Fab) (e : Nat) (v : Engine) (y : Nat) : (f.setEng e v).st y = f.st y := rfl
@[simp] theorem Fab.setEng_barrierMode (f : Fab) (e : Nat) (v : Engine) (y : Nat) : (f.setEng e v).barrierMode y = f.barrierMode y := rfl
@[simp] theorem Fab.setEng_isRoot (f : Fab) (e : Nat) (v : Engine) (y : Nat) : (f.setEng e v).isRoot y = f.isRoot y := rfl
@[simp] theorem Fab.setEng_children (f : Fab) (e : Nat) (v : Engine) (y : Nat) : (f.setEng e v).children y = f.children y := rfl
@[simp] theorem Fab.setEng_portActive (f : Fab) (e : Nat) (v : Engine) (y : Nat) : (f.setEng e v).portActive y = f.portActive y := rfl
@[simp] theorem Fab.setEng_portOf (f : Fab) (e : Nat) (v : Engine) (y : Nat) : (f.setEng e v).portOf y = f.portOf y := rfl

/-! ### updEng -/

@[simp] theorem Fab.updEng_regs (f : Fab) (e : Nat) (g : Engine → Engine) : (f.updEng e g).regs = f.regs := rfl
@[simp] theorem Fab.updEng_mem (f : Fab) (e : Nat) (g : Engine → Engine) : (f.updEng e g).mem = f.mem := rfl
@[simp] theorem Fab.updEng_err (f : Fab) (e : Nat) (g : Engine → Engine) : (f.updEng e g).err = f.err := rfl
@[simp] theorem Fab.updEng_key (f : Fab) (e : Nat) (g : Engine → Engine) : (f.updEng e g).key = f.key := rfl
@[simp] theorem Fab.updEng_keys (f : Fab) (e : Nat) (g : Engine → Engine) : (f.updEng e g).keys = f.keys := rfl
@[simp] theorem Fab.updEng_pairs (f : Fab) (e : Nat) (g : Engine → Engine) : (f.updEng e g).pairs = f.pairs := rfl
@[simp] theorem Fab.updEng_repair (f : Fab) (e : Nat) (g : Engine → Engine) : (f.updEng e g).repair = f.repair := rfl
@[simp] theorem Fab.updEng_breq (f : Fab) (e : Nat) (g : Engine → Engine) : (f.updEng e g).breq = f.breq := rfl
@[simp] theorem Fab.updEng_lost (f : Fab) (e : Nat) (g : Engine → Engine) : (f.updEng e g).lost = f.lost := rfl
@[simp] theorem Fab.updEng_sh (f : Fab) (e : Nat) (g : Engine → Engine) : (f.updEng e g).sh = f.sh := rfl
@[simp] theorem Fab.updEng_stq (f : Fab) (e : Nat) (g : Engine → Engine) : (f.updEng e g).stq = f.stq := rfl
@[simp] theorem Fab.updEng_puts (f : Fab) (e : Nat) (g : Engine → Engine) : (f.updEng e g).puts = f.puts := rfl
@[simp] theorem Fab.updEng_past (f : Fab) (e : Nat) (g : Engine → Engine) : (f.updEng e g).past = f.past := rfl
@[simp] theorem Fab.updEng_pbT (f : Fab) (e : Nat) (g : Engine → Engine) : (f.updEng e g).pbT = f.pbT := rfl
@[simp] theorem Fab.updEng_confT (f : Fab) (e : Nat) (g : Engine → Engine) : (f.updEng e g).confT = f.confT := rfl
@[simp] theorem Fab.updEng_tBad (f : Fab) (e : Nat) (g : Engine → Engine) : (f.updEng e g).tBad = f.tBad := rfl
@[simp] theorem Fab.updEng_injWait (f : Fab) (e : Nat) (g : Engine → Engine) : (f.updEng e g).injWait = f.injWait := rfl
@[simp] theorem Fab.updEng_link (f : Fab) (e : Nat) (g : Engine → Engine) : (f.updEng e g).link = f.link := rfl
@[simp] theorem Fab.updEng_farSt (f : Fab) (e : Nat) (g : Engine → Engine) : (f.updEng e g).farSt = f.farSt := rfl
@[simp] theorem Fab.updEng_dma (f : Fab) (e : Nat) (g : Engine → Engine) : (f.updEng e g).dma = f.dma := rfl
@[simp] theorem Fab.updEng_dmaR (f : Fab) (e : Nat) (g : Engine → Engine) : (f.updEng e g).dmaR = f.dmaR := rfl
@[simp] theorem Fab.updEng_dmaW (f : Fab) (e : Nat) (g : Engine → Engine) : (f.updEng e g).dmaW = f.dmaW := rfl
@[simp] theorem Fab.updEng_inbox (f : Fab) (e : Nat) (g : Engine → Engine) : (f.updEng e g).inbox = f.inbox := rfl
@[simp] theorem Fab.updEng_latched (f : Fab) (e : Nat) (g : Engine → Engine) : (f.updEng e g).latched = f.latched := rfl
@[simp] theorem Fab.updEng_pres (f : Fab) (e : Nat) (g : Engine → Engine) : (f.updEng e g).pres = f.pres := rfl
@[simp] theorem Fab.updEng_istk (f : Fab) (e : Nat) (g : Engine → Engine) : (f.updEng e g).istk = f.istk := rfl
@[simp] theorem Fab.updEng_itim (f : Fab) (e : Nat) (g : Engine → Engine) : (f.updEng e g).itim = f.itim := rfl
@[simp] theorem Fab.updEng_dhalt (f : Fab) (e : Nat) (g : Engine → Engine) : (f.updEng e g).dhalt = f.dhalt := rfl
@[simp] theorem Fab.updEng_msixTab (f : Fab) (e : Nat) (g : Engine → Engine) : (f.updEng e g).msixTab = f.msixTab := rfl
@[simp] theorem Fab.updEng_msixPend (f : Fab) (e : Nat) (g : Engine → Engine) : (f.updEng e g).msixPend = f.msixPend := rfl
@[simp] theorem Fab.updEng_pcfg (f : Fab) (e : Nat) (g : Engine → Engine) : (f.updEng e g).pcfg = f.pcfg := rfl
@[simp] theorem Fab.updEng_pwr (f : Fab) (e : Nat) (g : Engine → Engine) : (f.updEng e g).pwr = f.pwr := rfl
@[simp] theorem Fab.updEng_mgmt (f : Fab) (e : Nat) (g : Engine → Engine) : (f.updEng e g).mgmt = f.mgmt := rfl
@[simp] theorem Fab.updEng_mbx (f : Fab) (e : Nat) (g : Engine → Engine) : (f.updEng e g).mbx = f.mbx := rfl
@[simp] theorem Fab.updEng_dam (f : Fab) (e : Nat) (g : Engine → Engine) : (f.updEng e g).dam = f.dam := rfl
@[simp] theorem Fab.updEng_umx (f : Fab) (e : Nat) (g : Engine → Engine) : (f.updEng e g).umx = f.umx := rfl
@[simp] theorem Fab.updEng_dxw (f : Fab) (e : Nat) (g : Engine → Engine) : (f.updEng e g).dxw = f.dxw := rfl
@[simp] theorem Fab.updEng_tap (f : Fab) (e : Nat) (g : Engine → Engine) : (f.updEng e g).tap = f.tap := rfl
@[simp] theorem Fab.updEng_dimms (f : Fab) (e : Nat) (g : Engine → Engine) : (f.updEng e g).dimms = f.dimms := rfl
@[simp] theorem Fab.updEng_ref2x (f : Fab) (e : Nat) (g : Engine → Engine) : (f.updEng e g).ref2x = f.ref2x := rfl
@[simp] theorem Fab.updEng_once (f : Fab) (e : Nat) (g : Engine → Engine) : (f.updEng e g).once = f.once := rfl
@[simp] theorem Fab.updEng_clk (f : Fab) (e : Nat) (g : Engine → Engine) : (f.updEng e g).clk = f.clk := rfl
@[simp] theorem Fab.updEng_tbOff (f : Fab) (e : Nat) (g : Engine → Engine) : (f.updEng e g).tbOff = f.tbOff := rfl
@[simp] theorem Fab.updEng_out (f : Fab) (e : Nat) (g : Engine → Engine) : (f.updEng e g).out = f.out := rfl
@[simp] theorem Fab.updEng_fresh (f : Fab) (e : Nat) (g : Engine → Engine) : (f.updEng e g).fresh = f.fresh := rfl
@[simp] theorem Fab.updEng_reg (f : Fab) (e : Nat) (g : Engine → Engine) (b : Nat) : (f.updEng e g).reg b = f.reg b := rfl
@[simp] theorem Fab.updEng_get (f : Fab) (e : Nat) (g : Engine → Engine) (y : Fld) : (f.updEng e g).get y = f.get y := rfl
@[simp] theorem Fab.updEng_bit (f : Fab) (e : Nat) (g : Engine → Engine) (y : Fld) : (f.updEng e g).bit y = f.bit y := rfl
@[simp] theorem Fab.updEng_share (f : Fab) (e : Nat) (g : Engine → Engine) (i : Nat) : (f.updEng e g).share i = f.share i := rfl
@[simp] theorem Fab.updEng_port (f : Fab) (e : Nat) (g : Engine → Engine) (i : Nat) : (f.updEng e g).port i = f.port i := rfl
@[simp] theorem Fab.updEng_ch (f : Fab) (e : Nat) (g : Engine → Engine) (i : Nat) : (f.updEng e g).ch i = f.ch i := rfl
@[simp] theorem Fab.updEng_unitPart (f : Fab) (e : Nat) (g : Engine → Engine) (u : Nat) : (f.updEng e g).unitPart u = f.unitPart u := rfl
@[simp] theorem Fab.updEng_granPart (f : Fab) (e : Nat) (g : Engine → Engine) (y : Nat) : (f.updEng e g).granPart y = f.granPart y := rfl
@[simp] theorem Fab.updEng_engPart (f : Fab) (e : Nat) (g : Engine → Engine) (u : Nat) : (f.updEng e g).engPart u = f.engPart u := rfl
@[simp] theorem Fab.updEng_activeIn (f : Fab) (e : Nat) (g : Engine → Engine) (y z : Nat) : (f.updEng e g).activeIn y z = f.activeIn y z := rfl
@[simp] theorem Fab.updEng_st (f : Fab) (e : Nat) (g : Engine → Engine) (y : Nat) : (f.updEng e g).st y = f.st y := rfl
@[simp] theorem Fab.updEng_barrierMode (f : Fab) (e : Nat) (g : Engine → Engine) (y : Nat) : (f.updEng e g).barrierMode y = f.barrierMode y := rfl
@[simp] theorem Fab.updEng_isRoot (f : Fab) (e : Nat) (g : Engine → Engine) (y : Nat) : (f.updEng e g).isRoot y = f.isRoot y := rfl
@[simp] theorem Fab.updEng_children (f : Fab) (e : Nat) (g : Engine → Engine) (y : Nat) : (f.updEng e g).children y = f.children y := rfl
@[simp] theorem Fab.updEng_portActive (f : Fab) (e : Nat) (g : Engine → Engine) (y : Nat) : (f.updEng e g).portActive y = f.portActive y := rfl
@[simp] theorem Fab.updEng_portOf (f : Fab) (e : Nat) (g : Engine → Engine) (y : Nat) : (f.updEng e g).portOf y = f.portOf y := rfl

/-! ### setSh -/

@[simp] theorem Fab.setSh_regs (f : Fab) (p : Nat) (v : Share) : (f.setSh p v).regs = f.regs := rfl
@[simp] theorem Fab.setSh_mem (f : Fab) (p : Nat) (v : Share) : (f.setSh p v).mem = f.mem := rfl
@[simp] theorem Fab.setSh_err (f : Fab) (p : Nat) (v : Share) : (f.setSh p v).err = f.err := rfl
@[simp] theorem Fab.setSh_key (f : Fab) (p : Nat) (v : Share) : (f.setSh p v).key = f.key := rfl
@[simp] theorem Fab.setSh_keys (f : Fab) (p : Nat) (v : Share) : (f.setSh p v).keys = f.keys := rfl
@[simp] theorem Fab.setSh_pairs (f : Fab) (p : Nat) (v : Share) : (f.setSh p v).pairs = f.pairs := rfl
@[simp] theorem Fab.setSh_repair (f : Fab) (p : Nat) (v : Share) : (f.setSh p v).repair = f.repair := rfl
@[simp] theorem Fab.setSh_breq (f : Fab) (p : Nat) (v : Share) : (f.setSh p v).breq = f.breq := rfl
@[simp] theorem Fab.setSh_lost (f : Fab) (p : Nat) (v : Share) : (f.setSh p v).lost = f.lost := rfl
@[simp] theorem Fab.setSh_eng (f : Fab) (p : Nat) (v : Share) : (f.setSh p v).eng = f.eng := rfl
@[simp] theorem Fab.setSh_stq (f : Fab) (p : Nat) (v : Share) : (f.setSh p v).stq = f.stq := rfl
@[simp] theorem Fab.setSh_puts (f : Fab) (p : Nat) (v : Share) : (f.setSh p v).puts = f.puts := rfl
@[simp] theorem Fab.setSh_past (f : Fab) (p : Nat) (v : Share) : (f.setSh p v).past = f.past := rfl
@[simp] theorem Fab.setSh_pbT (f : Fab) (p : Nat) (v : Share) : (f.setSh p v).pbT = f.pbT := rfl
@[simp] theorem Fab.setSh_confT (f : Fab) (p : Nat) (v : Share) : (f.setSh p v).confT = f.confT := rfl
@[simp] theorem Fab.setSh_tBad (f : Fab) (p : Nat) (v : Share) : (f.setSh p v).tBad = f.tBad := rfl
@[simp] theorem Fab.setSh_injWait (f : Fab) (p : Nat) (v : Share) : (f.setSh p v).injWait = f.injWait := rfl
@[simp] theorem Fab.setSh_link (f : Fab) (p : Nat) (v : Share) : (f.setSh p v).link = f.link := rfl
@[simp] theorem Fab.setSh_farSt (f : Fab) (p : Nat) (v : Share) : (f.setSh p v).farSt = f.farSt := rfl
@[simp] theorem Fab.setSh_dma (f : Fab) (p : Nat) (v : Share) : (f.setSh p v).dma = f.dma := rfl
@[simp] theorem Fab.setSh_dmaR (f : Fab) (p : Nat) (v : Share) : (f.setSh p v).dmaR = f.dmaR := rfl
@[simp] theorem Fab.setSh_dmaW (f : Fab) (p : Nat) (v : Share) : (f.setSh p v).dmaW = f.dmaW := rfl
@[simp] theorem Fab.setSh_inbox (f : Fab) (p : Nat) (v : Share) : (f.setSh p v).inbox = f.inbox := rfl
@[simp] theorem Fab.setSh_latched (f : Fab) (p : Nat) (v : Share) : (f.setSh p v).latched = f.latched := rfl
@[simp] theorem Fab.setSh_pres (f : Fab) (p : Nat) (v : Share) : (f.setSh p v).pres = f.pres := rfl
@[simp] theorem Fab.setSh_istk (f : Fab) (p : Nat) (v : Share) : (f.setSh p v).istk = f.istk := rfl
@[simp] theorem Fab.setSh_itim (f : Fab) (p : Nat) (v : Share) : (f.setSh p v).itim = f.itim := rfl
@[simp] theorem Fab.setSh_dhalt (f : Fab) (p : Nat) (v : Share) : (f.setSh p v).dhalt = f.dhalt := rfl
@[simp] theorem Fab.setSh_msixTab (f : Fab) (p : Nat) (v : Share) : (f.setSh p v).msixTab = f.msixTab := rfl
@[simp] theorem Fab.setSh_msixPend (f : Fab) (p : Nat) (v : Share) : (f.setSh p v).msixPend = f.msixPend := rfl
@[simp] theorem Fab.setSh_pcfg (f : Fab) (p : Nat) (v : Share) : (f.setSh p v).pcfg = f.pcfg := rfl
@[simp] theorem Fab.setSh_pwr (f : Fab) (p : Nat) (v : Share) : (f.setSh p v).pwr = f.pwr := rfl
@[simp] theorem Fab.setSh_mgmt (f : Fab) (p : Nat) (v : Share) : (f.setSh p v).mgmt = f.mgmt := rfl
@[simp] theorem Fab.setSh_mbx (f : Fab) (p : Nat) (v : Share) : (f.setSh p v).mbx = f.mbx := rfl
@[simp] theorem Fab.setSh_dam (f : Fab) (p : Nat) (v : Share) : (f.setSh p v).dam = f.dam := rfl
@[simp] theorem Fab.setSh_umx (f : Fab) (p : Nat) (v : Share) : (f.setSh p v).umx = f.umx := rfl
@[simp] theorem Fab.setSh_dxw (f : Fab) (p : Nat) (v : Share) : (f.setSh p v).dxw = f.dxw := rfl
@[simp] theorem Fab.setSh_tap (f : Fab) (p : Nat) (v : Share) : (f.setSh p v).tap = f.tap := rfl
@[simp] theorem Fab.setSh_dimms (f : Fab) (p : Nat) (v : Share) : (f.setSh p v).dimms = f.dimms := rfl
@[simp] theorem Fab.setSh_ref2x (f : Fab) (p : Nat) (v : Share) : (f.setSh p v).ref2x = f.ref2x := rfl
@[simp] theorem Fab.setSh_once (f : Fab) (p : Nat) (v : Share) : (f.setSh p v).once = f.once := rfl
@[simp] theorem Fab.setSh_clk (f : Fab) (p : Nat) (v : Share) : (f.setSh p v).clk = f.clk := rfl
@[simp] theorem Fab.setSh_tbOff (f : Fab) (p : Nat) (v : Share) : (f.setSh p v).tbOff = f.tbOff := rfl
@[simp] theorem Fab.setSh_out (f : Fab) (p : Nat) (v : Share) : (f.setSh p v).out = f.out := rfl
@[simp] theorem Fab.setSh_fresh (f : Fab) (p : Nat) (v : Share) : (f.setSh p v).fresh = f.fresh := rfl
@[simp] theorem Fab.setSh_reg (f : Fab) (p : Nat) (v : Share) (b : Nat) : (f.setSh p v).reg b = f.reg b := rfl
@[simp] theorem Fab.setSh_get (f : Fab) (p : Nat) (v : Share) (y : Fld) : (f.setSh p v).get y = f.get y := rfl
@[simp] theorem Fab.setSh_bit (f : Fab) (p : Nat) (v : Share) (y : Fld) : (f.setSh p v).bit y = f.bit y := rfl
@[simp] theorem Fab.setSh_engine (f : Fab) (p : Nat) (v : Share) (i : Nat) : (f.setSh p v).engine i = f.engine i := rfl
@[simp] theorem Fab.setSh_port (f : Fab) (p : Nat) (v : Share) (i : Nat) : (f.setSh p v).port i = f.port i := rfl
@[simp] theorem Fab.setSh_ch (f : Fab) (p : Nat) (v : Share) (i : Nat) : (f.setSh p v).ch i = f.ch i := rfl
@[simp] theorem Fab.setSh_unitPart (f : Fab) (p : Nat) (v : Share) (u : Nat) : (f.setSh p v).unitPart u = f.unitPart u := rfl
@[simp] theorem Fab.setSh_granPart (f : Fab) (p : Nat) (v : Share) (y : Nat) : (f.setSh p v).granPart y = f.granPart y := rfl
@[simp] theorem Fab.setSh_engPart (f : Fab) (p : Nat) (v : Share) (u : Nat) : (f.setSh p v).engPart u = f.engPart u := rfl
@[simp] theorem Fab.setSh_activeIn (f : Fab) (p : Nat) (v : Share) (y z : Nat) : (f.setSh p v).activeIn y z = f.activeIn y z := rfl
@[simp] theorem Fab.setSh_st (f : Fab) (p : Nat) (v : Share) (y : Nat) : (f.setSh p v).st y = f.st y := rfl
@[simp] theorem Fab.setSh_barrierMode (f : Fab) (p : Nat) (v : Share) (y : Nat) : (f.setSh p v).barrierMode y = f.barrierMode y := rfl
@[simp] theorem Fab.setSh_isRoot (f : Fab) (p : Nat) (v : Share) (y : Nat) : (f.setSh p v).isRoot y = f.isRoot y := rfl
@[simp] theorem Fab.setSh_children (f : Fab) (p : Nat) (v : Share) (y : Nat) : (f.setSh p v).children y = f.children y := rfl
@[simp] theorem Fab.setSh_portActive (f : Fab) (p : Nat) (v : Share) (y : Nat) : (f.setSh p v).portActive y = f.portActive y := rfl
@[simp] theorem Fab.setSh_portOf (f : Fab) (p : Nat) (v : Share) (y : Nat) : (f.setSh p v).portOf y = f.portOf y := rfl

/-! ### updSh -/

@[simp] theorem Fab.updSh_regs (f : Fab) (p : Nat) (g : Share → Share) : (f.updSh p g).regs = f.regs := rfl
@[simp] theorem Fab.updSh_mem (f : Fab) (p : Nat) (g : Share → Share) : (f.updSh p g).mem = f.mem := rfl
@[simp] theorem Fab.updSh_err (f : Fab) (p : Nat) (g : Share → Share) : (f.updSh p g).err = f.err := rfl
@[simp] theorem Fab.updSh_key (f : Fab) (p : Nat) (g : Share → Share) : (f.updSh p g).key = f.key := rfl
@[simp] theorem Fab.updSh_keys (f : Fab) (p : Nat) (g : Share → Share) : (f.updSh p g).keys = f.keys := rfl
@[simp] theorem Fab.updSh_pairs (f : Fab) (p : Nat) (g : Share → Share) : (f.updSh p g).pairs = f.pairs := rfl
@[simp] theorem Fab.updSh_repair (f : Fab) (p : Nat) (g : Share → Share) : (f.updSh p g).repair = f.repair := rfl
@[simp] theorem Fab.updSh_breq (f : Fab) (p : Nat) (g : Share → Share) : (f.updSh p g).breq = f.breq := rfl
@[simp] theorem Fab.updSh_lost (f : Fab) (p : Nat) (g : Share → Share) : (f.updSh p g).lost = f.lost := rfl
@[simp] theorem Fab.updSh_eng (f : Fab) (p : Nat) (g : Share → Share) : (f.updSh p g).eng = f.eng := rfl
@[simp] theorem Fab.updSh_stq (f : Fab) (p : Nat) (g : Share → Share) : (f.updSh p g).stq = f.stq := rfl
@[simp] theorem Fab.updSh_puts (f : Fab) (p : Nat) (g : Share → Share) : (f.updSh p g).puts = f.puts := rfl
@[simp] theorem Fab.updSh_past (f : Fab) (p : Nat) (g : Share → Share) : (f.updSh p g).past = f.past := rfl
@[simp] theorem Fab.updSh_pbT (f : Fab) (p : Nat) (g : Share → Share) : (f.updSh p g).pbT = f.pbT := rfl
@[simp] theorem Fab.updSh_confT (f : Fab) (p : Nat) (g : Share → Share) : (f.updSh p g).confT = f.confT := rfl
@[simp] theorem Fab.updSh_tBad (f : Fab) (p : Nat) (g : Share → Share) : (f.updSh p g).tBad = f.tBad := rfl
@[simp] theorem Fab.updSh_injWait (f : Fab) (p : Nat) (g : Share → Share) : (f.updSh p g).injWait = f.injWait := rfl
@[simp] theorem Fab.updSh_link (f : Fab) (p : Nat) (g : Share → Share) : (f.updSh p g).link = f.link := rfl
@[simp] theorem Fab.updSh_farSt (f : Fab) (p : Nat) (g : Share → Share) : (f.updSh p g).farSt = f.farSt := rfl
@[simp] theorem Fab.updSh_dma (f : Fab) (p : Nat) (g : Share → Share) : (f.updSh p g).dma = f.dma := rfl
@[simp] theorem Fab.updSh_dmaR (f : Fab) (p : Nat) (g : Share → Share) : (f.updSh p g).dmaR = f.dmaR := rfl
@[simp] theorem Fab.updSh_dmaW (f : Fab) (p : Nat) (g : Share → Share) : (f.updSh p g).dmaW = f.dmaW := rfl
@[simp] theorem Fab.updSh_inbox (f : Fab) (p : Nat) (g : Share → Share) : (f.updSh p g).inbox = f.inbox := rfl
@[simp] theorem Fab.updSh_latched (f : Fab) (p : Nat) (g : Share → Share) : (f.updSh p g).latched = f.latched := rfl
@[simp] theorem Fab.updSh_pres (f : Fab) (p : Nat) (g : Share → Share) : (f.updSh p g).pres = f.pres := rfl
@[simp] theorem Fab.updSh_istk (f : Fab) (p : Nat) (g : Share → Share) : (f.updSh p g).istk = f.istk := rfl
@[simp] theorem Fab.updSh_itim (f : Fab) (p : Nat) (g : Share → Share) : (f.updSh p g).itim = f.itim := rfl
@[simp] theorem Fab.updSh_dhalt (f : Fab) (p : Nat) (g : Share → Share) : (f.updSh p g).dhalt = f.dhalt := rfl
@[simp] theorem Fab.updSh_msixTab (f : Fab) (p : Nat) (g : Share → Share) : (f.updSh p g).msixTab = f.msixTab := rfl
@[simp] theorem Fab.updSh_msixPend (f : Fab) (p : Nat) (g : Share → Share) : (f.updSh p g).msixPend = f.msixPend := rfl
@[simp] theorem Fab.updSh_pcfg (f : Fab) (p : Nat) (g : Share → Share) : (f.updSh p g).pcfg = f.pcfg := rfl
@[simp] theorem Fab.updSh_pwr (f : Fab) (p : Nat) (g : Share → Share) : (f.updSh p g).pwr = f.pwr := rfl
@[simp] theorem Fab.updSh_mgmt (f : Fab) (p : Nat) (g : Share → Share) : (f.updSh p g).mgmt = f.mgmt := rfl
@[simp] theorem Fab.updSh_mbx (f : Fab) (p : Nat) (g : Share → Share) : (f.updSh p g).mbx = f.mbx := rfl
@[simp] theorem Fab.updSh_dam (f : Fab) (p : Nat) (g : Share → Share) : (f.updSh p g).dam = f.dam := rfl
@[simp] theorem Fab.updSh_umx (f : Fab) (p : Nat) (g : Share → Share) : (f.updSh p g).umx = f.umx := rfl
@[simp] theorem Fab.updSh_dxw (f : Fab) (p : Nat) (g : Share → Share) : (f.updSh p g).dxw = f.dxw := rfl
@[simp] theorem Fab.updSh_tap (f : Fab) (p : Nat) (g : Share → Share) : (f.updSh p g).tap = f.tap := rfl
@[simp] theorem Fab.updSh_dimms (f : Fab) (p : Nat) (g : Share → Share) : (f.updSh p g).dimms = f.dimms := rfl
@[simp] theorem Fab.updSh_ref2x (f : Fab) (p : Nat) (g : Share → Share) : (f.updSh p g).ref2x = f.ref2x := rfl
@[simp] theorem Fab.updSh_once (f : Fab) (p : Nat) (g : Share → Share) : (f.updSh p g).once = f.once := rfl
@[simp] theorem Fab.updSh_clk (f : Fab) (p : Nat) (g : Share → Share) : (f.updSh p g).clk = f.clk := rfl
@[simp] theorem Fab.updSh_tbOff (f : Fab) (p : Nat) (g : Share → Share) : (f.updSh p g).tbOff = f.tbOff := rfl
@[simp] theorem Fab.updSh_out (f : Fab) (p : Nat) (g : Share → Share) : (f.updSh p g).out = f.out := rfl
@[simp] theorem Fab.updSh_fresh (f : Fab) (p : Nat) (g : Share → Share) : (f.updSh p g).fresh = f.fresh := rfl
@[simp] theorem Fab.updSh_reg (f : Fab) (p : Nat) (g : Share → Share) (b : Nat) : (f.updSh p g).reg b = f.reg b := rfl
@[simp] theorem Fab.updSh_get (f : Fab) (p : Nat) (g : Share → Share) (y : Fld) : (f.updSh p g).get y = f.get y := rfl
@[simp] theorem Fab.updSh_bit (f : Fab) (p : Nat) (g : Share → Share) (y : Fld) : (f.updSh p g).bit y = f.bit y := rfl
@[simp] theorem Fab.updSh_engine (f : Fab) (p : Nat) (g : Share → Share) (i : Nat) : (f.updSh p g).engine i = f.engine i := rfl
@[simp] theorem Fab.updSh_port (f : Fab) (p : Nat) (g : Share → Share) (i : Nat) : (f.updSh p g).port i = f.port i := rfl
@[simp] theorem Fab.updSh_ch (f : Fab) (p : Nat) (g : Share → Share) (i : Nat) : (f.updSh p g).ch i = f.ch i := rfl
@[simp] theorem Fab.updSh_unitPart (f : Fab) (p : Nat) (g : Share → Share) (u : Nat) : (f.updSh p g).unitPart u = f.unitPart u := rfl
@[simp] theorem Fab.updSh_granPart (f : Fab) (p : Nat) (g : Share → Share) (y : Nat) : (f.updSh p g).granPart y = f.granPart y := rfl
@[simp] theorem Fab.updSh_engPart (f : Fab) (p : Nat) (g : Share → Share) (u : Nat) : (f.updSh p g).engPart u = f.engPart u := rfl
@[simp] theorem Fab.updSh_activeIn (f : Fab) (p : Nat) (g : Share → Share) (y z : Nat) : (f.updSh p g).activeIn y z = f.activeIn y z := rfl
@[simp] theorem Fab.updSh_st (f : Fab) (p : Nat) (g : Share → Share) (y : Nat) : (f.updSh p g).st y = f.st y := rfl
@[simp] theorem Fab.updSh_barrierMode (f : Fab) (p : Nat) (g : Share → Share) (y : Nat) : (f.updSh p g).barrierMode y = f.barrierMode y := rfl
@[simp] theorem Fab.updSh_isRoot (f : Fab) (p : Nat) (g : Share → Share) (y : Nat) : (f.updSh p g).isRoot y = f.isRoot y := rfl
@[simp] theorem Fab.updSh_children (f : Fab) (p : Nat) (g : Share → Share) (y : Nat) : (f.updSh p g).children y = f.children y := rfl
@[simp] theorem Fab.updSh_portActive (f : Fab) (p : Nat) (g : Share → Share) (y : Nat) : (f.updSh p g).portActive y = f.portActive y := rfl
@[simp] theorem Fab.updSh_portOf (f : Fab) (p : Nat) (g : Share → Share) (y : Nat) : (f.updSh p g).portOf y = f.portOf y := rfl

/-! ### updPort -/

@[simp] theorem Fab.updPort_regs (f : Fab) (c : Nat) (g : LinkP → LinkP) : (f.updPort c g).regs = f.regs := rfl
@[simp] theorem Fab.updPort_mem (f : Fab) (c : Nat) (g : LinkP → LinkP) : (f.updPort c g).mem = f.mem := rfl
@[simp] theorem Fab.updPort_err (f : Fab) (c : Nat) (g : LinkP → LinkP) : (f.updPort c g).err = f.err := rfl
@[simp] theorem Fab.updPort_key (f : Fab) (c : Nat) (g : LinkP → LinkP) : (f.updPort c g).key = f.key := rfl
@[simp] theorem Fab.updPort_keys (f : Fab) (c : Nat) (g : LinkP → LinkP) : (f.updPort c g).keys = f.keys := rfl
@[simp] theorem Fab.updPort_pairs (f : Fab) (c : Nat) (g : LinkP → LinkP) : (f.updPort c g).pairs = f.pairs := rfl
@[simp] theorem Fab.updPort_repair (f : Fab) (c : Nat) (g : LinkP → LinkP) : (f.updPort c g).repair = f.repair := rfl
@[simp] theorem Fab.updPort_breq (f : Fab) (c : Nat) (g : LinkP → LinkP) : (f.updPort c g).breq = f.breq := rfl
@[simp] theorem Fab.updPort_lost (f : Fab) (c : Nat) (g : LinkP → LinkP) : (f.updPort c g).lost = f.lost := rfl
@[simp] theorem Fab.updPort_eng (f : Fab) (c : Nat) (g : LinkP → LinkP) : (f.updPort c g).eng = f.eng := rfl
@[simp] theorem Fab.updPort_sh (f : Fab) (c : Nat) (g : LinkP → LinkP) : (f.updPort c g).sh = f.sh := rfl
@[simp] theorem Fab.updPort_stq (f : Fab) (c : Nat) (g : LinkP → LinkP) : (f.updPort c g).stq = f.stq := rfl
@[simp] theorem Fab.updPort_puts (f : Fab) (c : Nat) (g : LinkP → LinkP) : (f.updPort c g).puts = f.puts := rfl
@[simp] theorem Fab.updPort_past (f : Fab) (c : Nat) (g : LinkP → LinkP) : (f.updPort c g).past = f.past := rfl
@[simp] theorem Fab.updPort_pbT (f : Fab) (c : Nat) (g : LinkP → LinkP) : (f.updPort c g).pbT = f.pbT := rfl
@[simp] theorem Fab.updPort_confT (f : Fab) (c : Nat) (g : LinkP → LinkP) : (f.updPort c g).confT = f.confT := rfl
@[simp] theorem Fab.updPort_tBad (f : Fab) (c : Nat) (g : LinkP → LinkP) : (f.updPort c g).tBad = f.tBad := rfl
@[simp] theorem Fab.updPort_injWait (f : Fab) (c : Nat) (g : LinkP → LinkP) : (f.updPort c g).injWait = f.injWait := rfl
@[simp] theorem Fab.updPort_farSt (f : Fab) (c : Nat) (g : LinkP → LinkP) : (f.updPort c g).farSt = f.farSt := rfl
@[simp] theorem Fab.updPort_dma (f : Fab) (c : Nat) (g : LinkP → LinkP) : (f.updPort c g).dma = f.dma := rfl
@[simp] theorem Fab.updPort_dmaR (f : Fab) (c : Nat) (g : LinkP → LinkP) : (f.updPort c g).dmaR = f.dmaR := rfl
@[simp] theorem Fab.updPort_dmaW (f : Fab) (c : Nat) (g : LinkP → LinkP) : (f.updPort c g).dmaW = f.dmaW := rfl
@[simp] theorem Fab.updPort_inbox (f : Fab) (c : Nat) (g : LinkP → LinkP) : (f.updPort c g).inbox = f.inbox := rfl
@[simp] theorem Fab.updPort_latched (f : Fab) (c : Nat) (g : LinkP → LinkP) : (f.updPort c g).latched = f.latched := rfl
@[simp] theorem Fab.updPort_pres (f : Fab) (c : Nat) (g : LinkP → LinkP) : (f.updPort c g).pres = f.pres := rfl
@[simp] theorem Fab.updPort_istk (f : Fab) (c : Nat) (g : LinkP → LinkP) : (f.updPort c g).istk = f.istk := rfl
@[simp] theorem Fab.updPort_itim (f : Fab) (c : Nat) (g : LinkP → LinkP) : (f.updPort c g).itim = f.itim := rfl
@[simp] theorem Fab.updPort_dhalt (f : Fab) (c : Nat) (g : LinkP → LinkP) : (f.updPort c g).dhalt = f.dhalt := rfl
@[simp] theorem Fab.updPort_msixTab (f : Fab) (c : Nat) (g : LinkP → LinkP) : (f.updPort c g).msixTab = f.msixTab := rfl
@[simp] theorem Fab.updPort_msixPend (f : Fab) (c : Nat) (g : LinkP → LinkP) : (f.updPort c g).msixPend = f.msixPend := rfl
@[simp] theorem Fab.updPort_pcfg (f : Fab) (c : Nat) (g : LinkP → LinkP) : (f.updPort c g).pcfg = f.pcfg := rfl
@[simp] theorem Fab.updPort_pwr (f : Fab) (c : Nat) (g : LinkP → LinkP) : (f.updPort c g).pwr = f.pwr := rfl
@[simp] theorem Fab.updPort_mgmt (f : Fab) (c : Nat) (g : LinkP → LinkP) : (f.updPort c g).mgmt = f.mgmt := rfl
@[simp] theorem Fab.updPort_mbx (f : Fab) (c : Nat) (g : LinkP → LinkP) : (f.updPort c g).mbx = f.mbx := rfl
@[simp] theorem Fab.updPort_dam (f : Fab) (c : Nat) (g : LinkP → LinkP) : (f.updPort c g).dam = f.dam := rfl
@[simp] theorem Fab.updPort_umx (f : Fab) (c : Nat) (g : LinkP → LinkP) : (f.updPort c g).umx = f.umx := rfl
@[simp] theorem Fab.updPort_dxw (f : Fab) (c : Nat) (g : LinkP → LinkP) : (f.updPort c g).dxw = f.dxw := rfl
@[simp] theorem Fab.updPort_tap (f : Fab) (c : Nat) (g : LinkP → LinkP) : (f.updPort c g).tap = f.tap := rfl
@[simp] theorem Fab.updPort_dimms (f : Fab) (c : Nat) (g : LinkP → LinkP) : (f.updPort c g).dimms = f.dimms := rfl
@[simp] theorem Fab.updPort_ref2x (f : Fab) (c : Nat) (g : LinkP → LinkP) : (f.updPort c g).ref2x = f.ref2x := rfl
@[simp] theorem Fab.updPort_once (f : Fab) (c : Nat) (g : LinkP → LinkP) : (f.updPort c g).once = f.once := rfl
@[simp] theorem Fab.updPort_clk (f : Fab) (c : Nat) (g : LinkP → LinkP) : (f.updPort c g).clk = f.clk := rfl
@[simp] theorem Fab.updPort_tbOff (f : Fab) (c : Nat) (g : LinkP → LinkP) : (f.updPort c g).tbOff = f.tbOff := rfl
@[simp] theorem Fab.updPort_out (f : Fab) (c : Nat) (g : LinkP → LinkP) : (f.updPort c g).out = f.out := rfl
@[simp] theorem Fab.updPort_fresh (f : Fab) (c : Nat) (g : LinkP → LinkP) : (f.updPort c g).fresh = f.fresh := rfl
@[simp] theorem Fab.updPort_reg (f : Fab) (c : Nat) (g : LinkP → LinkP) (b : Nat) : (f.updPort c g).reg b = f.reg b := rfl
@[simp] theorem Fab.updPort_get (f : Fab) (c : Nat) (g : LinkP → LinkP) (y : Fld) : (f.updPort c g).get y = f.get y := rfl
@[simp] theorem Fab.updPort_bit (f : Fab) (c : Nat) (g : LinkP → LinkP) (y : Fld) : (f.updPort c g).bit y = f.bit y := rfl
@[simp] theorem Fab.updPort_engine (f : Fab) (c : Nat) (g : LinkP → LinkP) (i : Nat) : (f.updPort c g).engine i = f.engine i := rfl
@[simp] theorem Fab.updPort_share (f : Fab) (c : Nat) (g : LinkP → LinkP) (i : Nat) : (f.updPort c g).share i = f.share i := rfl
@[simp] theorem Fab.updPort_ch (f : Fab) (c : Nat) (g : LinkP → LinkP) (i : Nat) : (f.updPort c g).ch i = f.ch i := rfl
@[simp] theorem Fab.updPort_unitPart (f : Fab) (c : Nat) (g : LinkP → LinkP) (u : Nat) : (f.updPort c g).unitPart u = f.unitPart u := rfl
@[simp] theorem Fab.updPort_granPart (f : Fab) (c : Nat) (g : LinkP → LinkP) (y : Nat) : (f.updPort c g).granPart y = f.granPart y := rfl
@[simp] theorem Fab.updPort_engPart (f : Fab) (c : Nat) (g : LinkP → LinkP) (u : Nat) : (f.updPort c g).engPart u = f.engPart u := rfl
@[simp] theorem Fab.updPort_activeIn (f : Fab) (c : Nat) (g : LinkP → LinkP) (y z : Nat) : (f.updPort c g).activeIn y z = f.activeIn y z := rfl
@[simp] theorem Fab.updPort_st (f : Fab) (c : Nat) (g : LinkP → LinkP) (y : Nat) : (f.updPort c g).st y = f.st y := rfl
@[simp] theorem Fab.updPort_barrierMode (f : Fab) (c : Nat) (g : LinkP → LinkP) (y : Nat) : (f.updPort c g).barrierMode y = f.barrierMode y := rfl
@[simp] theorem Fab.updPort_isRoot (f : Fab) (c : Nat) (g : LinkP → LinkP) (y : Nat) : (f.updPort c g).isRoot y = f.isRoot y := rfl
@[simp] theorem Fab.updPort_children (f : Fab) (c : Nat) (g : LinkP → LinkP) (y : Nat) : (f.updPort c g).children y = f.children y := rfl
@[simp] theorem Fab.updPort_portActive (f : Fab) (c : Nat) (g : LinkP → LinkP) (y : Nat) : (f.updPort c g).portActive y = f.portActive y := rfl
@[simp] theorem Fab.updPort_portOf (f : Fab) (c : Nat) (g : LinkP → LinkP) (y : Nat) : (f.updPort c g).portOf y = f.portOf y := rfl

/-! ### updCh -/

@[simp] theorem Fab.updCh_regs (f : Fab) (k : Nat) (g : DmaCh → DmaCh) : (f.updCh k g).regs = f.regs := rfl
@[simp] theorem Fab.updCh_mem (f : Fab) (k : Nat) (g : DmaCh → DmaCh) : (f.updCh k g).mem = f.mem := rfl
@[simp] theorem Fab.updCh_err (f : Fab) (k : Nat) (g : DmaCh → DmaCh) : (f.updCh k g).err = f.err := rfl
@[simp] theorem Fab.updCh_key (f : Fab) (k : Nat) (g : DmaCh → DmaCh) : (f.updCh k g).key = f.key := rfl
@[simp] theorem Fab.updCh_keys (f : Fab) (k : Nat) (g : DmaCh → DmaCh) : (f.updCh k g).keys = f.keys := rfl
@[simp] theorem Fab.updCh_pairs (f : Fab) (k : Nat) (g : DmaCh → DmaCh) : (f.updCh k g).pairs = f.pairs := rfl
@[simp] theorem Fab.updCh_repair (f : Fab) (k : Nat) (g : DmaCh → DmaCh) : (f.updCh k g).repair = f.repair := rfl
@[simp] theorem Fab.updCh_breq (f : Fab) (k : Nat) (g : DmaCh → DmaCh) : (f.updCh k g).breq = f.breq := rfl
@[simp] theorem Fab.updCh_lost (f : Fab) (k : Nat) (g : DmaCh → DmaCh) : (f.updCh k g).lost = f.lost := rfl
@[simp] theorem Fab.updCh_eng (f : Fab) (k : Nat) (g : DmaCh → DmaCh) : (f.updCh k g).eng = f.eng := rfl
@[simp] theorem Fab.updCh_sh (f : Fab) (k : Nat) (g : DmaCh → DmaCh) : (f.updCh k g).sh = f.sh := rfl
@[simp] theorem Fab.updCh_stq (f : Fab) (k : Nat) (g : DmaCh → DmaCh) : (f.updCh k g).stq = f.stq := rfl
@[simp] theorem Fab.updCh_puts (f : Fab) (k : Nat) (g : DmaCh → DmaCh) : (f.updCh k g).puts = f.puts := rfl
@[simp] theorem Fab.updCh_past (f : Fab) (k : Nat) (g : DmaCh → DmaCh) : (f.updCh k g).past = f.past := rfl
@[simp] theorem Fab.updCh_pbT (f : Fab) (k : Nat) (g : DmaCh → DmaCh) : (f.updCh k g).pbT = f.pbT := rfl
@[simp] theorem Fab.updCh_confT (f : Fab) (k : Nat) (g : DmaCh → DmaCh) : (f.updCh k g).confT = f.confT := rfl
@[simp] theorem Fab.updCh_tBad (f : Fab) (k : Nat) (g : DmaCh → DmaCh) : (f.updCh k g).tBad = f.tBad := rfl
@[simp] theorem Fab.updCh_injWait (f : Fab) (k : Nat) (g : DmaCh → DmaCh) : (f.updCh k g).injWait = f.injWait := rfl
@[simp] theorem Fab.updCh_link (f : Fab) (k : Nat) (g : DmaCh → DmaCh) : (f.updCh k g).link = f.link := rfl
@[simp] theorem Fab.updCh_farSt (f : Fab) (k : Nat) (g : DmaCh → DmaCh) : (f.updCh k g).farSt = f.farSt := rfl
@[simp] theorem Fab.updCh_dmaR (f : Fab) (k : Nat) (g : DmaCh → DmaCh) : (f.updCh k g).dmaR = f.dmaR := rfl
@[simp] theorem Fab.updCh_dmaW (f : Fab) (k : Nat) (g : DmaCh → DmaCh) : (f.updCh k g).dmaW = f.dmaW := rfl
@[simp] theorem Fab.updCh_inbox (f : Fab) (k : Nat) (g : DmaCh → DmaCh) : (f.updCh k g).inbox = f.inbox := rfl
@[simp] theorem Fab.updCh_latched (f : Fab) (k : Nat) (g : DmaCh → DmaCh) : (f.updCh k g).latched = f.latched := rfl
@[simp] theorem Fab.updCh_pres (f : Fab) (k : Nat) (g : DmaCh → DmaCh) : (f.updCh k g).pres = f.pres := rfl
@[simp] theorem Fab.updCh_istk (f : Fab) (k : Nat) (g : DmaCh → DmaCh) : (f.updCh k g).istk = f.istk := rfl
@[simp] theorem Fab.updCh_itim (f : Fab) (k : Nat) (g : DmaCh → DmaCh) : (f.updCh k g).itim = f.itim := rfl
@[simp] theorem Fab.updCh_dhalt (f : Fab) (k : Nat) (g : DmaCh → DmaCh) : (f.updCh k g).dhalt = f.dhalt := rfl
@[simp] theorem Fab.updCh_msixTab (f : Fab) (k : Nat) (g : DmaCh → DmaCh) : (f.updCh k g).msixTab = f.msixTab := rfl
@[simp] theorem Fab.updCh_msixPend (f : Fab) (k : Nat) (g : DmaCh → DmaCh) : (f.updCh k g).msixPend = f.msixPend := rfl
@[simp] theorem Fab.updCh_pcfg (f : Fab) (k : Nat) (g : DmaCh → DmaCh) : (f.updCh k g).pcfg = f.pcfg := rfl
@[simp] theorem Fab.updCh_pwr (f : Fab) (k : Nat) (g : DmaCh → DmaCh) : (f.updCh k g).pwr = f.pwr := rfl
@[simp] theorem Fab.updCh_mgmt (f : Fab) (k : Nat) (g : DmaCh → DmaCh) : (f.updCh k g).mgmt = f.mgmt := rfl
@[simp] theorem Fab.updCh_mbx (f : Fab) (k : Nat) (g : DmaCh → DmaCh) : (f.updCh k g).mbx = f.mbx := rfl
@[simp] theorem Fab.updCh_dam (f : Fab) (k : Nat) (g : DmaCh → DmaCh) : (f.updCh k g).dam = f.dam := rfl
@[simp] theorem Fab.updCh_umx (f : Fab) (k : Nat) (g : DmaCh → DmaCh) : (f.updCh k g).umx = f.umx := rfl
@[simp] theorem Fab.updCh_dxw (f : Fab) (k : Nat) (g : DmaCh → DmaCh) : (f.updCh k g).dxw = f.dxw := rfl
@[simp] theorem Fab.updCh_tap (f : Fab) (k : Nat) (g : DmaCh → DmaCh) : (f.updCh k g).tap = f.tap := rfl
@[simp] theorem Fab.updCh_dimms (f : Fab) (k : Nat) (g : DmaCh → DmaCh) : (f.updCh k g).dimms = f.dimms := rfl
@[simp] theorem Fab.updCh_ref2x (f : Fab) (k : Nat) (g : DmaCh → DmaCh) : (f.updCh k g).ref2x = f.ref2x := rfl
@[simp] theorem Fab.updCh_once (f : Fab) (k : Nat) (g : DmaCh → DmaCh) : (f.updCh k g).once = f.once := rfl
@[simp] theorem Fab.updCh_clk (f : Fab) (k : Nat) (g : DmaCh → DmaCh) : (f.updCh k g).clk = f.clk := rfl
@[simp] theorem Fab.updCh_tbOff (f : Fab) (k : Nat) (g : DmaCh → DmaCh) : (f.updCh k g).tbOff = f.tbOff := rfl
@[simp] theorem Fab.updCh_out (f : Fab) (k : Nat) (g : DmaCh → DmaCh) : (f.updCh k g).out = f.out := rfl
@[simp] theorem Fab.updCh_fresh (f : Fab) (k : Nat) (g : DmaCh → DmaCh) : (f.updCh k g).fresh = f.fresh := rfl
@[simp] theorem Fab.updCh_reg (f : Fab) (k : Nat) (g : DmaCh → DmaCh) (b : Nat) : (f.updCh k g).reg b = f.reg b := rfl
@[simp] theorem Fab.updCh_get (f : Fab) (k : Nat) (g : DmaCh → DmaCh) (y : Fld) : (f.updCh k g).get y = f.get y := rfl
@[simp] theorem Fab.updCh_bit (f : Fab) (k : Nat) (g : DmaCh → DmaCh) (y : Fld) : (f.updCh k g).bit y = f.bit y := rfl
@[simp] theorem Fab.updCh_engine (f : Fab) (k : Nat) (g : DmaCh → DmaCh) (i : Nat) : (f.updCh k g).engine i = f.engine i := rfl
@[simp] theorem Fab.updCh_share (f : Fab) (k : Nat) (g : DmaCh → DmaCh) (i : Nat) : (f.updCh k g).share i = f.share i := rfl
@[simp] theorem Fab.updCh_port (f : Fab) (k : Nat) (g : DmaCh → DmaCh) (i : Nat) : (f.updCh k g).port i = f.port i := rfl
@[simp] theorem Fab.updCh_unitPart (f : Fab) (k : Nat) (g : DmaCh → DmaCh) (u : Nat) : (f.updCh k g).unitPart u = f.unitPart u := rfl
@[simp] theorem Fab.updCh_granPart (f : Fab) (k : Nat) (g : DmaCh → DmaCh) (y : Nat) : (f.updCh k g).granPart y = f.granPart y := rfl
@[simp] theorem Fab.updCh_engPart (f : Fab) (k : Nat) (g : DmaCh → DmaCh) (u : Nat) : (f.updCh k g).engPart u = f.engPart u := rfl
@[simp] theorem Fab.updCh_activeIn (f : Fab) (k : Nat) (g : DmaCh → DmaCh) (y z : Nat) : (f.updCh k g).activeIn y z = f.activeIn y z := rfl
@[simp] theorem Fab.updCh_st (f : Fab) (k : Nat) (g : DmaCh → DmaCh) (y : Nat) : (f.updCh k g).st y = f.st y := rfl
@[simp] theorem Fab.updCh_barrierMode (f : Fab) (k : Nat) (g : DmaCh → DmaCh) (y : Nat) : (f.updCh k g).barrierMode y = f.barrierMode y := rfl
@[simp] theorem Fab.updCh_isRoot (f : Fab) (k : Nat) (g : DmaCh → DmaCh) (y : Nat) : (f.updCh k g).isRoot y = f.isRoot y := rfl
@[simp] theorem Fab.updCh_children (f : Fab) (k : Nat) (g : DmaCh → DmaCh) (y : Nat) : (f.updCh k g).children y = f.children y := rfl
@[simp] theorem Fab.updCh_portActive (f : Fab) (k : Nat) (g : DmaCh → DmaCh) (y : Nat) : (f.updCh k g).portActive y = f.portActive y := rfl
@[simp] theorem Fab.updCh_portOf (f : Fab) (k : Nat) (g : DmaCh → DmaCh) (y : Nat) : (f.updCh k g).portOf y = f.portOf y := rfl

/-! ### updPwr -/

@[simp] theorem Fab.updPwr_regs (f : Fab) (g : Pwr → Pwr) : (f.updPwr g).regs = f.regs := rfl
@[simp] theorem Fab.updPwr_mem (f : Fab) (g : Pwr → Pwr) : (f.updPwr g).mem = f.mem := rfl
@[simp] theorem Fab.updPwr_err (f : Fab) (g : Pwr → Pwr) : (f.updPwr g).err = f.err := rfl
@[simp] theorem Fab.updPwr_key (f : Fab) (g : Pwr → Pwr) : (f.updPwr g).key = f.key := rfl
@[simp] theorem Fab.updPwr_keys (f : Fab) (g : Pwr → Pwr) : (f.updPwr g).keys = f.keys := rfl
@[simp] theorem Fab.updPwr_pairs (f : Fab) (g : Pwr → Pwr) : (f.updPwr g).pairs = f.pairs := rfl
@[simp] theorem Fab.updPwr_repair (f : Fab) (g : Pwr → Pwr) : (f.updPwr g).repair = f.repair := rfl
@[simp] theorem Fab.updPwr_breq (f : Fab) (g : Pwr → Pwr) : (f.updPwr g).breq = f.breq := rfl
@[simp] theorem Fab.updPwr_lost (f : Fab) (g : Pwr → Pwr) : (f.updPwr g).lost = f.lost := rfl
@[simp] theorem Fab.updPwr_eng (f : Fab) (g : Pwr → Pwr) : (f.updPwr g).eng = f.eng := rfl
@[simp] theorem Fab.updPwr_sh (f : Fab) (g : Pwr → Pwr) : (f.updPwr g).sh = f.sh := rfl
@[simp] theorem Fab.updPwr_stq (f : Fab) (g : Pwr → Pwr) : (f.updPwr g).stq = f.stq := rfl
@[simp] theorem Fab.updPwr_puts (f : Fab) (g : Pwr → Pwr) : (f.updPwr g).puts = f.puts := rfl
@[simp] theorem Fab.updPwr_past (f : Fab) (g : Pwr → Pwr) : (f.updPwr g).past = f.past := rfl
@[simp] theorem Fab.updPwr_pbT (f : Fab) (g : Pwr → Pwr) : (f.updPwr g).pbT = f.pbT := rfl
@[simp] theorem Fab.updPwr_confT (f : Fab) (g : Pwr → Pwr) : (f.updPwr g).confT = f.confT := rfl
@[simp] theorem Fab.updPwr_tBad (f : Fab) (g : Pwr → Pwr) : (f.updPwr g).tBad = f.tBad := rfl
@[simp] theorem Fab.updPwr_injWait (f : Fab) (g : Pwr → Pwr) : (f.updPwr g).injWait = f.injWait := rfl
@[simp] theorem Fab.updPwr_link (f : Fab) (g : Pwr → Pwr) : (f.updPwr g).link = f.link := rfl
@[simp] theorem Fab.updPwr_farSt (f : Fab) (g : Pwr → Pwr) : (f.updPwr g).farSt = f.farSt := rfl
@[simp] theorem Fab.updPwr_dma (f : Fab) (g : Pwr → Pwr) : (f.updPwr g).dma = f.dma := rfl
@[simp] theorem Fab.updPwr_dmaR (f : Fab) (g : Pwr → Pwr) : (f.updPwr g).dmaR = f.dmaR := rfl
@[simp] theorem Fab.updPwr_dmaW (f : Fab) (g : Pwr → Pwr) : (f.updPwr g).dmaW = f.dmaW := rfl
@[simp] theorem Fab.updPwr_inbox (f : Fab) (g : Pwr → Pwr) : (f.updPwr g).inbox = f.inbox := rfl
@[simp] theorem Fab.updPwr_latched (f : Fab) (g : Pwr → Pwr) : (f.updPwr g).latched = f.latched := rfl
@[simp] theorem Fab.updPwr_pres (f : Fab) (g : Pwr → Pwr) : (f.updPwr g).pres = f.pres := rfl
@[simp] theorem Fab.updPwr_istk (f : Fab) (g : Pwr → Pwr) : (f.updPwr g).istk = f.istk := rfl
@[simp] theorem Fab.updPwr_itim (f : Fab) (g : Pwr → Pwr) : (f.updPwr g).itim = f.itim := rfl
@[simp] theorem Fab.updPwr_dhalt (f : Fab) (g : Pwr → Pwr) : (f.updPwr g).dhalt = f.dhalt := rfl
@[simp] theorem Fab.updPwr_msixTab (f : Fab) (g : Pwr → Pwr) : (f.updPwr g).msixTab = f.msixTab := rfl
@[simp] theorem Fab.updPwr_msixPend (f : Fab) (g : Pwr → Pwr) : (f.updPwr g).msixPend = f.msixPend := rfl
@[simp] theorem Fab.updPwr_pcfg (f : Fab) (g : Pwr → Pwr) : (f.updPwr g).pcfg = f.pcfg := rfl
@[simp] theorem Fab.updPwr_mgmt (f : Fab) (g : Pwr → Pwr) : (f.updPwr g).mgmt = f.mgmt := rfl
@[simp] theorem Fab.updPwr_mbx (f : Fab) (g : Pwr → Pwr) : (f.updPwr g).mbx = f.mbx := rfl
@[simp] theorem Fab.updPwr_dam (f : Fab) (g : Pwr → Pwr) : (f.updPwr g).dam = f.dam := rfl
@[simp] theorem Fab.updPwr_umx (f : Fab) (g : Pwr → Pwr) : (f.updPwr g).umx = f.umx := rfl
@[simp] theorem Fab.updPwr_dxw (f : Fab) (g : Pwr → Pwr) : (f.updPwr g).dxw = f.dxw := rfl
@[simp] theorem Fab.updPwr_tap (f : Fab) (g : Pwr → Pwr) : (f.updPwr g).tap = f.tap := rfl
@[simp] theorem Fab.updPwr_dimms (f : Fab) (g : Pwr → Pwr) : (f.updPwr g).dimms = f.dimms := rfl
@[simp] theorem Fab.updPwr_ref2x (f : Fab) (g : Pwr → Pwr) : (f.updPwr g).ref2x = f.ref2x := rfl
@[simp] theorem Fab.updPwr_once (f : Fab) (g : Pwr → Pwr) : (f.updPwr g).once = f.once := rfl
@[simp] theorem Fab.updPwr_clk (f : Fab) (g : Pwr → Pwr) : (f.updPwr g).clk = f.clk := rfl
@[simp] theorem Fab.updPwr_tbOff (f : Fab) (g : Pwr → Pwr) : (f.updPwr g).tbOff = f.tbOff := rfl
@[simp] theorem Fab.updPwr_out (f : Fab) (g : Pwr → Pwr) : (f.updPwr g).out = f.out := rfl
@[simp] theorem Fab.updPwr_fresh (f : Fab) (g : Pwr → Pwr) : (f.updPwr g).fresh = f.fresh := rfl
@[simp] theorem Fab.updPwr_reg (f : Fab) (g : Pwr → Pwr) (b : Nat) : (f.updPwr g).reg b = f.reg b := rfl
@[simp] theorem Fab.updPwr_get (f : Fab) (g : Pwr → Pwr) (y : Fld) : (f.updPwr g).get y = f.get y := rfl
@[simp] theorem Fab.updPwr_bit (f : Fab) (g : Pwr → Pwr) (y : Fld) : (f.updPwr g).bit y = f.bit y := rfl
@[simp] theorem Fab.updPwr_engine (f : Fab) (g : Pwr → Pwr) (i : Nat) : (f.updPwr g).engine i = f.engine i := rfl
@[simp] theorem Fab.updPwr_share (f : Fab) (g : Pwr → Pwr) (i : Nat) : (f.updPwr g).share i = f.share i := rfl
@[simp] theorem Fab.updPwr_port (f : Fab) (g : Pwr → Pwr) (i : Nat) : (f.updPwr g).port i = f.port i := rfl
@[simp] theorem Fab.updPwr_ch (f : Fab) (g : Pwr → Pwr) (i : Nat) : (f.updPwr g).ch i = f.ch i := rfl
@[simp] theorem Fab.updPwr_unitPart (f : Fab) (g : Pwr → Pwr) (u : Nat) : (f.updPwr g).unitPart u = f.unitPart u := rfl
@[simp] theorem Fab.updPwr_granPart (f : Fab) (g : Pwr → Pwr) (y : Nat) : (f.updPwr g).granPart y = f.granPart y := rfl
@[simp] theorem Fab.updPwr_engPart (f : Fab) (g : Pwr → Pwr) (u : Nat) : (f.updPwr g).engPart u = f.engPart u := rfl
@[simp] theorem Fab.updPwr_activeIn (f : Fab) (g : Pwr → Pwr) (y z : Nat) : (f.updPwr g).activeIn y z = f.activeIn y z := rfl
@[simp] theorem Fab.updPwr_st (f : Fab) (g : Pwr → Pwr) (y : Nat) : (f.updPwr g).st y = f.st y := rfl
@[simp] theorem Fab.updPwr_barrierMode (f : Fab) (g : Pwr → Pwr) (y : Nat) : (f.updPwr g).barrierMode y = f.barrierMode y := rfl
@[simp] theorem Fab.updPwr_isRoot (f : Fab) (g : Pwr → Pwr) (y : Nat) : (f.updPwr g).isRoot y = f.isRoot y := rfl
@[simp] theorem Fab.updPwr_children (f : Fab) (g : Pwr → Pwr) (y : Nat) : (f.updPwr g).children y = f.children y := rfl
@[simp] theorem Fab.updPwr_portActive (f : Fab) (g : Pwr → Pwr) (y : Nat) : (f.updPwr g).portActive y = f.portActive y := rfl
@[simp] theorem Fab.updPwr_portOf (f : Fab) (g : Pwr → Pwr) (y : Nat) : (f.updPwr g).portOf y = f.portOf y := rfl

/-! ### updMbx -/

@[simp] theorem Fab.updMbx_regs (f : Fab) (g : Mbx → Mbx) : (f.updMbx g).regs = f.regs := rfl
@[simp] theorem Fab.updMbx_mem (f : Fab) (g : Mbx → Mbx) : (f.updMbx g).mem = f.mem := rfl
@[simp] theorem Fab.updMbx_err (f : Fab) (g : Mbx → Mbx) : (f.updMbx g).err = f.err := rfl
@[simp] theorem Fab.updMbx_key (f : Fab) (g : Mbx → Mbx) : (f.updMbx g).key = f.key := rfl
@[simp] theorem Fab.updMbx_keys (f : Fab) (g : Mbx → Mbx) : (f.updMbx g).keys = f.keys := rfl
@[simp] theorem Fab.updMbx_pairs (f : Fab) (g : Mbx → Mbx) : (f.updMbx g).pairs = f.pairs := rfl
@[simp] theorem Fab.updMbx_repair (f : Fab) (g : Mbx → Mbx) : (f.updMbx g).repair = f.repair := rfl
@[simp] theorem Fab.updMbx_breq (f : Fab) (g : Mbx → Mbx) : (f.updMbx g).breq = f.breq := rfl
@[simp] theorem Fab.updMbx_lost (f : Fab) (g : Mbx → Mbx) : (f.updMbx g).lost = f.lost := rfl
@[simp] theorem Fab.updMbx_eng (f : Fab) (g : Mbx → Mbx) : (f.updMbx g).eng = f.eng := rfl
@[simp] theorem Fab.updMbx_sh (f : Fab) (g : Mbx → Mbx) : (f.updMbx g).sh = f.sh := rfl
@[simp] theorem Fab.updMbx_stq (f : Fab) (g : Mbx → Mbx) : (f.updMbx g).stq = f.stq := rfl
@[simp] theorem Fab.updMbx_puts (f : Fab) (g : Mbx → Mbx) : (f.updMbx g).puts = f.puts := rfl
@[simp] theorem Fab.updMbx_past (f : Fab) (g : Mbx → Mbx) : (f.updMbx g).past = f.past := rfl
@[simp] theorem Fab.updMbx_pbT (f : Fab) (g : Mbx → Mbx) : (f.updMbx g).pbT = f.pbT := rfl
@[simp] theorem Fab.updMbx_confT (f : Fab) (g : Mbx → Mbx) : (f.updMbx g).confT = f.confT := rfl
@[simp] theorem Fab.updMbx_tBad (f : Fab) (g : Mbx → Mbx) : (f.updMbx g).tBad = f.tBad := rfl
@[simp] theorem Fab.updMbx_injWait (f : Fab) (g : Mbx → Mbx) : (f.updMbx g).injWait = f.injWait := rfl
@[simp] theorem Fab.updMbx_link (f : Fab) (g : Mbx → Mbx) : (f.updMbx g).link = f.link := rfl
@[simp] theorem Fab.updMbx_farSt (f : Fab) (g : Mbx → Mbx) : (f.updMbx g).farSt = f.farSt := rfl
@[simp] theorem Fab.updMbx_dma (f : Fab) (g : Mbx → Mbx) : (f.updMbx g).dma = f.dma := rfl
@[simp] theorem Fab.updMbx_dmaR (f : Fab) (g : Mbx → Mbx) : (f.updMbx g).dmaR = f.dmaR := rfl
@[simp] theorem Fab.updMbx_dmaW (f : Fab) (g : Mbx → Mbx) : (f.updMbx g).dmaW = f.dmaW := rfl
@[simp] theorem Fab.updMbx_inbox (f : Fab) (g : Mbx → Mbx) : (f.updMbx g).inbox = f.inbox := rfl
@[simp] theorem Fab.updMbx_latched (f : Fab) (g : Mbx → Mbx) : (f.updMbx g).latched = f.latched := rfl
@[simp] theorem Fab.updMbx_pres (f : Fab) (g : Mbx → Mbx) : (f.updMbx g).pres = f.pres := rfl
@[simp] theorem Fab.updMbx_istk (f : Fab) (g : Mbx → Mbx) : (f.updMbx g).istk = f.istk := rfl
@[simp] theorem Fab.updMbx_itim (f : Fab) (g : Mbx → Mbx) : (f.updMbx g).itim = f.itim := rfl
@[simp] theorem Fab.updMbx_dhalt (f : Fab) (g : Mbx → Mbx) : (f.updMbx g).dhalt = f.dhalt := rfl
@[simp] theorem Fab.updMbx_msixTab (f : Fab) (g : Mbx → Mbx) : (f.updMbx g).msixTab = f.msixTab := rfl
@[simp] theorem Fab.updMbx_msixPend (f : Fab) (g : Mbx → Mbx) : (f.updMbx g).msixPend = f.msixPend := rfl
@[simp] theorem Fab.updMbx_pcfg (f : Fab) (g : Mbx → Mbx) : (f.updMbx g).pcfg = f.pcfg := rfl
@[simp] theorem Fab.updMbx_pwr (f : Fab) (g : Mbx → Mbx) : (f.updMbx g).pwr = f.pwr := rfl
@[simp] theorem Fab.updMbx_mgmt (f : Fab) (g : Mbx → Mbx) : (f.updMbx g).mgmt = f.mgmt := rfl
@[simp] theorem Fab.updMbx_dam (f : Fab) (g : Mbx → Mbx) : (f.updMbx g).dam = f.dam := rfl
@[simp] theorem Fab.updMbx_umx (f : Fab) (g : Mbx → Mbx) : (f.updMbx g).umx = f.umx := rfl
@[simp] theorem Fab.updMbx_dxw (f : Fab) (g : Mbx → Mbx) : (f.updMbx g).dxw = f.dxw := rfl
@[simp] theorem Fab.updMbx_tap (f : Fab) (g : Mbx → Mbx) : (f.updMbx g).tap = f.tap := rfl
@[simp] theorem Fab.updMbx_dimms (f : Fab) (g : Mbx → Mbx) : (f.updMbx g).dimms = f.dimms := rfl
@[simp] theorem Fab.updMbx_ref2x (f : Fab) (g : Mbx → Mbx) : (f.updMbx g).ref2x = f.ref2x := rfl
@[simp] theorem Fab.updMbx_once (f : Fab) (g : Mbx → Mbx) : (f.updMbx g).once = f.once := rfl
@[simp] theorem Fab.updMbx_clk (f : Fab) (g : Mbx → Mbx) : (f.updMbx g).clk = f.clk := rfl
@[simp] theorem Fab.updMbx_tbOff (f : Fab) (g : Mbx → Mbx) : (f.updMbx g).tbOff = f.tbOff := rfl
@[simp] theorem Fab.updMbx_out (f : Fab) (g : Mbx → Mbx) : (f.updMbx g).out = f.out := rfl
@[simp] theorem Fab.updMbx_fresh (f : Fab) (g : Mbx → Mbx) : (f.updMbx g).fresh = f.fresh := rfl
@[simp] theorem Fab.updMbx_reg (f : Fab) (g : Mbx → Mbx) (b : Nat) : (f.updMbx g).reg b = f.reg b := rfl
@[simp] theorem Fab.updMbx_get (f : Fab) (g : Mbx → Mbx) (y : Fld) : (f.updMbx g).get y = f.get y := rfl
@[simp] theorem Fab.updMbx_bit (f : Fab) (g : Mbx → Mbx) (y : Fld) : (f.updMbx g).bit y = f.bit y := rfl
@[simp] theorem Fab.updMbx_engine (f : Fab) (g : Mbx → Mbx) (i : Nat) : (f.updMbx g).engine i = f.engine i := rfl
@[simp] theorem Fab.updMbx_share (f : Fab) (g : Mbx → Mbx) (i : Nat) : (f.updMbx g).share i = f.share i := rfl
@[simp] theorem Fab.updMbx_port (f : Fab) (g : Mbx → Mbx) (i : Nat) : (f.updMbx g).port i = f.port i := rfl
@[simp] theorem Fab.updMbx_ch (f : Fab) (g : Mbx → Mbx) (i : Nat) : (f.updMbx g).ch i = f.ch i := rfl
@[simp] theorem Fab.updMbx_unitPart (f : Fab) (g : Mbx → Mbx) (u : Nat) : (f.updMbx g).unitPart u = f.unitPart u := rfl
@[simp] theorem Fab.updMbx_granPart (f : Fab) (g : Mbx → Mbx) (y : Nat) : (f.updMbx g).granPart y = f.granPart y := rfl
@[simp] theorem Fab.updMbx_engPart (f : Fab) (g : Mbx → Mbx) (u : Nat) : (f.updMbx g).engPart u = f.engPart u := rfl
@[simp] theorem Fab.updMbx_activeIn (f : Fab) (g : Mbx → Mbx) (y z : Nat) : (f.updMbx g).activeIn y z = f.activeIn y z := rfl
@[simp] theorem Fab.updMbx_st (f : Fab) (g : Mbx → Mbx) (y : Nat) : (f.updMbx g).st y = f.st y := rfl
@[simp] theorem Fab.updMbx_barrierMode (f : Fab) (g : Mbx → Mbx) (y : Nat) : (f.updMbx g).barrierMode y = f.barrierMode y := rfl
@[simp] theorem Fab.updMbx_isRoot (f : Fab) (g : Mbx → Mbx) (y : Nat) : (f.updMbx g).isRoot y = f.isRoot y := rfl
@[simp] theorem Fab.updMbx_children (f : Fab) (g : Mbx → Mbx) (y : Nat) : (f.updMbx g).children y = f.children y := rfl
@[simp] theorem Fab.updMbx_portActive (f : Fab) (g : Mbx → Mbx) (y : Nat) : (f.updMbx g).portActive y = f.portActive y := rfl
@[simp] theorem Fab.updMbx_portOf (f : Fab) (g : Mbx → Mbx) (y : Nat) : (f.updMbx g).portOf y = f.portOf y := rfl

/-! ### updMgmt -/

@[simp] theorem Fab.updMgmt_regs (f : Fab) (g : Mgmt → Mgmt) : (f.updMgmt g).regs = f.regs := rfl
@[simp] theorem Fab.updMgmt_mem (f : Fab) (g : Mgmt → Mgmt) : (f.updMgmt g).mem = f.mem := rfl
@[simp] theorem Fab.updMgmt_err (f : Fab) (g : Mgmt → Mgmt) : (f.updMgmt g).err = f.err := rfl
@[simp] theorem Fab.updMgmt_key (f : Fab) (g : Mgmt → Mgmt) : (f.updMgmt g).key = f.key := rfl
@[simp] theorem Fab.updMgmt_keys (f : Fab) (g : Mgmt → Mgmt) : (f.updMgmt g).keys = f.keys := rfl
@[simp] theorem Fab.updMgmt_pairs (f : Fab) (g : Mgmt → Mgmt) : (f.updMgmt g).pairs = f.pairs := rfl
@[simp] theorem Fab.updMgmt_repair (f : Fab) (g : Mgmt → Mgmt) : (f.updMgmt g).repair = f.repair := rfl
@[simp] theorem Fab.updMgmt_breq (f : Fab) (g : Mgmt → Mgmt) : (f.updMgmt g).breq = f.breq := rfl
@[simp] theorem Fab.updMgmt_lost (f : Fab) (g : Mgmt → Mgmt) : (f.updMgmt g).lost = f.lost := rfl
@[simp] theorem Fab.updMgmt_eng (f : Fab) (g : Mgmt → Mgmt) : (f.updMgmt g).eng = f.eng := rfl
@[simp] theorem Fab.updMgmt_sh (f : Fab) (g : Mgmt → Mgmt) : (f.updMgmt g).sh = f.sh := rfl
@[simp] theorem Fab.updMgmt_stq (f : Fab) (g : Mgmt → Mgmt) : (f.updMgmt g).stq = f.stq := rfl
@[simp] theorem Fab.updMgmt_puts (f : Fab) (g : Mgmt → Mgmt) : (f.updMgmt g).puts = f.puts := rfl
@[simp] theorem Fab.updMgmt_past (f : Fab) (g : Mgmt → Mgmt) : (f.updMgmt g).past = f.past := rfl
@[simp] theorem Fab.updMgmt_pbT (f : Fab) (g : Mgmt → Mgmt) : (f.updMgmt g).pbT = f.pbT := rfl
@[simp] theorem Fab.updMgmt_confT (f : Fab) (g : Mgmt → Mgmt) : (f.updMgmt g).confT = f.confT := rfl
@[simp] theorem Fab.updMgmt_tBad (f : Fab) (g : Mgmt → Mgmt) : (f.updMgmt g).tBad = f.tBad := rfl
@[simp] theorem Fab.updMgmt_injWait (f : Fab) (g : Mgmt → Mgmt) : (f.updMgmt g).injWait = f.injWait := rfl
@[simp] theorem Fab.updMgmt_link (f : Fab) (g : Mgmt → Mgmt) : (f.updMgmt g).link = f.link := rfl
@[simp] theorem Fab.updMgmt_farSt (f : Fab) (g : Mgmt → Mgmt) : (f.updMgmt g).farSt = f.farSt := rfl
@[simp] theorem Fab.updMgmt_dma (f : Fab) (g : Mgmt → Mgmt) : (f.updMgmt g).dma = f.dma := rfl
@[simp] theorem Fab.updMgmt_dmaR (f : Fab) (g : Mgmt → Mgmt) : (f.updMgmt g).dmaR = f.dmaR := rfl
@[simp] theorem Fab.updMgmt_dmaW (f : Fab) (g : Mgmt → Mgmt) : (f.updMgmt g).dmaW = f.dmaW := rfl
@[simp] theorem Fab.updMgmt_inbox (f : Fab) (g : Mgmt → Mgmt) : (f.updMgmt g).inbox = f.inbox := rfl
@[simp] theorem Fab.updMgmt_latched (f : Fab) (g : Mgmt → Mgmt) : (f.updMgmt g).latched = f.latched := rfl
@[simp] theorem Fab.updMgmt_pres (f : Fab) (g : Mgmt → Mgmt) : (f.updMgmt g).pres = f.pres := rfl
@[simp] theorem Fab.updMgmt_istk (f : Fab) (g : Mgmt → Mgmt) : (f.updMgmt g).istk = f.istk := rfl
@[simp] theorem Fab.updMgmt_itim (f : Fab) (g : Mgmt → Mgmt) : (f.updMgmt g).itim = f.itim := rfl
@[simp] theorem Fab.updMgmt_dhalt (f : Fab) (g : Mgmt → Mgmt) : (f.updMgmt g).dhalt = f.dhalt := rfl
@[simp] theorem Fab.updMgmt_msixTab (f : Fab) (g : Mgmt → Mgmt) : (f.updMgmt g).msixTab = f.msixTab := rfl
@[simp] theorem Fab.updMgmt_msixPend (f : Fab) (g : Mgmt → Mgmt) : (f.updMgmt g).msixPend = f.msixPend := rfl
@[simp] theorem Fab.updMgmt_pcfg (f : Fab) (g : Mgmt → Mgmt) : (f.updMgmt g).pcfg = f.pcfg := rfl
@[simp] theorem Fab.updMgmt_pwr (f : Fab) (g : Mgmt → Mgmt) : (f.updMgmt g).pwr = f.pwr := rfl
@[simp] theorem Fab.updMgmt_mbx (f : Fab) (g : Mgmt → Mgmt) : (f.updMgmt g).mbx = f.mbx := rfl
@[simp] theorem Fab.updMgmt_dam (f : Fab) (g : Mgmt → Mgmt) : (f.updMgmt g).dam = f.dam := rfl
@[simp] theorem Fab.updMgmt_umx (f : Fab) (g : Mgmt → Mgmt) : (f.updMgmt g).umx = f.umx := rfl
@[simp] theorem Fab.updMgmt_dxw (f : Fab) (g : Mgmt → Mgmt) : (f.updMgmt g).dxw = f.dxw := rfl
@[simp] theorem Fab.updMgmt_tap (f : Fab) (g : Mgmt → Mgmt) : (f.updMgmt g).tap = f.tap := rfl
@[simp] theorem Fab.updMgmt_dimms (f : Fab) (g : Mgmt → Mgmt) : (f.updMgmt g).dimms = f.dimms := rfl
@[simp] theorem Fab.updMgmt_ref2x (f : Fab) (g : Mgmt → Mgmt) : (f.updMgmt g).ref2x = f.ref2x := rfl
@[simp] theorem Fab.updMgmt_once (f : Fab) (g : Mgmt → Mgmt) : (f.updMgmt g).once = f.once := rfl
@[simp] theorem Fab.updMgmt_clk (f : Fab) (g : Mgmt → Mgmt) : (f.updMgmt g).clk = f.clk := rfl
@[simp] theorem Fab.updMgmt_tbOff (f : Fab) (g : Mgmt → Mgmt) : (f.updMgmt g).tbOff = f.tbOff := rfl
@[simp] theorem Fab.updMgmt_out (f : Fab) (g : Mgmt → Mgmt) : (f.updMgmt g).out = f.out := rfl
@[simp] theorem Fab.updMgmt_fresh (f : Fab) (g : Mgmt → Mgmt) : (f.updMgmt g).fresh = f.fresh := rfl
@[simp] theorem Fab.updMgmt_reg (f : Fab) (g : Mgmt → Mgmt) (b : Nat) : (f.updMgmt g).reg b = f.reg b := rfl
@[simp] theorem Fab.updMgmt_get (f : Fab) (g : Mgmt → Mgmt) (y : Fld) : (f.updMgmt g).get y = f.get y := rfl
@[simp] theorem Fab.updMgmt_bit (f : Fab) (g : Mgmt → Mgmt) (y : Fld) : (f.updMgmt g).bit y = f.bit y := rfl
@[simp] theorem Fab.updMgmt_engine (f : Fab) (g : Mgmt → Mgmt) (i : Nat) : (f.updMgmt g).engine i = f.engine i := rfl
@[simp] theorem Fab.updMgmt_share (f : Fab) (g : Mgmt → Mgmt) (i : Nat) : (f.updMgmt g).share i = f.share i := rfl
@[simp] theorem Fab.updMgmt_port (f : Fab) (g : Mgmt → Mgmt) (i : Nat) : (f.updMgmt g).port i = f.port i := rfl
@[simp] theorem Fab.updMgmt_ch (f : Fab) (g : Mgmt → Mgmt) (i : Nat) : (f.updMgmt g).ch i = f.ch i := rfl
@[simp] theorem Fab.updMgmt_unitPart (f : Fab) (g : Mgmt → Mgmt) (u : Nat) : (f.updMgmt g).unitPart u = f.unitPart u := rfl
@[simp] theorem Fab.updMgmt_granPart (f : Fab) (g : Mgmt → Mgmt) (y : Nat) : (f.updMgmt g).granPart y = f.granPart y := rfl
@[simp] theorem Fab.updMgmt_engPart (f : Fab) (g : Mgmt → Mgmt) (u : Nat) : (f.updMgmt g).engPart u = f.engPart u := rfl
@[simp] theorem Fab.updMgmt_activeIn (f : Fab) (g : Mgmt → Mgmt) (y z : Nat) : (f.updMgmt g).activeIn y z = f.activeIn y z := rfl
@[simp] theorem Fab.updMgmt_st (f : Fab) (g : Mgmt → Mgmt) (y : Nat) : (f.updMgmt g).st y = f.st y := rfl
@[simp] theorem Fab.updMgmt_barrierMode (f : Fab) (g : Mgmt → Mgmt) (y : Nat) : (f.updMgmt g).barrierMode y = f.barrierMode y := rfl
@[simp] theorem Fab.updMgmt_isRoot (f : Fab) (g : Mgmt → Mgmt) (y : Nat) : (f.updMgmt g).isRoot y = f.isRoot y := rfl
@[simp] theorem Fab.updMgmt_children (f : Fab) (g : Mgmt → Mgmt) (y : Nat) : (f.updMgmt g).children y = f.children y := rfl
@[simp] theorem Fab.updMgmt_portActive (f : Fab) (g : Mgmt → Mgmt) (y : Nat) : (f.updMgmt g).portActive y = f.portActive y := rfl
@[simp] theorem Fab.updMgmt_portOf (f : Fab) (g : Mgmt → Mgmt) (y : Nat) : (f.updMgmt g).portOf y = f.portOf y := rfl

/-! ### updUmx -/

@[simp] theorem Fab.updUmx_regs (f : Fab) (g : Umx → Umx) : (f.updUmx g).regs = f.regs := rfl
@[simp] theorem Fab.updUmx_mem (f : Fab) (g : Umx → Umx) : (f.updUmx g).mem = f.mem := rfl
@[simp] theorem Fab.updUmx_err (f : Fab) (g : Umx → Umx) : (f.updUmx g).err = f.err := rfl
@[simp] theorem Fab.updUmx_key (f : Fab) (g : Umx → Umx) : (f.updUmx g).key = f.key := rfl
@[simp] theorem Fab.updUmx_keys (f : Fab) (g : Umx → Umx) : (f.updUmx g).keys = f.keys := rfl
@[simp] theorem Fab.updUmx_pairs (f : Fab) (g : Umx → Umx) : (f.updUmx g).pairs = f.pairs := rfl
@[simp] theorem Fab.updUmx_repair (f : Fab) (g : Umx → Umx) : (f.updUmx g).repair = f.repair := rfl
@[simp] theorem Fab.updUmx_breq (f : Fab) (g : Umx → Umx) : (f.updUmx g).breq = f.breq := rfl
@[simp] theorem Fab.updUmx_lost (f : Fab) (g : Umx → Umx) : (f.updUmx g).lost = f.lost := rfl
@[simp] theorem Fab.updUmx_eng (f : Fab) (g : Umx → Umx) : (f.updUmx g).eng = f.eng := rfl
@[simp] theorem Fab.updUmx_sh (f : Fab) (g : Umx → Umx) : (f.updUmx g).sh = f.sh := rfl
@[simp] theorem Fab.updUmx_stq (f : Fab) (g : Umx → Umx) : (f.updUmx g).stq = f.stq := rfl
@[simp] theorem Fab.updUmx_puts (f : Fab) (g : Umx → Umx) : (f.updUmx g).puts = f.puts := rfl
@[simp] theorem Fab.updUmx_past (f : Fab) (g : Umx → Umx) : (f.updUmx g).past = f.past := rfl
@[simp] theorem Fab.updUmx_pbT (f : Fab) (g : Umx → Umx) : (f.updUmx g).pbT = f.pbT := rfl
@[simp] theorem Fab.updUmx_confT (f : Fab) (g : Umx → Umx) : (f.updUmx g).confT = f.confT := rfl
@[simp] theorem Fab.updUmx_tBad (f : Fab) (g : Umx → Umx) : (f.updUmx g).tBad = f.tBad := rfl
@[simp] theorem Fab.updUmx_injWait (f : Fab) (g : Umx → Umx) : (f.updUmx g).injWait = f.injWait := rfl
@[simp] theorem Fab.updUmx_link (f : Fab) (g : Umx → Umx) : (f.updUmx g).link = f.link := rfl
@[simp] theorem Fab.updUmx_farSt (f : Fab) (g : Umx → Umx) : (f.updUmx g).farSt = f.farSt := rfl
@[simp] theorem Fab.updUmx_dma (f : Fab) (g : Umx → Umx) : (f.updUmx g).dma = f.dma := rfl
@[simp] theorem Fab.updUmx_dmaR (f : Fab) (g : Umx → Umx) : (f.updUmx g).dmaR = f.dmaR := rfl
@[simp] theorem Fab.updUmx_dmaW (f : Fab) (g : Umx → Umx) : (f.updUmx g).dmaW = f.dmaW := rfl
@[simp] theorem Fab.updUmx_inbox (f : Fab) (g : Umx → Umx) : (f.updUmx g).inbox = f.inbox := rfl
@[simp] theorem Fab.updUmx_latched (f : Fab) (g : Umx → Umx) : (f.updUmx g).latched = f.latched := rfl
@[simp] theorem Fab.updUmx_pres (f : Fab) (g : Umx → Umx) : (f.updUmx g).pres = f.pres := rfl
@[simp] theorem Fab.updUmx_istk (f : Fab) (g : Umx → Umx) : (f.updUmx g).istk = f.istk := rfl
@[simp] theorem Fab.updUmx_itim (f : Fab) (g : Umx → Umx) : (f.updUmx g).itim = f.itim := rfl
@[simp] theorem Fab.updUmx_dhalt (f : Fab) (g : Umx → Umx) : (f.updUmx g).dhalt = f.dhalt := rfl
@[simp] theorem Fab.updUmx_msixTab (f : Fab) (g : Umx → Umx) : (f.updUmx g).msixTab = f.msixTab := rfl
@[simp] theorem Fab.updUmx_msixPend (f : Fab) (g : Umx → Umx) : (f.updUmx g).msixPend = f.msixPend := rfl
@[simp] theorem Fab.updUmx_pcfg (f : Fab) (g : Umx → Umx) : (f.updUmx g).pcfg = f.pcfg := rfl
@[simp] theorem Fab.updUmx_pwr (f : Fab) (g : Umx → Umx) : (f.updUmx g).pwr = f.pwr := rfl
@[simp] theorem Fab.updUmx_mgmt (f : Fab) (g : Umx → Umx) : (f.updUmx g).mgmt = f.mgmt := rfl
@[simp] theorem Fab.updUmx_mbx (f : Fab) (g : Umx → Umx) : (f.updUmx g).mbx = f.mbx := rfl
@[simp] theorem Fab.updUmx_dam (f : Fab) (g : Umx → Umx) : (f.updUmx g).dam = f.dam := rfl
@[simp] theorem Fab.updUmx_dxw (f : Fab) (g : Umx → Umx) : (f.updUmx g).dxw = f.dxw := rfl
@[simp] theorem Fab.updUmx_tap (f : Fab) (g : Umx → Umx) : (f.updUmx g).tap = f.tap := rfl
@[simp] theorem Fab.updUmx_dimms (f : Fab) (g : Umx → Umx) : (f.updUmx g).dimms = f.dimms := rfl
@[simp] theorem Fab.updUmx_ref2x (f : Fab) (g : Umx → Umx) : (f.updUmx g).ref2x = f.ref2x := rfl
@[simp] theorem Fab.updUmx_once (f : Fab) (g : Umx → Umx) : (f.updUmx g).once = f.once := rfl
@[simp] theorem Fab.updUmx_clk (f : Fab) (g : Umx → Umx) : (f.updUmx g).clk = f.clk := rfl
@[simp] theorem Fab.updUmx_tbOff (f : Fab) (g : Umx → Umx) : (f.updUmx g).tbOff = f.tbOff := rfl
@[simp] theorem Fab.updUmx_out (f : Fab) (g : Umx → Umx) : (f.updUmx g).out = f.out := rfl
@[simp] theorem Fab.updUmx_fresh (f : Fab) (g : Umx → Umx) : (f.updUmx g).fresh = f.fresh := rfl
@[simp] theorem Fab.updUmx_reg (f : Fab) (g : Umx → Umx) (b : Nat) : (f.updUmx g).reg b = f.reg b := rfl
@[simp] theorem Fab.updUmx_get (f : Fab) (g : Umx → Umx) (y : Fld) : (f.updUmx g).get y = f.get y := rfl
@[simp] theorem Fab.updUmx_bit (f : Fab) (g : Umx → Umx) (y : Fld) : (f.updUmx g).bit y = f.bit y := rfl
@[simp] theorem Fab.updUmx_engine (f : Fab) (g : Umx → Umx) (i : Nat) : (f.updUmx g).engine i = f.engine i := rfl
@[simp] theorem Fab.updUmx_share (f : Fab) (g : Umx → Umx) (i : Nat) : (f.updUmx g).share i = f.share i := rfl
@[simp] theorem Fab.updUmx_port (f : Fab) (g : Umx → Umx) (i : Nat) : (f.updUmx g).port i = f.port i := rfl
@[simp] theorem Fab.updUmx_ch (f : Fab) (g : Umx → Umx) (i : Nat) : (f.updUmx g).ch i = f.ch i := rfl
@[simp] theorem Fab.updUmx_unitPart (f : Fab) (g : Umx → Umx) (u : Nat) : (f.updUmx g).unitPart u = f.unitPart u := rfl
@[simp] theorem Fab.updUmx_granPart (f : Fab) (g : Umx → Umx) (y : Nat) : (f.updUmx g).granPart y = f.granPart y := rfl
@[simp] theorem Fab.updUmx_engPart (f : Fab) (g : Umx → Umx) (u : Nat) : (f.updUmx g).engPart u = f.engPart u := rfl
@[simp] theorem Fab.updUmx_activeIn (f : Fab) (g : Umx → Umx) (y z : Nat) : (f.updUmx g).activeIn y z = f.activeIn y z := rfl
@[simp] theorem Fab.updUmx_st (f : Fab) (g : Umx → Umx) (y : Nat) : (f.updUmx g).st y = f.st y := rfl
@[simp] theorem Fab.updUmx_barrierMode (f : Fab) (g : Umx → Umx) (y : Nat) : (f.updUmx g).barrierMode y = f.barrierMode y := rfl
@[simp] theorem Fab.updUmx_isRoot (f : Fab) (g : Umx → Umx) (y : Nat) : (f.updUmx g).isRoot y = f.isRoot y := rfl
@[simp] theorem Fab.updUmx_children (f : Fab) (g : Umx → Umx) (y : Nat) : (f.updUmx g).children y = f.children y := rfl
@[simp] theorem Fab.updUmx_portActive (f : Fab) (g : Umx → Umx) (y : Nat) : (f.updUmx g).portActive y = f.portActive y := rfl
@[simp] theorem Fab.updUmx_portOf (f : Fab) (g : Umx → Umx) (y : Nat) : (f.updUmx g).portOf y = f.portOf y := rfl

/-! ### updDam -/

@[simp] theorem Fab.updDam_regs (f : Fab) (g : Dam → Dam) : (f.updDam g).regs = f.regs := rfl
@[simp] theorem Fab.updDam_mem (f : Fab) (g : Dam → Dam) : (f.updDam g).mem = f.mem := rfl
@[simp] theorem Fab.updDam_err (f : Fab) (g : Dam → Dam) : (f.updDam g).err = f.err := rfl
@[simp] theorem Fab.updDam_key (f : Fab) (g : Dam → Dam) : (f.updDam g).key = f.key := rfl
@[simp] theorem Fab.updDam_keys (f : Fab) (g : Dam → Dam) : (f.updDam g).keys = f.keys := rfl
@[simp] theorem Fab.updDam_pairs (f : Fab) (g : Dam → Dam) : (f.updDam g).pairs = f.pairs := rfl
@[simp] theorem Fab.updDam_repair (f : Fab) (g : Dam → Dam) : (f.updDam g).repair = f.repair := rfl
@[simp] theorem Fab.updDam_breq (f : Fab) (g : Dam → Dam) : (f.updDam g).breq = f.breq := rfl
@[simp] theorem Fab.updDam_lost (f : Fab) (g : Dam → Dam) : (f.updDam g).lost = f.lost := rfl
@[simp] theorem Fab.updDam_eng (f : Fab) (g : Dam → Dam) : (f.updDam g).eng = f.eng := rfl
@[simp] theorem Fab.updDam_sh (f : Fab) (g : Dam → Dam) : (f.updDam g).sh = f.sh := rfl
@[simp] theorem Fab.updDam_stq (f : Fab) (g : Dam → Dam) : (f.updDam g).stq = f.stq := rfl
@[simp] theorem Fab.updDam_puts (f : Fab) (g : Dam → Dam) : (f.updDam g).puts = f.puts := rfl
@[simp] theorem Fab.updDam_past (f : Fab) (g : Dam → Dam) : (f.updDam g).past = f.past := rfl
@[simp] theorem Fab.updDam_pbT (f : Fab) (g : Dam → Dam) : (f.updDam g).pbT = f.pbT := rfl
@[simp] theorem Fab.updDam_confT (f : Fab) (g : Dam → Dam) : (f.updDam g).confT = f.confT := rfl
@[simp] theorem Fab.updDam_tBad (f : Fab) (g : Dam → Dam) : (f.updDam g).tBad = f.tBad := rfl
@[simp] theorem Fab.updDam_injWait (f : Fab) (g : Dam → Dam) : (f.updDam g).injWait = f.injWait := rfl
@[simp] theorem Fab.updDam_link (f : Fab) (g : Dam → Dam) : (f.updDam g).link = f.link := rfl
@[simp] theorem Fab.updDam_farSt (f : Fab) (g : Dam → Dam) : (f.updDam g).farSt = f.farSt := rfl
@[simp] theorem Fab.updDam_dma (f : Fab) (g : Dam → Dam) : (f.updDam g).dma = f.dma := rfl
@[simp] theorem Fab.updDam_dmaR (f : Fab) (g : Dam → Dam) : (f.updDam g).dmaR = f.dmaR := rfl
@[simp] theorem Fab.updDam_dmaW (f : Fab) (g : Dam → Dam) : (f.updDam g).dmaW = f.dmaW := rfl
@[simp] theorem Fab.updDam_inbox (f : Fab) (g : Dam → Dam) : (f.updDam g).inbox = f.inbox := rfl
@[simp] theorem Fab.updDam_latched (f : Fab) (g : Dam → Dam) : (f.updDam g).latched = f.latched := rfl
@[simp] theorem Fab.updDam_pres (f : Fab) (g : Dam → Dam) : (f.updDam g).pres = f.pres := rfl
@[simp] theorem Fab.updDam_istk (f : Fab) (g : Dam → Dam) : (f.updDam g).istk = f.istk := rfl
@[simp] theorem Fab.updDam_itim (f : Fab) (g : Dam → Dam) : (f.updDam g).itim = f.itim := rfl
@[simp] theorem Fab.updDam_dhalt (f : Fab) (g : Dam → Dam) : (f.updDam g).dhalt = f.dhalt := rfl
@[simp] theorem Fab.updDam_msixTab (f : Fab) (g : Dam → Dam) : (f.updDam g).msixTab = f.msixTab := rfl
@[simp] theorem Fab.updDam_msixPend (f : Fab) (g : Dam → Dam) : (f.updDam g).msixPend = f.msixPend := rfl
@[simp] theorem Fab.updDam_pcfg (f : Fab) (g : Dam → Dam) : (f.updDam g).pcfg = f.pcfg := rfl
@[simp] theorem Fab.updDam_pwr (f : Fab) (g : Dam → Dam) : (f.updDam g).pwr = f.pwr := rfl
@[simp] theorem Fab.updDam_mgmt (f : Fab) (g : Dam → Dam) : (f.updDam g).mgmt = f.mgmt := rfl
@[simp] theorem Fab.updDam_mbx (f : Fab) (g : Dam → Dam) : (f.updDam g).mbx = f.mbx := rfl
@[simp] theorem Fab.updDam_umx (f : Fab) (g : Dam → Dam) : (f.updDam g).umx = f.umx := rfl
@[simp] theorem Fab.updDam_dxw (f : Fab) (g : Dam → Dam) : (f.updDam g).dxw = f.dxw := rfl
@[simp] theorem Fab.updDam_tap (f : Fab) (g : Dam → Dam) : (f.updDam g).tap = f.tap := rfl
@[simp] theorem Fab.updDam_dimms (f : Fab) (g : Dam → Dam) : (f.updDam g).dimms = f.dimms := rfl
@[simp] theorem Fab.updDam_ref2x (f : Fab) (g : Dam → Dam) : (f.updDam g).ref2x = f.ref2x := rfl
@[simp] theorem Fab.updDam_once (f : Fab) (g : Dam → Dam) : (f.updDam g).once = f.once := rfl
@[simp] theorem Fab.updDam_clk (f : Fab) (g : Dam → Dam) : (f.updDam g).clk = f.clk := rfl
@[simp] theorem Fab.updDam_tbOff (f : Fab) (g : Dam → Dam) : (f.updDam g).tbOff = f.tbOff := rfl
@[simp] theorem Fab.updDam_out (f : Fab) (g : Dam → Dam) : (f.updDam g).out = f.out := rfl
@[simp] theorem Fab.updDam_fresh (f : Fab) (g : Dam → Dam) : (f.updDam g).fresh = f.fresh := rfl
@[simp] theorem Fab.updDam_reg (f : Fab) (g : Dam → Dam) (b : Nat) : (f.updDam g).reg b = f.reg b := rfl
@[simp] theorem Fab.updDam_get (f : Fab) (g : Dam → Dam) (y : Fld) : (f.updDam g).get y = f.get y := rfl
@[simp] theorem Fab.updDam_bit (f : Fab) (g : Dam → Dam) (y : Fld) : (f.updDam g).bit y = f.bit y := rfl
@[simp] theorem Fab.updDam_engine (f : Fab) (g : Dam → Dam) (i : Nat) : (f.updDam g).engine i = f.engine i := rfl
@[simp] theorem Fab.updDam_share (f : Fab) (g : Dam → Dam) (i : Nat) : (f.updDam g).share i = f.share i := rfl
@[simp] theorem Fab.updDam_port (f : Fab) (g : Dam → Dam) (i : Nat) : (f.updDam g).port i = f.port i := rfl
@[simp] theorem Fab.updDam_ch (f : Fab) (g : Dam → Dam) (i : Nat) : (f.updDam g).ch i = f.ch i := rfl
@[simp] theorem Fab.updDam_unitPart (f : Fab) (g : Dam → Dam) (u : Nat) : (f.updDam g).unitPart u = f.unitPart u := rfl
@[simp] theorem Fab.updDam_granPart (f : Fab) (g : Dam → Dam) (y : Nat) : (f.updDam g).granPart y = f.granPart y := rfl
@[simp] theorem Fab.updDam_engPart (f : Fab) (g : Dam → Dam) (u : Nat) : (f.updDam g).engPart u = f.engPart u := rfl
@[simp] theorem Fab.updDam_activeIn (f : Fab) (g : Dam → Dam) (y z : Nat) : (f.updDam g).activeIn y z = f.activeIn y z := rfl
@[simp] theorem Fab.updDam_st (f : Fab) (g : Dam → Dam) (y : Nat) : (f.updDam g).st y = f.st y := rfl
@[simp] theorem Fab.updDam_barrierMode (f : Fab) (g : Dam → Dam) (y : Nat) : (f.updDam g).barrierMode y = f.barrierMode y := rfl
@[simp] theorem Fab.updDam_isRoot (f : Fab) (g : Dam → Dam) (y : Nat) : (f.updDam g).isRoot y = f.isRoot y := rfl
@[simp] theorem Fab.updDam_children (f : Fab) (g : Dam → Dam) (y : Nat) : (f.updDam g).children y = f.children y := rfl
@[simp] theorem Fab.updDam_portActive (f : Fab) (g : Dam → Dam) (y : Nat) : (f.updDam g).portActive y = f.portActive y := rfl
@[simp] theorem Fab.updDam_portOf (f : Fab) (g : Dam → Dam) (y : Nat) : (f.updDam g).portOf y = f.portOf y := rfl

/-! ### updDxw -/

@[simp] theorem Fab.updDxw_regs (f : Fab) (g : Dxw → Dxw) : (f.updDxw g).regs = f.regs := rfl
@[simp] theorem Fab.updDxw_mem (f : Fab) (g : Dxw → Dxw) : (f.updDxw g).mem = f.mem := rfl
@[simp] theorem Fab.updDxw_err (f : Fab) (g : Dxw → Dxw) : (f.updDxw g).err = f.err := rfl
@[simp] theorem Fab.updDxw_key (f : Fab) (g : Dxw → Dxw) : (f.updDxw g).key = f.key := rfl
@[simp] theorem Fab.updDxw_keys (f : Fab) (g : Dxw → Dxw) : (f.updDxw g).keys = f.keys := rfl
@[simp] theorem Fab.updDxw_pairs (f : Fab) (g : Dxw → Dxw) : (f.updDxw g).pairs = f.pairs := rfl
@[simp] theorem Fab.updDxw_repair (f : Fab) (g : Dxw → Dxw) : (f.updDxw g).repair = f.repair := rfl
@[simp] theorem Fab.updDxw_breq (f : Fab) (g : Dxw → Dxw) : (f.updDxw g).breq = f.breq := rfl
@[simp] theorem Fab.updDxw_lost (f : Fab) (g : Dxw → Dxw) : (f.updDxw g).lost = f.lost := rfl
@[simp] theorem Fab.updDxw_eng (f : Fab) (g : Dxw → Dxw) : (f.updDxw g).eng = f.eng := rfl
@[simp] theorem Fab.updDxw_sh (f : Fab) (g : Dxw → Dxw) : (f.updDxw g).sh = f.sh := rfl
@[simp] theorem Fab.updDxw_stq (f : Fab) (g : Dxw → Dxw) : (f.updDxw g).stq = f.stq := rfl
@[simp] theorem Fab.updDxw_puts (f : Fab) (g : Dxw → Dxw) : (f.updDxw g).puts = f.puts := rfl
@[simp] theorem Fab.updDxw_past (f : Fab) (g : Dxw → Dxw) : (f.updDxw g).past = f.past := rfl
@[simp] theorem Fab.updDxw_pbT (f : Fab) (g : Dxw → Dxw) : (f.updDxw g).pbT = f.pbT := rfl
@[simp] theorem Fab.updDxw_confT (f : Fab) (g : Dxw → Dxw) : (f.updDxw g).confT = f.confT := rfl
@[simp] theorem Fab.updDxw_tBad (f : Fab) (g : Dxw → Dxw) : (f.updDxw g).tBad = f.tBad := rfl
@[simp] theorem Fab.updDxw_injWait (f : Fab) (g : Dxw → Dxw) : (f.updDxw g).injWait = f.injWait := rfl
@[simp] theorem Fab.updDxw_link (f : Fab) (g : Dxw → Dxw) : (f.updDxw g).link = f.link := rfl
@[simp] theorem Fab.updDxw_farSt (f : Fab) (g : Dxw → Dxw) : (f.updDxw g).farSt = f.farSt := rfl
@[simp] theorem Fab.updDxw_dma (f : Fab) (g : Dxw → Dxw) : (f.updDxw g).dma = f.dma := rfl
@[simp] theorem Fab.updDxw_dmaR (f : Fab) (g : Dxw → Dxw) : (f.updDxw g).dmaR = f.dmaR := rfl
@[simp] theorem Fab.updDxw_dmaW (f : Fab) (g : Dxw → Dxw) : (f.updDxw g).dmaW = f.dmaW := rfl
@[simp] theorem Fab.updDxw_inbox (f : Fab) (g : Dxw → Dxw) : (f.updDxw g).inbox = f.inbox := rfl
@[simp] theorem Fab.updDxw_latched (f : Fab) (g : Dxw → Dxw) : (f.updDxw g).latched = f.latched := rfl
@[simp] theorem Fab.updDxw_pres (f : Fab) (g : Dxw → Dxw) : (f.updDxw g).pres = f.pres := rfl
@[simp] theorem Fab.updDxw_istk (f : Fab) (g : Dxw → Dxw) : (f.updDxw g).istk = f.istk := rfl
@[simp] theorem Fab.updDxw_itim (f : Fab) (g : Dxw → Dxw) : (f.updDxw g).itim = f.itim := rfl
@[simp] theorem Fab.updDxw_dhalt (f : Fab) (g : Dxw → Dxw) : (f.updDxw g).dhalt = f.dhalt := rfl
@[simp] theorem Fab.updDxw_msixTab (f : Fab) (g : Dxw → Dxw) : (f.updDxw g).msixTab = f.msixTab := rfl
@[simp] theorem Fab.updDxw_msixPend (f : Fab) (g : Dxw → Dxw) : (f.updDxw g).msixPend = f.msixPend := rfl
@[simp] theorem Fab.updDxw_pcfg (f : Fab) (g : Dxw → Dxw) : (f.updDxw g).pcfg = f.pcfg := rfl
@[simp] theorem Fab.updDxw_pwr (f : Fab) (g : Dxw → Dxw) : (f.updDxw g).pwr = f.pwr := rfl
@[simp] theorem Fab.updDxw_mgmt (f : Fab) (g : Dxw → Dxw) : (f.updDxw g).mgmt = f.mgmt := rfl
@[simp] theorem Fab.updDxw_mbx (f : Fab) (g : Dxw → Dxw) : (f.updDxw g).mbx = f.mbx := rfl
@[simp] theorem Fab.updDxw_dam (f : Fab) (g : Dxw → Dxw) : (f.updDxw g).dam = f.dam := rfl
@[simp] theorem Fab.updDxw_umx (f : Fab) (g : Dxw → Dxw) : (f.updDxw g).umx = f.umx := rfl
@[simp] theorem Fab.updDxw_tap (f : Fab) (g : Dxw → Dxw) : (f.updDxw g).tap = f.tap := rfl
@[simp] theorem Fab.updDxw_dimms (f : Fab) (g : Dxw → Dxw) : (f.updDxw g).dimms = f.dimms := rfl
@[simp] theorem Fab.updDxw_ref2x (f : Fab) (g : Dxw → Dxw) : (f.updDxw g).ref2x = f.ref2x := rfl
@[simp] theorem Fab.updDxw_once (f : Fab) (g : Dxw → Dxw) : (f.updDxw g).once = f.once := rfl
@[simp] theorem Fab.updDxw_clk (f : Fab) (g : Dxw → Dxw) : (f.updDxw g).clk = f.clk := rfl
@[simp] theorem Fab.updDxw_tbOff (f : Fab) (g : Dxw → Dxw) : (f.updDxw g).tbOff = f.tbOff := rfl
@[simp] theorem Fab.updDxw_out (f : Fab) (g : Dxw → Dxw) : (f.updDxw g).out = f.out := rfl
@[simp] theorem Fab.updDxw_fresh (f : Fab) (g : Dxw → Dxw) : (f.updDxw g).fresh = f.fresh := rfl
@[simp] theorem Fab.updDxw_reg (f : Fab) (g : Dxw → Dxw) (b : Nat) : (f.updDxw g).reg b = f.reg b := rfl
@[simp] theorem Fab.updDxw_get (f : Fab) (g : Dxw → Dxw) (y : Fld) : (f.updDxw g).get y = f.get y := rfl
@[simp] theorem Fab.updDxw_bit (f : Fab) (g : Dxw → Dxw) (y : Fld) : (f.updDxw g).bit y = f.bit y := rfl
@[simp] theorem Fab.updDxw_engine (f : Fab) (g : Dxw → Dxw) (i : Nat) : (f.updDxw g).engine i = f.engine i := rfl
@[simp] theorem Fab.updDxw_share (f : Fab) (g : Dxw → Dxw) (i : Nat) : (f.updDxw g).share i = f.share i := rfl
@[simp] theorem Fab.updDxw_port (f : Fab) (g : Dxw → Dxw) (i : Nat) : (f.updDxw g).port i = f.port i := rfl
@[simp] theorem Fab.updDxw_ch (f : Fab) (g : Dxw → Dxw) (i : Nat) : (f.updDxw g).ch i = f.ch i := rfl
@[simp] theorem Fab.updDxw_unitPart (f : Fab) (g : Dxw → Dxw) (u : Nat) : (f.updDxw g).unitPart u = f.unitPart u := rfl
@[simp] theorem Fab.updDxw_granPart (f : Fab) (g : Dxw → Dxw) (y : Nat) : (f.updDxw g).granPart y = f.granPart y := rfl
@[simp] theorem Fab.updDxw_engPart (f : Fab) (g : Dxw → Dxw) (u : Nat) : (f.updDxw g).engPart u = f.engPart u := rfl
@[simp] theorem Fab.updDxw_activeIn (f : Fab) (g : Dxw → Dxw) (y z : Nat) : (f.updDxw g).activeIn y z = f.activeIn y z := rfl
@[simp] theorem Fab.updDxw_st (f : Fab) (g : Dxw → Dxw) (y : Nat) : (f.updDxw g).st y = f.st y := rfl
@[simp] theorem Fab.updDxw_barrierMode (f : Fab) (g : Dxw → Dxw) (y : Nat) : (f.updDxw g).barrierMode y = f.barrierMode y := rfl
@[simp] theorem Fab.updDxw_isRoot (f : Fab) (g : Dxw → Dxw) (y : Nat) : (f.updDxw g).isRoot y = f.isRoot y := rfl
@[simp] theorem Fab.updDxw_children (f : Fab) (g : Dxw → Dxw) (y : Nat) : (f.updDxw g).children y = f.children y := rfl
@[simp] theorem Fab.updDxw_portActive (f : Fab) (g : Dxw → Dxw) (y : Nat) : (f.updDxw g).portActive y = f.portActive y := rfl
@[simp] theorem Fab.updDxw_portOf (f : Fab) (g : Dxw → Dxw) (y : Nat) : (f.updDxw g).portOf y = f.portOf y := rfl

/-! ### emit -/

@[simp] theorem Fab.emit_regs (f : Fab) (o : Output) : (f.emit o).regs = f.regs := rfl
@[simp] theorem Fab.emit_mem (f : Fab) (o : Output) : (f.emit o).mem = f.mem := rfl
@[simp] theorem Fab.emit_err (f : Fab) (o : Output) : (f.emit o).err = f.err := rfl
@[simp] theorem Fab.emit_key (f : Fab) (o : Output) : (f.emit o).key = f.key := rfl
@[simp] theorem Fab.emit_keys (f : Fab) (o : Output) : (f.emit o).keys = f.keys := rfl
@[simp] theorem Fab.emit_pairs (f : Fab) (o : Output) : (f.emit o).pairs = f.pairs := rfl
@[simp] theorem Fab.emit_repair (f : Fab) (o : Output) : (f.emit o).repair = f.repair := rfl
@[simp] theorem Fab.emit_breq (f : Fab) (o : Output) : (f.emit o).breq = f.breq := rfl
@[simp] theorem Fab.emit_lost (f : Fab) (o : Output) : (f.emit o).lost = f.lost := rfl
@[simp] theorem Fab.emit_eng (f : Fab) (o : Output) : (f.emit o).eng = f.eng := rfl
@[simp] theorem Fab.emit_sh (f : Fab) (o : Output) : (f.emit o).sh = f.sh := rfl
@[simp] theorem Fab.emit_stq (f : Fab) (o : Output) : (f.emit o).stq = f.stq := rfl
@[simp] theorem Fab.emit_puts (f : Fab) (o : Output) : (f.emit o).puts = f.puts := rfl
@[simp] theorem Fab.emit_past (f : Fab) (o : Output) : (f.emit o).past = f.past := rfl
@[simp] theorem Fab.emit_pbT (f : Fab) (o : Output) : (f.emit o).pbT = f.pbT := rfl
@[simp] theorem Fab.emit_confT (f : Fab) (o : Output) : (f.emit o).confT = f.confT := rfl
@[simp] theorem Fab.emit_tBad (f : Fab) (o : Output) : (f.emit o).tBad = f.tBad := rfl
@[simp] theorem Fab.emit_injWait (f : Fab) (o : Output) : (f.emit o).injWait = f.injWait := rfl
@[simp] theorem Fab.emit_link (f : Fab) (o : Output) : (f.emit o).link = f.link := rfl
@[simp] theorem Fab.emit_farSt (f : Fab) (o : Output) : (f.emit o).farSt = f.farSt := rfl
@[simp] theorem Fab.emit_dma (f : Fab) (o : Output) : (f.emit o).dma = f.dma := rfl
@[simp] theorem Fab.emit_dmaR (f : Fab) (o : Output) : (f.emit o).dmaR = f.dmaR := rfl
@[simp] theorem Fab.emit_dmaW (f : Fab) (o : Output) : (f.emit o).dmaW = f.dmaW := rfl
@[simp] theorem Fab.emit_inbox (f : Fab) (o : Output) : (f.emit o).inbox = f.inbox := rfl
@[simp] theorem Fab.emit_latched (f : Fab) (o : Output) : (f.emit o).latched = f.latched := rfl
@[simp] theorem Fab.emit_pres (f : Fab) (o : Output) : (f.emit o).pres = f.pres := rfl
@[simp] theorem Fab.emit_istk (f : Fab) (o : Output) : (f.emit o).istk = f.istk := rfl
@[simp] theorem Fab.emit_itim (f : Fab) (o : Output) : (f.emit o).itim = f.itim := rfl
@[simp] theorem Fab.emit_dhalt (f : Fab) (o : Output) : (f.emit o).dhalt = f.dhalt := rfl
@[simp] theorem Fab.emit_msixTab (f : Fab) (o : Output) : (f.emit o).msixTab = f.msixTab := rfl
@[simp] theorem Fab.emit_msixPend (f : Fab) (o : Output) : (f.emit o).msixPend = f.msixPend := rfl
@[simp] theorem Fab.emit_pcfg (f : Fab) (o : Output) : (f.emit o).pcfg = f.pcfg := rfl
@[simp] theorem Fab.emit_pwr (f : Fab) (o : Output) : (f.emit o).pwr = f.pwr := rfl
@[simp] theorem Fab.emit_mgmt (f : Fab) (o : Output) : (f.emit o).mgmt = f.mgmt := rfl
@[simp] theorem Fab.emit_mbx (f : Fab) (o : Output) : (f.emit o).mbx = f.mbx := rfl
@[simp] theorem Fab.emit_dam (f : Fab) (o : Output) : (f.emit o).dam = f.dam := rfl
@[simp] theorem Fab.emit_umx (f : Fab) (o : Output) : (f.emit o).umx = f.umx := rfl
@[simp] theorem Fab.emit_dxw (f : Fab) (o : Output) : (f.emit o).dxw = f.dxw := rfl
@[simp] theorem Fab.emit_tap (f : Fab) (o : Output) : (f.emit o).tap = f.tap := rfl
@[simp] theorem Fab.emit_dimms (f : Fab) (o : Output) : (f.emit o).dimms = f.dimms := rfl
@[simp] theorem Fab.emit_ref2x (f : Fab) (o : Output) : (f.emit o).ref2x = f.ref2x := rfl
@[simp] theorem Fab.emit_once (f : Fab) (o : Output) : (f.emit o).once = f.once := rfl
@[simp] theorem Fab.emit_clk (f : Fab) (o : Output) : (f.emit o).clk = f.clk := rfl
@[simp] theorem Fab.emit_tbOff (f : Fab) (o : Output) : (f.emit o).tbOff = f.tbOff := rfl
@[simp] theorem Fab.emit_fresh (f : Fab) (o : Output) : (f.emit o).fresh = f.fresh := rfl
@[simp] theorem Fab.emit_reg (f : Fab) (o : Output) (b : Nat) : (f.emit o).reg b = f.reg b := rfl
@[simp] theorem Fab.emit_get (f : Fab) (o : Output) (y : Fld) : (f.emit o).get y = f.get y := rfl
@[simp] theorem Fab.emit_bit (f : Fab) (o : Output) (y : Fld) : (f.emit o).bit y = f.bit y := rfl
@[simp] theorem Fab.emit_engine (f : Fab) (o : Output) (i : Nat) : (f.emit o).engine i = f.engine i := rfl
@[simp] theorem Fab.emit_share (f : Fab) (o : Output) (i : Nat) : (f.emit o).share i = f.share i := rfl
@[simp] theorem Fab.emit_port (f : Fab) (o : Output) (i : Nat) : (f.emit o).port i = f.port i := rfl
@[simp] theorem Fab.emit_ch (f : Fab) (o : Output) (i : Nat) : (f.emit o).ch i = f.ch i := rfl
@[simp] theorem Fab.emit_unitPart (f : Fab) (o : Output) (u : Nat) : (f.emit o).unitPart u = f.unitPart u := rfl
@[simp] theorem Fab.emit_granPart (f : Fab) (o : Output) (y : Nat) : (f.emit o).granPart y = f.granPart y := rfl
@[simp] theorem Fab.emit_engPart (f : Fab) (o : Output) (u : Nat) : (f.emit o).engPart u = f.engPart u := rfl
@[simp] theorem Fab.emit_activeIn (f : Fab) (o : Output) (y z : Nat) : (f.emit o).activeIn y z = f.activeIn y z := rfl
@[simp] theorem Fab.emit_st (f : Fab) (o : Output) (y : Nat) : (f.emit o).st y = f.st y := rfl
@[simp] theorem Fab.emit_barrierMode (f : Fab) (o : Output) (y : Nat) : (f.emit o).barrierMode y = f.barrierMode y := rfl
@[simp] theorem Fab.emit_isRoot (f : Fab) (o : Output) (y : Nat) : (f.emit o).isRoot y = f.isRoot y := rfl
@[simp] theorem Fab.emit_children (f : Fab) (o : Output) (y : Nat) : (f.emit o).children y = f.children y := rfl
@[simp] theorem Fab.emit_portActive (f : Fab) (o : Output) (y : Nat) : (f.emit o).portActive y = f.portActive y := rfl
@[simp] theorem Fab.emit_portOf (f : Fab) (o : Output) (y : Nat) : (f.emit o).portOf y = f.portOf y := rfl

/-! ### raise -/

@[simp] theorem Fab.raise_regs (f : Fab) (s : Nat) (l : Bool) : (f.raise s l).regs = f.regs := rfl
@[simp] theorem Fab.raise_mem (f : Fab) (s : Nat) (l : Bool) : (f.raise s l).mem = f.mem := rfl
@[simp] theorem Fab.raise_err (f : Fab) (s : Nat) (l : Bool) : (f.raise s l).err = f.err := rfl
@[simp] theorem Fab.raise_key (f : Fab) (s : Nat) (l : Bool) : (f.raise s l).key = f.key := rfl
@[simp] theorem Fab.raise_keys (f : Fab) (s : Nat) (l : Bool) : (f.raise s l).keys = f.keys := rfl
@[simp] theorem Fab.raise_pairs (f : Fab) (s : Nat) (l : Bool) : (f.raise s l).pairs = f.pairs := rfl
@[simp] theorem Fab.raise_repair (f : Fab) (s : Nat) (l : Bool) : (f.raise s l).repair = f.repair := rfl
@[simp] theorem Fab.raise_breq (f : Fab) (s : Nat) (l : Bool) : (f.raise s l).breq = f.breq := rfl
@[simp] theorem Fab.raise_lost (f : Fab) (s : Nat) (l : Bool) : (f.raise s l).lost = f.lost := rfl
@[simp] theorem Fab.raise_eng (f : Fab) (s : Nat) (l : Bool) : (f.raise s l).eng = f.eng := rfl
@[simp] theorem Fab.raise_sh (f : Fab) (s : Nat) (l : Bool) : (f.raise s l).sh = f.sh := rfl
@[simp] theorem Fab.raise_stq (f : Fab) (s : Nat) (l : Bool) : (f.raise s l).stq = f.stq := rfl
@[simp] theorem Fab.raise_puts (f : Fab) (s : Nat) (l : Bool) : (f.raise s l).puts = f.puts := rfl
@[simp] theorem Fab.raise_past (f : Fab) (s : Nat) (l : Bool) : (f.raise s l).past = f.past := rfl
@[simp] theorem Fab.raise_pbT (f : Fab) (s : Nat) (l : Bool) : (f.raise s l).pbT = f.pbT := rfl
@[simp] theorem Fab.raise_confT (f : Fab) (s : Nat) (l : Bool) : (f.raise s l).confT = f.confT := rfl
@[simp] theorem Fab.raise_tBad (f : Fab) (s : Nat) (l : Bool) : (f.raise s l).tBad = f.tBad := rfl
@[simp] theorem Fab.raise_injWait (f : Fab) (s : Nat) (l : Bool) : (f.raise s l).injWait = f.injWait := rfl
@[simp] theorem Fab.raise_link (f : Fab) (s : Nat) (l : Bool) : (f.raise s l).link = f.link := rfl
@[simp] theorem Fab.raise_farSt (f : Fab) (s : Nat) (l : Bool) : (f.raise s l).farSt = f.farSt := rfl
@[simp] theorem Fab.raise_dma (f : Fab) (s : Nat) (l : Bool) : (f.raise s l).dma = f.dma := rfl
@[simp] theorem Fab.raise_dmaR (f : Fab) (s : Nat) (l : Bool) : (f.raise s l).dmaR = f.dmaR := rfl
@[simp] theorem Fab.raise_dmaW (f : Fab) (s : Nat) (l : Bool) : (f.raise s l).dmaW = f.dmaW := rfl
@[simp] theorem Fab.raise_latched (f : Fab) (s : Nat) (l : Bool) : (f.raise s l).latched = f.latched := rfl
@[simp] theorem Fab.raise_pres (f : Fab) (s : Nat) (l : Bool) : (f.raise s l).pres = f.pres := rfl
@[simp] theorem Fab.raise_istk (f : Fab) (s : Nat) (l : Bool) : (f.raise s l).istk = f.istk := rfl
@[simp] theorem Fab.raise_itim (f : Fab) (s : Nat) (l : Bool) : (f.raise s l).itim = f.itim := rfl
@[simp] theorem Fab.raise_dhalt (f : Fab) (s : Nat) (l : Bool) : (f.raise s l).dhalt = f.dhalt := rfl
@[simp] theorem Fab.raise_msixTab (f : Fab) (s : Nat) (l : Bool) : (f.raise s l).msixTab = f.msixTab := rfl
@[simp] theorem Fab.raise_msixPend (f : Fab) (s : Nat) (l : Bool) : (f.raise s l).msixPend = f.msixPend := rfl
@[simp] theorem Fab.raise_pcfg (f : Fab) (s : Nat) (l : Bool) : (f.raise s l).pcfg = f.pcfg := rfl
@[simp] theorem Fab.raise_pwr (f : Fab) (s : Nat) (l : Bool) : (f.raise s l).pwr = f.pwr := rfl
@[simp] theorem Fab.raise_mgmt (f : Fab) (s : Nat) (l : Bool) : (f.raise s l).mgmt = f.mgmt := rfl
@[simp] theorem Fab.raise_mbx (f : Fab) (s : Nat) (l : Bool) : (f.raise s l).mbx = f.mbx := rfl
@[simp] theorem Fab.raise_dam (f : Fab) (s : Nat) (l : Bool) : (f.raise s l).dam = f.dam := rfl
@[simp] theorem Fab.raise_umx (f : Fab) (s : Nat) (l : Bool) : (f.raise s l).umx = f.umx := rfl
@[simp] theorem Fab.raise_dxw (f : Fab) (s : Nat) (l : Bool) : (f.raise s l).dxw = f.dxw := rfl
@[simp] theorem Fab.raise_tap (f : Fab) (s : Nat) (l : Bool) : (f.raise s l).tap = f.tap := rfl
@[simp] theorem Fab.raise_dimms (f : Fab) (s : Nat) (l : Bool) : (f.raise s l).dimms = f.dimms := rfl
@[simp] theorem Fab.raise_ref2x (f : Fab) (s : Nat) (l : Bool) : (f.raise s l).ref2x = f.ref2x := rfl
@[simp] theorem Fab.raise_once (f : Fab) (s : Nat) (l : Bool) : (f.raise s l).once = f.once := rfl
@[simp] theorem Fab.raise_clk (f : Fab) (s : Nat) (l : Bool) : (f.raise s l).clk = f.clk := rfl
@[simp] theorem Fab.raise_tbOff (f : Fab) (s : Nat) (l : Bool) : (f.raise s l).tbOff = f.tbOff := rfl
@[simp] theorem Fab.raise_out (f : Fab) (s : Nat) (l : Bool) : (f.raise s l).out = f.out := rfl
@[simp] theorem Fab.raise_fresh (f : Fab) (s : Nat) (l : Bool) : (f.raise s l).fresh = f.fresh := rfl
@[simp] theorem Fab.raise_reg (f : Fab) (s : Nat) (l : Bool) (b : Nat) : (f.raise s l).reg b = f.reg b := rfl
@[simp] theorem Fab.raise_get (f : Fab) (s : Nat) (l : Bool) (y : Fld) : (f.raise s l).get y = f.get y := rfl
@[simp] theorem Fab.raise_bit (f : Fab) (s : Nat) (l : Bool) (y : Fld) : (f.raise s l).bit y = f.bit y := rfl
@[simp] theorem Fab.raise_engine (f : Fab) (s : Nat) (l : Bool) (i : Nat) : (f.raise s l).engine i = f.engine i := rfl
@[simp] theorem Fab.raise_share (f : Fab) (s : Nat) (l : Bool) (i : Nat) : (f.raise s l).share i = f.share i := rfl
@[simp] theorem Fab.raise_port (f : Fab) (s : Nat) (l : Bool) (i : Nat) : (f.raise s l).port i = f.port i := rfl
@[simp] theorem Fab.raise_ch (f : Fab) (s : Nat) (l : Bool) (i : Nat) : (f.raise s l).ch i = f.ch i := rfl
@[simp] theorem Fab.raise_unitPart (f : Fab) (s : Nat) (l : Bool) (u : Nat) : (f.raise s l).unitPart u = f.unitPart u := rfl
@[simp] theorem Fab.raise_granPart (f : Fab) (s : Nat) (l : Bool) (y : Nat) : (f.raise s l).granPart y = f.granPart y := rfl
@[simp] theorem Fab.raise_engPart (f : Fab) (s : Nat) (l : Bool) (u : Nat) : (f.raise s l).engPart u = f.engPart u := rfl
@[simp] theorem Fab.raise_activeIn (f : Fab) (s : Nat) (l : Bool) (y z : Nat) : (f.raise s l).activeIn y z = f.activeIn y z := rfl
@[simp] theorem Fab.raise_st (f : Fab) (s : Nat) (l : Bool) (y : Nat) : (f.raise s l).st y = f.st y := rfl
@[simp] theorem Fab.raise_barrierMode (f : Fab) (s : Nat) (l : Bool) (y : Nat) : (f.raise s l).barrierMode y = f.barrierMode y := rfl
@[simp] theorem Fab.raise_isRoot (f : Fab) (s : Nat) (l : Bool) (y : Nat) : (f.raise s l).isRoot y = f.isRoot y := rfl
@[simp] theorem Fab.raise_children (f : Fab) (s : Nat) (l : Bool) (y : Nat) : (f.raise s l).children y = f.children y := rfl
@[simp] theorem Fab.raise_portActive (f : Fab) (s : Nat) (l : Bool) (y : Nat) : (f.raise s l).portActive y = f.portActive y := rfl
@[simp] theorem Fab.raise_portOf (f : Fab) (s : Nat) (l : Bool) (y : Nat) : (f.raise s l).portOf y = f.portOf y := rfl

/-! ### ECS registers of an engine -/

@[simp] theorem Engine.setEcsReg_a (e : Engine) (i : Nat) (v : Word) : (e.setEcsReg i v).a = e.a := rfl
@[simp] theorem Engine.setEcsReg_n (e : Engine) (i : Nat) (v : Word) : (e.setEcsReg i v).n = e.n := rfl
@[simp] theorem Engine.setEcsReg_acc (e : Engine) (i : Nat) (v : Word) : (e.setEcsReg i v).acc = e.acc := rfl
@[simp] theorem Engine.setEcsReg_p (e : Engine) (i : Nat) (v : Word) : (e.setEcsReg i v).p = e.p := rfl
@[simp] theorem Engine.setEcsReg_x (e : Engine) (i : Nat) (v : Word) : (e.setEcsReg i v).x = e.x := rfl
@[simp] theorem Engine.setEcsReg_inc (e : Engine) (i : Nat) (v : Word) : (e.setEcsReg i v).inc = e.inc := rfl
@[simp] theorem Engine.setEcsReg_k (e : Engine) (i : Nat) (v : Word) : (e.setEcsReg i v).k = e.k := rfl
@[simp] theorem Engine.setEcsReg_loops (e : Engine) (i : Nat) (v : Word) : (e.setEcsReg i v).loops = e.loops := rfl
@[simp] theorem Engine.setEcsReg_shA (e : Engine) (i : Nat) (v : Word) : (e.setEcsReg i v).shA = e.shA := rfl
@[simp] theorem Engine.setEcsReg_shP (e : Engine) (i : Nat) (v : Word) : (e.setEcsReg i v).shP = e.shP := rfl
@[simp] theorem Engine.setEcsReg_shL (e : Engine) (i : Nat) (v : Word) : (e.setEcsReg i v).shL = e.shL := rfl
@[simp] theorem Engine.setEcsReg_ql (e : Engine) (i : Nat) (v : Word) : (e.setEcsReg i v).ql = e.ql := rfl
@[simp] theorem Engine.setEcsReg_quince (e : Engine) (i : Nat) (v : Word) : (e.setEcsReg i v).quince = e.quince := rfl
@[simp] theorem Engine.setEcsReg_parked (e : Engine) (i : Nat) (v : Word) : (e.setEcsReg i v).parked = e.parked := rfl
@[simp] theorem Engine.setEcsReg_far (e : Engine) (i : Nat) (v : Word) : (e.setEcsReg i v).far = e.far := rfl
@[simp] theorem Engine.setEcsReg_pend (e : Engine) (i : Nat) (v : Word) : (e.setEcsReg i v).pend = e.pend := rfl
@[simp] theorem Engine.setEcsReg_ecsPend (e : Engine) (i : Nat) (v : Word) : (e.setEcsReg i v).ecsPend = e.ecsPend := rfl
@[simp] theorem Engine.setEcsReg_imPend (e : Engine) (i : Nat) (v : Word) : (e.setEcsReg i v).imPend = e.imPend := rfl
@[simp] theorem Engine.setEcsReg_pmHost (e : Engine) (i : Nat) (v : Word) : (e.setEcsReg i v).pmHost = e.pmHost := rfl
@[simp] theorem Engine.setEcsReg_loopBase (e : Engine) (i : Nat) (v : Word) : (e.setEcsReg i v).loopBase = e.loopBase := rfl
@[simp] theorem Engine.setEcsReg_loopEvs (e : Engine) (i : Nat) (v : Word) : (e.setEcsReg i v).loopEvs = e.loopEvs := rfl
@[simp] theorem Engine.setEcsReg_rc (e : Engine) (i : Nat) (v : Word) : (e.setEcsReg i v).rc = e.rc := rfl
@[simp] theorem Engine.setEcsReg_rcOld (e : Engine) (i : Nat) (v : Word) : (e.setEcsReg i v).rcOld = e.rcOld := rfl
@[simp] theorem Engine.setEcsReg_btb (e : Engine) (i : Nat) (v : Word) : (e.setEcsReg i v).btb = e.btb := rfl
@[simp] theorem Engine.setEcsReg_btbPtr (e : Engine) (i : Nat) (v : Word) : (e.setEcsReg i v).btbPtr = e.btbPtr := rfl
@[simp] theorem Engine.setEcsReg_written (e : Engine) (i : Nat) (v : Word) : (e.setEcsReg i v).written = e.written := rfl
@[simp] theorem Engine.setEcsReg_phase (e : Engine) (i : Nat) (v : Word) : (e.setEcsReg i v).phase = e.phase := rfl
@[simp] theorem Engine.setEcsReg_halted (e : Engine) (i : Nat) (v : Word) : (e.setEcsReg i v).halted = e.halted := rfl
@[simp] theorem Engine.setEcsReg_haltReq (e : Engine) (i : Nat) (v : Word) : (e.setEcsReg i v).haltReq = e.haltReq := rfl
@[simp] theorem Engine.setEcsReg_brkSkip (e : Engine) (i : Nat) (v : Word) : (e.setEcsReg i v).brkSkip = e.brkSkip := rfl
@[simp] theorem Engine.setEcsReg_wcn (e : Engine) (i : Nat) (v : Word) : (e.setEcsReg i v).wcn = e.wcn := rfl
@[simp] theorem Engine.setEcsReg_stepReq (e : Engine) (i : Nat) (v : Word) : (e.setEcsReg i v).stepReq = e.stepReq := rfl
@[simp] theorem Engine.setEcsReg_pc (e : Engine) (i : Nat) (v : Word) : (e.setEcsReg i v).pc = e.pc := rfl
@[simp] theorem Engine.setEcsReg_fetchAt (e : Engine) (i : Nat) (v : Word) : (e.setEcsReg i v).fetchAt = e.fetchAt := rfl
@[simp] theorem Engine.setEcsReg_issueAt (e : Engine) (i : Nat) (v : Word) : (e.setEcsReg i v).issueAt = e.issueAt := rfl
@[simp] theorem Engine.setEcsReg_lastT (e : Engine) (i : Nat) (v : Word) : (e.setEcsReg i v).lastT = e.lastT := rfl
@[simp] theorem Engine.setEcsReg_seq (e : Engine) (i : Nat) (v : Word) : (e.setEcsReg i v).seq = e.seq := rfl
@[simp] theorem Engine.setEcsReg_imBusy (e : Engine) (i : Nat) (v : Word) : (e.setEcsReg i v).imBusy = e.imBusy := rfl
@[simp] theorem Engine.setEcsReg_first (e : Engine) (i : Nat) (v : Word) : (e.setEcsReg i v).first = e.first := rfl
@[simp] theorem Engine.setEcsReg_trap (e : Engine) (i : Nat) (v : Word) : (e.setEcsReg i v).trap = e.trap := rfl
@[simp] theorem Engine.setEcsReg_derr (e : Engine) (i : Nat) (v : Word) : (e.setEcsReg i v).derr = e.derr := rfl
@[simp] theorem Engine.setEcsReg_retWait (e : Engine) (i : Nat) (v : Word) : (e.setEcsReg i v).retWait = e.retWait := rfl
@[simp] theorem Engine.setEcsReg_rteAt (e : Engine) (i : Nat) (v : Word) : (e.setEcsReg i v).rteAt = e.rteAt := rfl
@[simp] theorem Engine.setEcsReg_portA (e : Engine) (i : Nat) (v : Word) : (e.setEcsReg i v).portA = e.portA := rfl
@[simp] theorem Engine.setEcsReg_relPriv (e : Engine) (i : Nat) (v : Word) : (e.setEcsReg i v).relPriv = e.relPriv := rfl
@[simp] theorem Engine.setEcsReg_relIe (e : Engine) (i : Nat) (v : Word) : (e.setEcsReg i v).relIe = e.relIe := rfl
@[simp] theorem Engine.setEcsReg_bnd (e : Engine) (i : Nat) (v : Word) : (e.setEcsReg i v).bnd = e.bnd := rfl
@[simp] theorem Engine.setEcsReg_cntT (e : Engine) (i : Nat) (v : Word) : (e.setEcsReg i v).cntT = e.cntT := rfl
@[simp] theorem Engine.setEcsReg_perfDue (e : Engine) (i : Nat) (v : Word) : (e.setEcsReg i v).perfDue = e.perfDue := rfl
@[simp] theorem Engine.setEcsReg_setRec (e : Engine) (i : Nat) (v : Word) : (e.setEcsReg i v).setRec = e.setRec := rfl
@[simp] theorem Engine.setEcsReg_nextSt (e : Engine) (i : Nat) (v : Word) : (e.setEcsReg i v).nextSt = e.nextSt := rfl
@[simp] theorem Engine.setEcsReg_pendAt (e : Engine) (i : Nat) (v : Word) : (e.setEcsReg i v).pendAt = e.pendAt := rfl
@[simp] theorem Engine.set_a (e : Engine) (x : Fld) (v : Nat) : (e.set x v).a = e.a := rfl
@[simp] theorem Engine.set_n (e : Engine) (x : Fld) (v : Nat) : (e.set x v).n = e.n := rfl
@[simp] theorem Engine.set_acc (e : Engine) (x : Fld) (v : Nat) : (e.set x v).acc = e.acc := rfl
@[simp] theorem Engine.set_p (e : Engine) (x : Fld) (v : Nat) : (e.set x v).p = e.p := rfl
@[simp] theorem Engine.set_x (e : Engine) (x : Fld) (v : Nat) : (e.set x v).x = e.x := rfl
@[simp] theorem Engine.set_inc (e : Engine) (x : Fld) (v : Nat) : (e.set x v).inc = e.inc := rfl
@[simp] theorem Engine.set_k (e : Engine) (x : Fld) (v : Nat) : (e.set x v).k = e.k := rfl
@[simp] theorem Engine.set_loops (e : Engine) (x : Fld) (v : Nat) : (e.set x v).loops = e.loops := rfl
@[simp] theorem Engine.set_shA (e : Engine) (x : Fld) (v : Nat) : (e.set x v).shA = e.shA := rfl
@[simp] theorem Engine.set_shP (e : Engine) (x : Fld) (v : Nat) : (e.set x v).shP = e.shP := rfl
@[simp] theorem Engine.set_shL (e : Engine) (x : Fld) (v : Nat) : (e.set x v).shL = e.shL := rfl
@[simp] theorem Engine.set_ql (e : Engine) (x : Fld) (v : Nat) : (e.set x v).ql = e.ql := rfl
@[simp] theorem Engine.set_quince (e : Engine) (x : Fld) (v : Nat) : (e.set x v).quince = e.quince := rfl
@[simp] theorem Engine.set_parked (e : Engine) (x : Fld) (v : Nat) : (e.set x v).parked = e.parked := rfl
@[simp] theorem Engine.set_far (e : Engine) (x : Fld) (v : Nat) : (e.set x v).far = e.far := rfl
@[simp] theorem Engine.set_pend (e : Engine) (x : Fld) (v : Nat) : (e.set x v).pend = e.pend := rfl
@[simp] theorem Engine.set_ecsPend (e : Engine) (x : Fld) (v : Nat) : (e.set x v).ecsPend = e.ecsPend := rfl
@[simp] theorem Engine.set_imPend (e : Engine) (x : Fld) (v : Nat) : (e.set x v).imPend = e.imPend := rfl
@[simp] theorem Engine.set_pmHost (e : Engine) (x : Fld) (v : Nat) : (e.set x v).pmHost = e.pmHost := rfl
@[simp] theorem Engine.set_loopBase (e : Engine) (x : Fld) (v : Nat) : (e.set x v).loopBase = e.loopBase := rfl
@[simp] theorem Engine.set_loopEvs (e : Engine) (x : Fld) (v : Nat) : (e.set x v).loopEvs = e.loopEvs := rfl
@[simp] theorem Engine.set_rc (e : Engine) (x : Fld) (v : Nat) : (e.set x v).rc = e.rc := rfl
@[simp] theorem Engine.set_rcOld (e : Engine) (x : Fld) (v : Nat) : (e.set x v).rcOld = e.rcOld := rfl
@[simp] theorem Engine.set_btb (e : Engine) (x : Fld) (v : Nat) : (e.set x v).btb = e.btb := rfl
@[simp] theorem Engine.set_btbPtr (e : Engine) (x : Fld) (v : Nat) : (e.set x v).btbPtr = e.btbPtr := rfl
@[simp] theorem Engine.set_written (e : Engine) (x : Fld) (v : Nat) : (e.set x v).written = e.written := rfl
@[simp] theorem Engine.set_phase (e : Engine) (x : Fld) (v : Nat) : (e.set x v).phase = e.phase := rfl
@[simp] theorem Engine.set_halted (e : Engine) (x : Fld) (v : Nat) : (e.set x v).halted = e.halted := rfl
@[simp] theorem Engine.set_haltReq (e : Engine) (x : Fld) (v : Nat) : (e.set x v).haltReq = e.haltReq := rfl
@[simp] theorem Engine.set_brkSkip (e : Engine) (x : Fld) (v : Nat) : (e.set x v).brkSkip = e.brkSkip := rfl
@[simp] theorem Engine.set_wcn (e : Engine) (x : Fld) (v : Nat) : (e.set x v).wcn = e.wcn := rfl
@[simp] theorem Engine.set_stepReq (e : Engine) (x : Fld) (v : Nat) : (e.set x v).stepReq = e.stepReq := rfl
@[simp] theorem Engine.set_pc (e : Engine) (x : Fld) (v : Nat) : (e.set x v).pc = e.pc := rfl
@[simp] theorem Engine.set_fetchAt (e : Engine) (x : Fld) (v : Nat) : (e.set x v).fetchAt = e.fetchAt := rfl
@[simp] theorem Engine.set_issueAt (e : Engine) (x : Fld) (v : Nat) : (e.set x v).issueAt = e.issueAt := rfl
@[simp] theorem Engine.set_lastT (e : Engine) (x : Fld) (v : Nat) : (e.set x v).lastT = e.lastT := rfl
@[simp] theorem Engine.set_seq (e : Engine) (x : Fld) (v : Nat) : (e.set x v).seq = e.seq := rfl
@[simp] theorem Engine.set_imBusy (e : Engine) (x : Fld) (v : Nat) : (e.set x v).imBusy = e.imBusy := rfl
@[simp] theorem Engine.set_first (e : Engine) (x : Fld) (v : Nat) : (e.set x v).first = e.first := rfl
@[simp] theorem Engine.set_trap (e : Engine) (x : Fld) (v : Nat) : (e.set x v).trap = e.trap := rfl
@[simp] theorem Engine.set_derr (e : Engine) (x : Fld) (v : Nat) : (e.set x v).derr = e.derr := rfl
@[simp] theorem Engine.set_retWait (e : Engine) (x : Fld) (v : Nat) : (e.set x v).retWait = e.retWait := rfl
@[simp] theorem Engine.set_rteAt (e : Engine) (x : Fld) (v : Nat) : (e.set x v).rteAt = e.rteAt := rfl
@[simp] theorem Engine.set_portA (e : Engine) (x : Fld) (v : Nat) : (e.set x v).portA = e.portA := rfl
@[simp] theorem Engine.set_relPriv (e : Engine) (x : Fld) (v : Nat) : (e.set x v).relPriv = e.relPriv := rfl
@[simp] theorem Engine.set_relIe (e : Engine) (x : Fld) (v : Nat) : (e.set x v).relIe = e.relIe := rfl
@[simp] theorem Engine.set_bnd (e : Engine) (x : Fld) (v : Nat) : (e.set x v).bnd = e.bnd := rfl
@[simp] theorem Engine.set_cntT (e : Engine) (x : Fld) (v : Nat) : (e.set x v).cntT = e.cntT := rfl
@[simp] theorem Engine.set_perfDue (e : Engine) (x : Fld) (v : Nat) : (e.set x v).perfDue = e.perfDue := rfl
@[simp] theorem Engine.set_setRec (e : Engine) (x : Fld) (v : Nat) : (e.set x v).setRec = e.setRec := rfl
@[simp] theorem Engine.set_nextSt (e : Engine) (x : Fld) (v : Nat) : (e.set x v).nextSt = e.nextSt := rfl
@[simp] theorem Engine.set_pendAt (e : Engine) (x : Fld) (v : Nat) : (e.set x v).pendAt = e.pendAt := rfl

end Sys2Proof.Machine
end

