-- ==== Sys2Proof/Laws/Reg.lean ====
section
/-! SUPPORT. Laws of registers and their fields: what a read gives after a write of the same place and of another. -/

namespace Sys2Proof.Machine

/-! ### Bits of numbers -/

theorem natBits_lt (n lo w : Nat) : natBits n lo w < 2 ^ w := Nat.mod_lt _ (Nat.two_pow_pos w)

theorem natBits_eq (n lo w : Nat) : natBits n lo w = n / 2 ^ lo % 2 ^ w := by rw [natBits, Nat.shiftRight_eq_div_pow]

theorem natSetBits_eq (n lo w v : Nat) :
    natSetBits n lo w v = n / 2 ^ (lo + w) * 2 ^ (lo + w) + v % 2 ^ w * 2 ^ lo + n % 2 ^ lo := by
  rw [natSetBits, Nat.shiftRight_eq_div_pow, Nat.shiftLeft_eq, Nat.shiftLeft_eq]

/-- Bit `i` of a field. -/
theorem testBit_natBits (n lo w i : Nat) : (natBits n lo w).testBit i = (decide (i < w) && n.testBit (lo + i)) := by
  rw [natBits, Nat.testBit_mod_two_pow, Nat.testBit_shiftRight]

/-- Bit `i` of a number with a field replaced. -/
theorem testBit_natSetBits (n lo w v i : Nat) :
    (natSetBits n lo w v).testBit i = if lo ≤ i ∧ i < lo + w then v.testBit (i - lo) else n.testBit i := by
  have low : n % 2 ^ lo < 2 ^ lo := Nat.mod_lt _ (Nat.two_pow_pos lo)
  have mid : v % 2 ^ w < 2 ^ w := Nat.mod_lt _ (Nat.two_pow_pos w)
  have e : natSetBits n lo w v = 2 ^ (lo + w) * (n / 2 ^ (lo + w)) + (2 ^ lo * (v % 2 ^ w) + n % 2 ^ lo) := by
    rw [natSetBits_eq, Nat.mul_comm (n / 2 ^ (lo + w)), Nat.mul_comm (v % 2 ^ w)]; omega
  have hb : 2 ^ lo * (v % 2 ^ w) + n % 2 ^ lo < 2 ^ (lo + w) := by
    rw [Nat.pow_add]
    calc 2 ^ lo * (v % 2 ^ w) + n % 2 ^ lo < 2 ^ lo * (v % 2 ^ w) + 2 ^ lo := by omega
      _ = 2 ^ lo * (v % 2 ^ w + 1) := by rw [Nat.mul_add, Nat.mul_one]
      _ ≤ 2 ^ lo * 2 ^ w := Nat.mul_le_mul_left _ mid
  rw [e, Nat.testBit_two_pow_mul_add _ hb]
  by_cases h1 : i < lo + w
  · rw [if_pos h1, Nat.testBit_two_pow_mul_add _ low]
    by_cases h2 : i < lo
    · rw [if_pos h2, Nat.testBit_mod_two_pow, if_neg (by omega)]; simp [h2]
    · rw [if_neg h2, Nat.testBit_mod_two_pow, if_pos (by omega)]; simp; omega
  · rw [if_neg h1, Nat.testBit_div_two_pow, if_neg (by omega), Nat.sub_add_cancel (by omega)]

theorem natBits_natSetBits_same (n lo w v : Nat) : natBits (natSetBits n lo w v) lo w = v % 2 ^ w := by
  apply Nat.eq_of_testBit_eq
  intro i
  rw [testBit_natBits, testBit_natSetBits, Nat.testBit_mod_two_pow]
  by_cases h : i < w
  · rw [if_pos (by omega), Nat.add_sub_cancel_left]
  · simp [h]

theorem natBits_natSetBits_ne (n lo w v lo' w' : Nat) (h : lo' + w' ≤ lo ∨ lo + w ≤ lo') :
    natBits (natSetBits n lo w v) lo' w' = natBits n lo' w' := by
  apply Nat.eq_of_testBit_eq
  intro i
  rw [testBit_natBits, testBit_natBits, testBit_natSetBits]
  by_cases hi : i < w'
  · rw [if_neg (by omega)]
  · simp [hi]

/-- A field that lies within the register survives the register's width. -/
theorem natBits_mod (n lo w k : Nat) (h : lo + w ≤ k) : natBits (n % 2 ^ k) lo w = natBits n lo w := by
  apply Nat.eq_of_testBit_eq
  intro i
  rw [testBit_natBits, testBit_natBits, Nat.testBit_mod_two_pow]
  by_cases hi : i < w
  · simp [show lo + i < k by omega]
  · simp [hi]

/-! ### Fields of a register -/

theorem fget_lt (r : Word) (lo w : Nat) : fget r lo w < 2 ^ w := natBits_lt _ _ _

theorem fget_fset_same (r : Word) (lo w v : Nat) (h : lo + w ≤ 64) : fget (fset r lo w v) lo w = v % 2 ^ w := by
  rw [fget, fset, BitVec.toNat_ofNat, natBits_mod _ _ _ _ h, natBits_natSetBits_same]

theorem fget_fset_ne (r : Word) (lo w v lo' w' : Nat) (h' : lo' + w' ≤ 64) (h : lo' + w' ≤ lo ∨ lo + w ≤ lo') :
    fget (fset r lo w v) lo' w' = fget r lo' w' := by
  rw [fget, fset, BitVec.toNat_ofNat, natBits_mod _ _ _ _ h', natBits_natSetBits_ne _ _ _ _ _ _ h, fget]

/-! ### Device registers -/

@[simp] theorem Fab.reg_setReg_same (f : Fab) (a : Nat) (v : Word) : (f.setReg a v).reg a = v := by
  simp [Fab.reg, Fab.setReg]

theorem Fab.reg_setReg_ne (f : Fab) {a b : Nat} (v : Word) (h : b ≠ a) : (f.setReg a v).reg b = f.reg b := by
  simp only [Fab.reg, Fab.setReg]
  exact Store.get_set_ne _ _ _ _ h

theorem Fab.reg_set_ne (f : Fab) (x : Fld) (v : Nat) {b : Nat} (h : b ≠ x.addr) : (f.set x v).reg b = f.reg b :=
  f.reg_setReg_ne _ h

/-- A field written reads back. -/
theorem Fab.get_set_same (f : Fab) (x : Fld) (v : Nat) (h : x.lo + x.w ≤ 64) : (f.set x v).get x = v % 2 ^ x.w := by
  simp only [Fab.get, Fab.set, Fab.reg_setReg_same]
  exact fget_fset_same _ _ _ _ h

/-- A field written leaves every other field alone. -/
theorem Fab.get_set_ne (f : Fab) (x y : Fld) (v : Nat) (hy : y.lo + y.w ≤ 64)
    (h : y.addr ≠ x.addr ∨ y.lo + y.w ≤ x.lo ∨ x.lo + x.w ≤ y.lo) : (f.set x v).get y = f.get y := by
  by_cases ha : y.addr = x.addr
  · have h := h.resolve_left (fun n => n ha)
    simp only [Fab.get, Fab.set, ha, Fab.reg_setReg_same]
    exact fget_fset_ne _ _ _ _ _ _ hy h
  · simp only [Fab.get]
    rw [f.reg_set_ne x v ha]

theorem Fab.get_setReg_ne (f : Fab) (a : Nat) (v : Word) (y : Fld) (h : y.addr ≠ a) : (f.setReg a v).get y = f.get y := by
  simp only [Fab.get]
  rw [f.reg_setReg_ne v h]

theorem Fab.get_lt (f : Fab) (x : Fld) : f.get x < 2 ^ x.w := fget_lt _ _ _

/-! ### Parts held by number -/

@[simp] theorem Fab.engine_setEng_same (f : Fab) (e : Nat) (v : Engine) : (f.setEng e v).engine e = v := by
  simp [Fab.engine, Fab.setEng]

theorem Fab.engine_setEng_ne (f : Fab) {e i : Nat} (v : Engine) (h : i ≠ e) : (f.setEng e v).engine i = f.engine i := by
  simp only [Fab.engine, Fab.setEng]
  exact Store.get_set_ne _ _ _ _ h

@[simp] theorem Fab.engine_updEng_same (f : Fab) (e : Nat) (g : Engine → Engine) : (f.updEng e g).engine e = g (f.engine e) := by
  simp [Fab.updEng]

theorem Fab.engine_updEng_ne (f : Fab) {e i : Nat} (g : Engine → Engine) (h : i ≠ e) :
    (f.updEng e g).engine i = f.engine i := f.engine_setEng_ne _ h

@[simp] theorem Fab.share_setSh_same (f : Fab) (p : Nat) (v : Share) : (f.setSh p v).share p = v := by
  simp [Fab.share, Fab.setSh]

theorem Fab.share_setSh_ne (f : Fab) {p q : Nat} (v : Share) (h : q ≠ p) : (f.setSh p v).share q = f.share q := by
  simp only [Fab.share, Fab.setSh]
  exact Store.get_set_ne _ _ _ _ h

@[simp] theorem Fab.share_updSh_same (f : Fab) (p : Nat) (g : Share → Share) : (f.updSh p g).share p = g (f.share p) := by
  simp [Fab.updSh]

theorem Fab.share_updSh_ne (f : Fab) {p q : Nat} (g : Share → Share) (h : q ≠ p) : (f.updSh p g).share q = f.share q :=
  f.share_setSh_ne _ h

@[simp] theorem Fab.port_updPort_same (f : Fab) (c : Nat) (g : LinkP → LinkP) : (f.updPort c g).port c = g (f.port c) := by
  simp [Fab.port, Fab.updPort]

theorem Fab.port_updPort_ne (f : Fab) {c i : Nat} (g : LinkP → LinkP) (h : i ≠ c) : (f.updPort c g).port i = f.port i := by
  simp only [Fab.port, Fab.updPort]
  exact Store.get_set_ne _ _ _ _ h

@[simp] theorem Fab.ch_updCh_same (f : Fab) (k : Nat) (g : DmaCh → DmaCh) : (f.updCh k g).ch k = g (f.ch k) := by
  simp [Fab.ch, Fab.updCh]

theorem Fab.ch_updCh_ne (f : Fab) {k i : Nat} (g : DmaCh → DmaCh) (h : i ≠ k) : (f.updCh k g).ch i = f.ch i := by
  simp only [Fab.ch, Fab.updCh]
  exact Store.get_set_ne _ _ _ _ h

/-! ### ECS registers of an engine -/

@[simp] theorem Engine.ecsReg_setEcsReg_same (e : Engine) (i : Nat) (v : Word) : (e.setEcsReg i v).ecsReg i = v := by
  simp [Engine.ecsReg, Engine.setEcsReg]

theorem Engine.ecsReg_setEcsReg_ne (e : Engine) {i j : Nat} (v : Word) (h : j ≠ i) : (e.setEcsReg i v).ecsReg j = e.ecsReg j := by
  simp only [Engine.ecsReg, Engine.setEcsReg]
  exact Store.get_set_ne _ _ _ _ h

theorem Engine.get_set_same (e : Engine) (x : Fld) (v : Nat) (h : x.lo + x.w ≤ 64) : (e.set x v).get x = v % 2 ^ x.w := by
  simp only [Engine.get, Engine.set, Engine.ecsReg_setEcsReg_same]
  exact fget_fset_same _ _ _ _ h

theorem Engine.get_set_ne (e : Engine) (x y : Fld) (v : Nat) (hy : y.lo + y.w ≤ 64)
    (h : y.addr ≠ x.addr ∨ y.lo + y.w ≤ x.lo ∨ x.lo + x.w ≤ y.lo) : (e.set x v).get y = e.get y := by
  by_cases ha : y.addr = x.addr
  · have h := h.resolve_left (fun n => n ha)
    simp only [Engine.get, Engine.set, ha, Engine.ecsReg_setEcsReg_same]
    exact fget_fset_ne _ _ _ _ _ _ hy h
  · simp only [Engine.get, Engine.set]
    rw [e.ecsReg_setEcsReg_ne _ ha]

end Sys2Proof.Machine
end

