-- ==== Sys2Proof/Safety.lean ====
section
/-! DEFINITION. What claims about runs of the block speak of: the form that memory keeps, and the commands that a state will
carry out. -/

namespace Sys2Proof.Machine

/-- Memory and the device registers are in canonical form (keys strictly rising, no entry at the value that an unlisted key reads
as), so that equal contents are equal data. -/
def Fab.Ok (f : Fab) : Prop := Memory.wf f.mem = true ∧ Store.wf regReset f.regs = true

/-- The invariant of the block. -/
def State.Inv (s : State) : Prop := s.fab.Ok

/-- Is every command that waits one that the block has? -/
def State.accepts (s : State) : Bool := s.pending.all Instr.wf

/-- A command answers a next state, with the queue as it stands and a fabric that has the property `P`. -/
def Answers (c : Instr) (s : State) (P : Fab → Prop) : Prop := ∃ t, exec c s = .next t ∧ t.pending = s.pending ∧ P t.fab

/-- A command answers the next state whose fabric is `f`, with the queue as it stands. -/
def Becomes (c : Instr) (s : State) (f : Fab) : Prop := exec c s = .next { s with fab := f }

/-- A command changes device registers at the addresses of `l` and nothing else. -/
def OnlyRegs (l : List Nat) (f g : Fab) : Prop := { g with regs := f.regs } = f ∧ ∀ a, a ∉ l → g.reg a = f.reg a

/-- Every device register but those at the addresses of `l` reads as before. -/
def RegsBut (l : List Nat) (f g : Fab) : Prop := ∀ a, a ∉ l → g.reg a = f.reg a

/-- Memory with its code words and keys, engines, shares, DMA channels, mailboxes, power, management, the Damson core, metering
and debug are as before: a command of another unit keeps them. -/
def SameData (f g : Fab) : Prop :=
  g.mem = f.mem ∧ g.err = f.err ∧ g.key = f.key ∧ g.eng = f.eng ∧ g.sh = f.sh ∧ g.dma = f.dma ∧ g.mbx = f.mbx ∧
    g.pwr = f.pwr ∧ g.mgmt = f.mgmt ∧ g.dam = f.dam ∧ g.umx = f.umx ∧ g.dxw = f.dxw ∧ g.tap = f.tap

/-- Management firmware runs and finds request `r` of host port `n` at the head of its queue, with nothing that waits for wipes;
the requests behind it are `t`, of which the first has an opcode of the table. -/
def Fab.AtHead (f : Fab) (n r : Nat) (t : List (Nat × Nat × Bool)) : Prop :=
  f.mbx.queue = (n, r, false) :: t ∧ f.mbx.job = none ∧ f.fwUp = true ∧ ∀ x, t.head? = some x → rqKnown (rqOp x.2.1) = true

/-- Management firmware runs, and a monitor request `r` of opcode `op` waits at a source: at the head of the queue of the
mailboxes, from a port that accepted feature MONITOR and to which its partition is bound, or over UART0 while debug access is open.
`port` is the port whose partitions the request reaches, if it is limited to one. -/
def Fab.MonAsks (f : Fab) (src : MonSrc) (op r : Nat) (port : Option Nat) : Prop :=
  f.live = true ∧ f.fwUp = true ∧
    match src with
    | .mailbox n => n < 4 ∧ port = some n ∧ f.mbx.job = none ∧ (∃ t, f.mbx.queue = (n, r, false) :: t) ∧ rqOp r = op ∧
        f.accepted n 12 = true ∧ rqBits r 0 8 < 8 ∧ f.boundTo n (rqBits r 0 8) = true
    | .uart seq payload => port = none ∧ payload.length ≤ 1016 ∧ f.get Reg.DBG_STAT_OPEN = 1 ∧
        r = op + seq.toNat * 2 ^ 8 + payload.length * 2 ^ 16 + 2 ^ 64 * ofBytes (byteNums payload)

/-- The fabric once the resident monitor has answered request `r` of a source: the response stands in the mailbox, and unknown
requests behind it are answered too, or its frame leaves on UART0. -/
def Fab.monDone (f : Fab) (src : MonSrc) (op r status : Nat) (l : List Nat) : Fab :=
  match src with
  | .mailbox _ => (f.respond status (rqBits r 0 8) l).mbxDrain (f.respond status (rqBits r 0 8) l).mbx.queue.length
  | .uart seq _ => f.emit (.uart (uartFrame
      (toBytes (op + seq.toNat * 2 ^ 8 + status * 2 ^ 16 + rqBits r 0 8 * 2 ^ 24 + l.length * 2 ^ 32) 8 ++ l)))

/-- No DMA channel is at work: none has anything to do or a write without its response. -/
def Fab.DmaAtRest (f : Fab) : Prop := ∀ k, k < 32 → (f.ch k).stage = .none ∧ (f.ch k).wOut = []

/-- No DMA channel but `k` has a request that its engines may issue. -/
def Fab.DmaOthersIdle (f : Fab) (k : Nat) : Prop := ∀ j, j < 32 → j ≠ k → (f.ch j).stage ≠ .want ∧ (f.ch j).stage ≠ .run

/-- The line buffer of the Damson core serves the instruction at the PC, and no breakpoint matched it. -/
def Fab.DamFetched (f : Fab) : Prop :=
  damCached (0x0300000000 + f.dpc) = true ∧ ∃ x, f.dam.lbuf = some x ∧ x.line = (0x0300000000 + f.dpc) / 32 ∧
    x.brk.getLsbD ((0x0300000000 + f.dpc) / 4 % 8) = false

/-- The Damson core executes `op` at once, outside a delay slot: it runs, the line buffer holds the instruction, no load waits, no
status write is on its way, and no halt or divide in flight holds the instruction. -/
def Fab.DamReady (f : Fab) (op : DamOp) : Prop :=
  f.live = true ∧ f.dam.started = true ∧ f.dam.ld = none ∧ f.dam.slot = none ∧ f.dam.srq = [] ∧
    f.get Reg.DBG_DSTAT_HALTED = 0 ∧ f.dhalt = false ∧ f.DamFetched ∧ f.damHeld op = false ∧ damWf op = true

/-- A meaning answers a next state. -/
def Runs (c : Instr) (s : State) : Prop := ∃ t, exec c s = .next t

end Sys2Proof.Machine
end

