-- ==== Sys2Proof/Laws/Keep0.lean ====
section
/-! SUPPORT. What every operation keeps: the canonical form of memory and registers. One lemma for each operation. -/

namespace Sys2Proof.Machine

/-- A fabric whose memory and registers are those of another. -/
theorem Fab.ok_mk {f : Fab} (h : f.Ok) (x0) (x1) (x2) (x3) (x4) (x5) (x6) (x7) (x8) (x9) (x10) (x11) (x12) (x13) (x14) (x15) (x16) (x17) (x18) (x19) (x20) (x21) (x22) (x23) (x24) (x25) (x26) (x27) (x28) (x29) (x30) (x31) (x32) (x33) (x34) (x35) (x36) (x37) (x38) (x39) (x40) (x41) (x42) (x43) :
    (Fab.mk f.regs f.mem x0 x1 x2 x3 x4 x5 x6 x7 x8 x9 x10 x11 x12 x13 x14 x15 x16 x17 x18 x19 x20 x21 x22 x23 x24 x25 x26 x27 x28 x29 x30 x31 x32 x33 x34 x35 x36 x37 x38 x39 x40 x41 x42 x43).Ok := h

theorem Fab.ok_ite {c : Prop} [Decidable c] {f g : Fab} (hf : c → f.Ok) (hg : ¬c → g.Ok) : (if c then f else g).Ok := by
  split
  · exact hf ‹_›
  · exact hg ‹_›

theorem Fab.ok_foldl {α : Type} {l : List α} {g : Fab → α → Fab} {f : Fab} (hg : ∀ f a, f.Ok → (g f a).Ok) (h : f.Ok) :
    (l.foldl g f).Ok := by
  induction l generalizing f with
  | nil => exact h
  | cons a t ih => exact ih (hg f a h)

/-- A property of what a fold carries holds at its end. -/
theorem foldl_keeps {α β : Type} (P : β → Prop) {l : List α} {g : β → α → β} {b : β} (hg : ∀ b a, P b → P (g b a)) (h : P b) :
    P (l.foldl g b) := by
  induction l generalizing b with
  | nil => exact h
  | cons a t ih => exact ih (hg b a h)

theorem foldr_keeps {α β : Type} (P : β → Prop) {l : List α} {g : α → β → β} {b : β} (hg : ∀ b a, P b → P (g a b)) (h : P b) :
    P (l.foldr g b) := by
  induction l with
  | nil => exact h
  | cons a t ih => exact hg _ a ih

theorem Fab.ok_some {f : Fab} (h : f.Ok) : ∀ g, some f = some g → g.Ok := by
  intro g e; cases e; exact h

theorem Fab.ok_some1 {α : Type} {x : Fab × α} (h : x.1.Ok) : ∀ y, some x = some y → y.1.Ok := by
  intro g e; cases e; exact h

theorem Fab.ok_p1 {α : Type} {a : Fab} {b : α} (h : a.Ok) : (a, b).1.Ok := h

theorem Fab.ok_p2 {α : Type} {a : Fab} {b : α} (h : a.Ok) : (b, a).2.Ok := h

theorem Fab.ok_rd {a : Fab} {x y} (h : a.Ok) : (MemRd.mk x y a).fab.Ok := h

theorem Fab.ok_wr {a : Fab} {x} (h : a.Ok) : (MemWr.mk x a).fab.Ok := h

theorem Fab.ok_acc {a : Fab} {x y z w} (h : a.Ok) : (Acc.mk x y z w a).fab.Ok := h

theorem Fab.ok_ite1 {α : Type} {c : Prop} [Decidable c] {a b : Fab × α} (ha : c → a.1.Ok) (hb : ¬c → b.1.Ok) :
    (if c then a else b).1.Ok := by
  split
  · exact ha ‹_›
  · exact hb ‹_›

theorem Fab.ok_ite2 {α : Type} {c : Prop} [Decidable c] {a b : α × Fab} (ha : c → a.2.Ok) (hb : ¬c → b.2.Ok) :
    (if c then a else b).2.Ok := by
  split
  · exact ha ‹_›
  · exact hb ‹_›

theorem Fab.ok_iterd {c : Prop} [Decidable c] {a b : MemRd} (ha : c → a.fab.Ok) (hb : ¬c → b.fab.Ok) :
    (if c then a else b).fab.Ok := by
  split
  · exact ha ‹_›
  · exact hb ‹_›

theorem Fab.ok_itewr {c : Prop} [Decidable c] {a b : MemWr} (ha : c → a.fab.Ok) (hb : ¬c → b.fab.Ok) :
    (if c then a else b).fab.Ok := by
  split
  · exact ha ‹_›
  · exact hb ‹_›

theorem Fab.ok_iteacc {c : Prop} [Decidable c] {a b : Acc} (ha : c → a.fab.Ok) (hb : ¬c → b.fab.Ok) :
    (if c then a else b).fab.Ok := by
  split
  · exact ha ‹_›
  · exact hb ‹_›

theorem Fab.ok_p22 {α β : Type} {a : Fab} {b : α} {c : β} (h : a.Ok) : (b, c, a).2.2.Ok := h

theorem Fab.ok_ite22 {α β : Type} {c : Prop} [Decidable c] {a b : α × β × Fab} (ha : c → a.2.2.Ok) (hb : ¬c → b.2.2.Ok) :
    (if c then a else b).2.2.Ok := by
  split
  · exact ha ‹_›
  · exact hb ‹_›

theorem Fab.ok_run {a : Fab} {x1 x2 x3 x4 x5 x6 x7 x8 x9 x10} (h : a.Ok) :
    (Run.mk a x1 x2 x3 x4 x5 x6 x7 x8 x9 x10).fab.Ok := h

theorem Fab.ok_iterun {c : Prop} [Decidable c] {a b : Run} (ha : c → a.fab.Ok) (hb : ¬c → b.fab.Ok) :
    (if c then a else b).fab.Ok := by
  split
  · exact ha ‹_›
  · exact hb ‹_›

theorem Fab.ok_fx {a : Fab} {x1 x2 x3 x4 x5 x6 x7 x8 x9 x10} (h : a.Ok) :
    (Fetched.mk x1 x2 x3 x4 x5 x6 x7 x8 x9 x10 a).fab.Ok := h

theorem Fab.ok_df {a : Fab} {x1 x2 x3} (h : a.Ok) : (DamFetch.mk x1 x2 x3 a).fab.Ok := h

theorem Fab.ok_plan {a : Fab} {x1 x2 x3 x4 x5 x6 x7 x8 x9} (h : a.Ok) : (Plan.mk a x1 x2 x3 x4 x5 x6 x7 x8 x9).fab.Ok := h

theorem Fab.ok_pk {α β γ δ : Type} {a : Fab} {x1 : α} {x2 : β} {x3 : γ} {x4 : δ} (h : a.Ok) : (x1, x2, x3, x4, a).2.2.2.2.Ok := h

theorem Fab.ok_itek {α β γ δ : Type} {c : Prop} [Decidable c] {a b : α × β × γ × δ × Fab} (ha : c → a.2.2.2.2.Ok)
    (hb : ¬c → b.2.2.2.2.Ok) : (if c then a else b).2.2.2.2.Ok := by
  split
  · exact ha ‹_›
  · exact hb ‹_›

theorem Fab.ok_itefx {c : Prop} [Decidable c] {a b : Fetched} (ha : c → a.fab.Ok) (hb : ¬c → b.fab.Ok) :
    (if c then a else b).fab.Ok := by
  split
  · exact ha ‹_›
  · exact hb ‹_›

theorem Fab.ok_fst {α : Type} {x : Fab × α} {g : Fab} {b : α} (e : x = (g, b)) (h : x.1.Ok) : g.Ok := by
  subst e; exact h

theorem Fab.ok_snd {α : Type} {x : α × Fab} {g : Fab} {b : α} (e : x = (b, g)) (h : x.2.Ok) : g.Ok := by
  subst e; exact h

theorem Fab.ok_snd2 {α β : Type} {x : α × β × Fab} {g : Fab} {a : α} {b : β} (e : x = (a, b, g)) (h : x.2.2.Ok) : g.Ok := by
  subst e; exact h

theorem Fab.ok_snd4 {α β γ δ : Type} {x : α × β × γ × δ × Fab} {g : Fab} {a : α} {b : β} {c : γ} {d : δ}
    (e : x = (a, b, c, d, g)) (h : x.2.2.2.2.Ok) : g.Ok := by
  subst e; exact h

/-- Registers removed leave the rest in canonical form. -/
theorem Fab.ok_regs {f : Fab} (h : f.Ok) (p : Nat × Word → Bool) : ({ f with regs := f.regs.filter p } : Fab).Ok :=
  ⟨h.1, Store.wf_filter regReset _ p h.2⟩

end Sys2Proof.Machine
end

