-- ==== Sys2Proof/Laws/KeepOps.lean ====
section
/-! SUPPORT. What the operations of Machine/Ops.lean keep. -/

namespace Sys2Proof.Machine

theorem Fab.setReg_ok {f : Fab} (h : f.Ok) (a : Nat) (v : Word) : (f.setReg a v).Ok := by
  exact ⟨h.1, Store.wf_set regReset f.regs a v h.2⟩

theorem Fab.set_ok {f : Fab} (h : f.Ok) (x : Fld) (v : Nat) : (f.set x v).Ok := by
  unfold Fab.set
  repeat' first
    | with_reducible assumption | with_reducible apply Fab.setReg_ok | intro _

theorem Fab.stick_ok {f : Fab} (h : f.Ok) (x : Fld) (n : Nat) : (f.stick x n).Ok := by
  unfold Fab.stick
  repeat' first
    | with_reducible assumption | with_reducible apply Fab.set_ok | intro _

theorem Fab.setEng_ok {f : Fab} (h : f.Ok) (e : Nat) (v : Engine) : (f.setEng e v).Ok := by
  unfold Fab.setEng
  repeat' first
    | with_reducible assumption | with_reducible apply Fab.set_ok | intro _ | with_reducible apply Fab.ok_mk

theorem Fab.updEng_ok {f : Fab} (h : f.Ok) (e : Nat) (g : Engine → Engine) : (f.updEng e g).Ok := by
  unfold Fab.updEng
  repeat' first
    | with_reducible assumption | with_reducible apply Fab.setEng_ok | intro _

theorem Fab.setSh_ok {f : Fab} (h : f.Ok) (p : Nat) (v : Share) : (f.setSh p v).Ok := by
  unfold Fab.setSh
  repeat' first
    | with_reducible assumption | with_reducible apply Fab.set_ok | intro _ | with_reducible apply Fab.ok_mk

theorem Fab.updSh_ok {f : Fab} (h : f.Ok) (p : Nat) (g : Share → Share) : (f.updSh p g).Ok := by
  unfold Fab.updSh
  repeat' first
    | with_reducible assumption | with_reducible apply Fab.setSh_ok | intro _

theorem Fab.updPort_ok {f : Fab} (h : f.Ok) (c : Nat) (g : LinkP → LinkP) : (f.updPort c g).Ok := by
  unfold Fab.updPort
  repeat' first
    | with_reducible assumption | with_reducible apply Fab.set_ok | intro _ | with_reducible apply Fab.ok_mk

theorem Fab.updCh_ok {f : Fab} (h : f.Ok) (k : Nat) (g : DmaCh → DmaCh) : (f.updCh k g).Ok := by
  unfold Fab.updCh
  repeat' first
    | with_reducible assumption | with_reducible apply Fab.set_ok | intro _ | with_reducible apply Fab.ok_mk

theorem Fab.free_ok {f : Fab} (h : f.Ok) (w : Nat) : (f.free w).2.Ok := by
  unfold Fab.free
  repeat' first
    | with_reducible assumption | intro _ | with_reducible apply Fab.ok_mk

theorem Fab.raise_ok {f : Fab} (h : f.Ok) (src : Nat) (lvl : Bool) : (f.raise src lvl).Ok := by
  unfold Fab.raise
  repeat' first
    | with_reducible assumption | intro _ | with_reducible apply Fab.ok_mk

theorem Fab.emit_ok {f : Fab} (h : f.Ok) (o : Output) : (f.emit o).Ok := by
  unfold Fab.emit
  repeat' first
    | with_reducible assumption | intro _ | with_reducible apply Fab.ok_mk

theorem Fab.sendMsix_ok {f : Fab} (h : f.Ok) (n : Nat) (s : Nat) : (f.sendMsix n s).Ok := by
  unfold Fab.sendMsix
  repeat' first
    | with_reducible assumption | with_reducible apply Fab.ok_ite | with_reducible apply Fab.emit_ok | intro _ | split
    | with_reducible apply Fab.ok_mk

theorem Fab.dropMsix_ok {f : Fab} (h : f.Ok) (n : Nat) (s : Nat) : (f.dropMsix n s).Ok := by
  unfold Fab.dropMsix
  repeat' first
    | with_reducible assumption | intro _ | with_reducible apply Fab.ok_mk

theorem Fab.clocked_ok {f : Fab} (h : f.Ok) (e : Nat) (g : Fab → Fab) (hg : ∀ f : Fab, f.Ok → (g f).Ok) :
    (f.clocked e g).Ok := by
  unfold Fab.clocked
  repeat' first
    | with_reducible assumption | with_reducible apply hg | with_reducible apply Fab.ok_ite | intro _ | split

theorem Fab.whenActive_ok {f : Fab} (h : f.Ok) (g : Fab → Fab) (hg : ∀ f : Fab, f.Ok → (g f).Ok) : (f.whenActive g).Ok := by
  unfold Fab.whenActive
  repeat' first
    | with_reducible assumption | with_reducible apply hg | with_reducible apply Fab.ok_ite | intro _ | split

theorem Fab.whenLive_ok {f : Fab} (h : f.Ok) (g : Fab → Fab) (hg : ∀ f : Fab, f.Ok → (g f).Ok) : (f.whenLive g).Ok := by
  unfold Fab.whenLive
  repeat' first
    | with_reducible assumption | with_reducible apply hg | with_reducible apply Fab.ok_ite | intro _ | split

theorem Fab.setTb_ok {f : Fab} (h : f.Ok) (v : Nat) : (f.setTb v).Ok := by
  unfold Fab.setTb
  repeat' first
    | with_reducible assumption | intro _ | with_reducible apply Fab.ok_mk

theorem Fab.seenTb_ok {f : Fab} (h : f.Ok) (t : Nat) : (f.seenTb t).Ok := by
  unfold Fab.seenTb
  repeat' first
    | with_reducible assumption | intro _ | with_reducible apply Fab.ok_mk

theorem Fab.seen_ok {f : Fab} (h : f.Ok) (p : Nat) (b : Nat) : (f.seen p b).Ok := by
  unfold Fab.seen
  repeat' first
    | with_reducible assumption | intro _ | with_reducible apply Fab.ok_mk

theorem Fab.noteCe_ok {f : Fab} (h : f.Ok) (src : Nat) (wa : Nat) (r : WordRd) : (f.noteCe src wa r).Ok := by
  unfold Fab.noteCe
  repeat' first
    | with_reducible assumption | with_reducible apply Fab.ok_ite | with_reducible apply Fab.set_ok
    | with_reducible apply Fab.stick_ok | intro _ | split | with_reducible apply Fab.ok_mk

theorem Fab.logUe_ok {f : Fab} (h : f.Ok) (src : Nat) (wa : Nat) (syn : Nat) (dstate : Bool) (partialW : Bool) (dcn : Nat) :
    (f.logUe src wa syn dstate partialW dcn).Ok := by
  unfold Fab.logUe
  repeat' first
    | with_reducible assumption | with_reducible apply Fab.ok_ite | with_reducible apply Fab.set_ok | intro _ | split

theorem Fab.countUe_ok {f : Fab} (h : f.Ok) (wa : Nat) : (f.countUe wa).Ok := by
  unfold Fab.countUe
  repeat' first
    | with_reducible assumption | with_reducible apply Fab.ok_ite | with_reducible apply Fab.set_ok
    | with_reducible apply Fab.stick_ok | intro _ | split | with_reducible apply Fab.ok_mk

theorem Fab.noteRead_ok {f : Fab} (h : f.Ok) (src : Nat) (wa : Nat) (r : WordRd) : (f.noteRead src wa r).Ok := by
  unfold Fab.noteRead
  repeat' first
    | with_reducible assumption | with_reducible apply Fab.raise_ok | with_reducible apply Fab.noteCe_ok
    | with_reducible apply Fab.logUe_ok | with_reducible apply Fab.countUe_ok | intro _ | split

theorem Fab.readWords_ok {f : Fab} (h : f.Ok) (src : Nat) (wa : Nat) (n0 : Nat) : (f.readWords src wa n0).fab.Ok := by
  induction n0 generalizing f src wa with
  | zero => exact h
  | succ _ ih =>
    unfold Fab.readWords
    repeat' first
    | with_reducible assumption | apply ih
    | with_reducible apply Fab.ok_ite
    | with_reducible apply Fab.noteRead_ok
    | intro _
    | split

theorem Fab.read_ok {f : Fab} (h : f.Ok) (src : Nat) (a : Nat) (n : Nat) : (f.read src a n).fab.Ok := by
  unfold Fab.read
  repeat' first
    | with_reducible assumption | with_reducible apply Fab.readWords_ok | intro _

theorem Fab.loseResv_ok {f : Fab} (h : f.Ok) (a : Nat) : (f.loseResv a).Ok := by
  unfold Fab.loseResv
  repeat' first
    | with_reducible assumption | with_reducible apply Fab.ok_ite | with_reducible apply Fab.ok_foldl
    | with_reducible apply Fab.setEng_ok | intro _ | split

theorem Fab.putWord_ok {f : Fab} (h : f.Ok) (wa : Nat) (data : Nat) : (f.putWord wa data).Ok := by
  unfold Fab.putWord
  have h1 : Memory.wf (writeN f.mem (16 * wa) 16 data) = true := writeN_wf _ _ _ h.1
  generalize writeN f.mem (16 * wa) 16 data = m at *
  have h2 : Fab.Ok { f with mem := m } := ⟨h1, h.2⟩
  with_reducible exact Fab.loseResv_ok (Fab.ok_mk h2 ..) _

theorem Fab.poison_ok {f : Fab} (h : f.Ok) (wa : Nat) : (f.poison wa).Ok := by
  unfold Fab.poison
  have h1 : Memory.wf (writeN f.mem (16 * wa) 16 0) = true := writeN_wf _ _ _ h.1
  generalize writeN f.mem (16 * wa) 16 0 = m at *
  exact ⟨h1, h.2⟩

theorem Fab.chunkLost_ok {f : Fab} (h : f.Ok) (lost : BitVec 64) : (f.chunkLost lost).Ok := by
  unfold Fab.chunkLost
  repeat' first
    | with_reducible assumption | with_reducible apply Fab.ok_ite | with_reducible apply Fab.ok_foldl
    | with_reducible apply Fab.logUe_ok | with_reducible apply Fab.poison_ok | intro _ | split

theorem Fab.testYield_ok {f : Fab} (h : f.Ok) : (f.testYield).Ok := by
  unfold Fab.testYield
  repeat' first
    | with_reducible assumption | with_reducible apply Fab.set_ok | with_reducible apply Fab.stick_ok
    | with_reducible apply Fab.chunkLost_ok | intro _

theorem Fab.yieldAt_ok {f : Fab} (h : f.Ok) (a : Nat) : (f.yieldAt a).Ok := by
  unfold Fab.yieldAt
  repeat' first
    | with_reducible assumption | with_reducible apply Fab.ok_ite | with_reducible apply Fab.testYield_ok | intro _
    | split

theorem Fab.confBump_ok {f : Fab} (h : f.Ok) (b : Nat) (m : Nat) (n : Nat) : (f.confBump b m n).Ok := by
  unfold Fab.confBump
  repeat' first
    | with_reducible assumption | with_reducible apply Fab.ok_ite | with_reducible apply Fab.set_ok
    | with_reducible apply Fab.raise_ok | intro _ | split

theorem Fab.confAt_ok {f : Fab} (h : f.Ok) (b : Nat) (m : Nat) (t : Nat) : (f.confAt b m t).Ok := by
  unfold Fab.confAt
  repeat' first
    | with_reducible assumption | with_reducible apply Fab.ok_ite | with_reducible apply Fab.set_ok
    | with_reducible apply Fab.confBump_ok | intro _ | split | with_reducible apply Fab.ok_mk

theorem Fab.confWait_ok {f : Fab} (h : f.Ok) (a : Nat) (m : Nat) (least : Nat) : (f.confWait a m least).Ok := by
  unfold Fab.confWait
  repeat' first
    | with_reducible assumption | with_reducible apply Fab.ok_ite | with_reducible apply Fab.free_ok
    | with_reducible apply Fab.confBump_ok | intro _ | split

theorem Fab.writePart_ok {f : Fab} (h : f.Ok) (src : Nat) (wa : Nat) (lo : Nat) (hi : Nat) (data : Nat) :
    (f.writePart src wa lo hi data).fab.Ok := by
  unfold Fab.writePart
  split
  · with_reducible exact Fab.putWord_ok h _ _
  · dsimp only
    split
    · with_reducible exact Fab.logUe_ok h _ _ _ _ _ _
    · with_reducible exact Fab.raise_ok (Fab.poison_ok (Fab.stick_ok (Fab.logUe_ok h _ _ _ _ _ _) _ _) _) _ _
    · with_reducible exact Fab.putWord_ok (Fab.ok_ite (fun _ => Fab.noteCe_ok h _ _ _) (fun _ => h)) _ _

theorem Fab.writeWords_ok {f : Fab} (h : f.Ok) (src : Nat) (wa : Nat) (lo : Nat) (hi : Nat) (data : Nat) (n0 : Nat) :
    (f.writeWords src wa lo hi data n0).fab.Ok := by
  induction n0 generalizing f wa lo hi data with
  | zero => exact h
  | succ _ ih =>
    unfold Fab.writeWords
    with_reducible exact ih (Fab.writePart_ok h _ _ _ _ _) _ _ _ _

theorem Fab.write_ok {f : Fab} (h : f.Ok) (src : Nat) (a : Nat) (n : Nat) (v : Nat) : (f.write src a n v).fab.Ok := by
  unfold Fab.write
  repeat' first
    | with_reducible assumption | with_reducible apply Fab.writeWords_ok | intro _

end Sys2Proof.Machine
end

