-- ==== Sys2Proof/Laws/KeepIsc.lean ====
section
/-! SUPPORT. What the operations of Machine/Isc.lean keep. -/

namespace Sys2Proof.Machine

theorem Fab.syncPend_ok {f : Fab} (h : f.Ok) (t : Nat) : (f.syncPend t).Ok := by
  unfold Fab.syncPend
  repeat' first
    | with_reducible assumption | with_reducible apply Fab.ok_ite | with_reducible apply Fab.set_ok
    | with_reducible apply Fab.updEng_ok | intro _ | split | with_reducible apply Fab.ok_mk

theorem Fab.present_ok {f : Fab} (h : f.Ok) (s : Nat) (t : Nat) : (f.present s t).Ok := by
  unfold Fab.present
  repeat' first
    | with_reducible assumption | with_reducible apply Fab.ok_ite | with_reducible apply Fab.sendMsix_ok
    | with_reducible apply Fab.syncPend_ok | intro _ | split | with_reducible apply Fab.ok_mk

theorem Fab.unpresent_ok {f : Fab} (h : f.Ok) (s : Nat) (t : Nat) (withdrawn : Bool) : (f.unpresent s t withdrawn).Ok := by
  unfold Fab.unpresent
  repeat' first
    | with_reducible assumption | with_reducible apply Fab.ok_ite | with_reducible apply Fab.set_ok
    | with_reducible apply Fab.dropMsix_ok | with_reducible apply Fab.syncPend_ok | intro _ | split
    | with_reducible apply Fab.ok_mk

theorem Fab.syncSrc_ok {f : Fab} (h : f.Ok) (s : Nat) (by_ : Option Nat) : (f.syncSrc s by_).Ok := by
  unfold Fab.syncSrc
  repeat' first
    | with_reducible assumption | with_reducible apply Fab.ok_ite | with_reducible apply Fab.ok_foldl
    | with_reducible apply Fab.present_ok | with_reducible apply Fab.unpresent_ok | intro _ | split

theorem Fab.syncTgt_ok {f : Fab} (h : f.Ok) (t : Nat) (own : Bool) : (f.syncTgt t own).Ok := by
  unfold Fab.syncTgt
  repeat' first
    | with_reducible assumption | with_reducible apply Fab.ok_foldl | with_reducible apply Fab.present_ok
    | with_reducible apply Fab.unpresent_ok | intro _

theorem Fab.setSrc_ok {f : Fab} (h : f.Ok) (s : Nat) (st : Nat) (by_ : Option Nat) : (f.setSrc s st by_).Ok := by
  unfold Fab.setSrc
  repeat' first
    | with_reducible assumption | with_reducible apply Fab.ok_ite | with_reducible apply Fab.set_ok
    | with_reducible apply Fab.syncSrc_ok | intro _ | split | with_reducible apply Fab.ok_mk

theorem Fab.edgeReq_ok {f : Fab} (h : f.Ok) (s : Nat) : (f.edgeReq s).Ok := by
  unfold Fab.edgeReq
  repeat' first
    | with_reducible assumption | with_reducible apply Fab.ok_ite | with_reducible apply Fab.set_ok
    | with_reducible apply Fab.setSrc_ok | intro _ | split

theorem Fab.levelMsg_ok {f : Fab} (h : f.Ok) (s : Nat) (lvl : Bool) : (f.levelMsg s lvl).Ok := by
  unfold Fab.levelMsg
  repeat' first
    | with_reducible assumption | with_reducible apply Fab.ok_ite | with_reducible apply Fab.set_ok
    | with_reducible apply Fab.setSrc_ok | intro _ | split

theorem Fab.takeMsg_ok {f : Fab} (h : f.Ok) (s : Nat) (lvl : Bool) (ok : Bool) : (f.takeMsg s lvl ok).Ok := by
  unfold Fab.takeMsg
  repeat' first
    | with_reducible assumption | with_reducible apply Fab.ok_ite | with_reducible apply Fab.set_ok
    | with_reducible apply Fab.edgeReq_ok | with_reducible apply Fab.levelMsg_ok | intro _ | split

theorem Fab.showStack_ok {f : Fab} (h : f.Ok) (t : Nat) : (f.showStack t).Ok := by
  unfold Fab.showStack
  repeat' first
    | with_reducible assumption | with_reducible apply Fab.ok_ite | with_reducible apply Fab.set_ok | intro _ | split

theorem Fab.claimSrc_ok {f : Fab} (h : f.Ok) (s : Nat) (t : Nat) : (f.claimSrc s t).Ok := by
  unfold Fab.claimSrc
  repeat' first
    | with_reducible assumption | with_reducible apply Fab.ok_ite | with_reducible apply Fab.set_ok
    | with_reducible apply Fab.syncTgt_ok | with_reducible apply Fab.setSrc_ok | with_reducible apply Fab.showStack_ok
    | intro _ | split | with_reducible apply Fab.ok_mk

theorem Fab.claim_ok {f : Fab} (h : f.Ok) (t : Nat) : (f.claim t).2.Ok := by
  unfold Fab.claim
  repeat' first
    | with_reducible assumption | with_reducible apply Fab.set_ok | with_reducible apply Fab.claimSrc_ok | intro _
    | split

theorem Fab.hostClaim_ok {f : Fab} (h : f.Ok) (s : Nat) (n : Nat) : (f.hostClaim s n).2.Ok := by
  unfold Fab.hostClaim
  repeat' first
    | with_reducible assumption | with_reducible apply Fab.ok_ite | with_reducible apply Fab.set_ok
    | with_reducible apply Fab.claimSrc_ok | intro _ | split

theorem Fab.afterDone_ok {f : Fab} (h : f.Ok) (s : Nat) : (f.afterDone s).Ok := by
  unfold Fab.afterDone
  repeat' first
    | with_reducible assumption | with_reducible apply Fab.ok_ite | with_reducible apply Fab.set_ok
    | with_reducible apply Fab.setSrc_ok | intro _ | split

theorem Fab.completionErr_ok {f : Fab} (h : f.Ok) (src : Option Nat) (t : Nat) : (f.completionErr src t).Ok := by
  unfold Fab.completionErr
  repeat' first
    | with_reducible assumption | with_reducible apply Fab.set_ok | intro _ | split

theorem Fab.finish_ok {f : Fab} (h : f.Ok) (s : Nat) (t : Nat) : (f.finish s t).Ok := by
  unfold Fab.finish
  repeat' first
    | with_reducible assumption | with_reducible apply Fab.ok_ite | with_reducible apply Fab.set_ok
    | with_reducible apply Fab.syncTgt_ok | with_reducible apply Fab.showStack_ok
    | with_reducible apply Fab.afterDone_ok | intro _ | split | with_reducible apply Fab.ok_mk

theorem Fab.complete_ok {f : Fab} (h : f.Ok) (s : Nat) (t : Nat) : (f.complete s t).Ok := by
  unfold Fab.complete
  repeat' first
    | with_reducible assumption | with_reducible apply Fab.ok_ite | with_reducible apply Fab.completionErr_ok
    | with_reducible apply Fab.finish_ok | intro _ | split

theorem Fab.eoi_ok {f : Fab} (h : f.Ok) (t : Nat) : (f.eoi t).Ok := by
  unfold Fab.eoi
  repeat' first
    | with_reducible assumption | with_reducible apply Fab.ok_ite | with_reducible apply Fab.completionErr_ok
    | with_reducible apply Fab.finish_ok | intro _ | split

theorem Fab.timerExpires_ok {f : Fab} (h : f.Ok) (s : Nat) : (f.timerExpires s).Ok := by
  unfold Fab.timerExpires
  repeat' first
    | with_reducible assumption | with_reducible apply Fab.ok_ite | with_reducible apply Fab.setSrc_ok | intro _ | split

theorem Fab.writeScfg_ok {f : Fab} (h : f.Ok) (s : Nat) (v : Word) : (f.writeScfg s v).Ok := by
  unfold Fab.writeScfg
  repeat' first
    | with_reducible assumption | with_reducible apply Fab.ok_ite | with_reducible apply Fab.set_ok
    | with_reducible apply Fab.setSrc_ok | intro _ | split | with_reducible apply Fab.ok_mk

theorem Fab.writeSmask_ok {f : Fab} (h : f.Ok) (s : Nat) (i : Nat) (v : Word) : (f.writeSmask s i v).Ok := by
  unfold Fab.writeSmask
  repeat' first
    | with_reducible assumption | with_reducible apply Fab.ok_ite | with_reducible apply Fab.ok_foldl
    | with_reducible apply Fab.setReg_ok | with_reducible apply Fab.syncSrc_ok | intro _ | split

theorem Fab.writeIscCtl_ok {f : Fab} (h : f.Ok) (v : Word) : (f.writeIscCtl v).Ok := by
  unfold Fab.writeIscCtl
  repeat' first
    | with_reducible assumption | with_reducible apply Fab.ok_ite | with_reducible apply Fab.set_ok | intro _ | split

theorem Fab.sendMsg_ok {f : Fab} (h : f.Ok) (s : Nat) (lvl : Bool) (ok : Bool) : (f.sendMsg s lvl ok).Ok := by
  unfold Fab.sendMsg
  repeat' first
    | with_reducible assumption | intro _ | with_reducible apply Fab.ok_mk

theorem Fab.resetSources_ok {f : Fab} (h : f.Ok) (own : Nat → Bool) : (f.resetSources own).Ok := by
  delta Fab.resetSources
  extract_lets ss f1 tg held f2 f3
  have h1 : f1.Ok := Fab.ok_foldl (fun g s hg => ⟨hg.1, Store.wf_filter regReset _ _ hg.2⟩) h
  have h2 : f2.Ok := h1
  have h3 : f3.Ok := Fab.ok_foldl (fun g t hg => Fab.syncPend_ok hg _) h2
  exact Fab.ok_foldl (fun g t hg => Fab.syncTgt_ok (Fab.showStack_ok hg _) _ _) h3

end Sys2Proof.Machine
end

