-- ==== Sys2Proof/Laws/KeepRing.lean ====
section
/-! SUPPORT. What the operations of Machine/Ring.lean keep. -/

namespace Sys2Proof.Machine

theorem Fab.ringRead_ok {f : Fab} (h : f.Ok) (p : Nat) (q : Nat) (off : Nat) (n : Nat) : (f.ringRead p q off n).fab.Ok := by
  delta Fab.ringRead
  extract_lets sz o
  split
  · exact Fab.read_ok h _ _ _
  · exact Fab.read_ok (Fab.read_ok h _ _ _) _ _ _

theorem Fab.ringWrite_ok {f : Fab} (h : f.Ok) (p : Nat) (q : Nat) (off : Nat) (n : Nat) (v : Nat) :
    (f.ringWrite p q off n v).Ok := by
  unfold Fab.ringWrite
  repeat' first
    | with_reducible assumption | with_reducible apply Fab.ok_ite | with_reducible apply Fab.write_ok | intro _ | split

theorem Fab.ilogAppend_ok {f : Fab} (h : f.Ok) (p : Nat) (tag : Nat) (n : Nat) (v : Nat) : (f.ilogAppend p tag n v).Ok := by
  unfold Fab.ilogAppend
  repeat' first
    | with_reducible assumption | with_reducible apply Fab.updSh_ok | with_reducible apply Fab.ringWrite_ok | intro _
    | with_reducible apply Fab.ok_mk

end Sys2Proof.Machine
end

