-- ==== Sys2Proof/Laws/KeepSquare.lean ====
section
/-! SUPPORT. What the operations of Machine/Square.lean keep. -/

namespace Sys2Proof.Machine

theorem Fab.sendFlit_ok {f : Fab} (h : f.Ok) (c : Nat) (w : Flit) : (f.sendFlit c w).Ok := by
  unfold Fab.sendFlit
  repeat' first
    | with_reducible assumption | with_reducible apply Fab.ok_ite | with_reducible apply Fab.updPort_ok
    | with_reducible apply Fab.emit_ok | intro _ | split | with_reducible apply Fab.ok_mk

theorem Fab.sendUp_ok {f : Fab} (h : f.Ok) (p : Nat) (ty : Nat) (dcn : Nat) (t : Nat) (flags : Nat) :
    (f.sendUp p ty dcn t flags).Ok := by
  unfold Fab.sendUp
  repeat' first
    | with_reducible assumption | with_reducible apply Fab.ok_ite | with_reducible apply Fab.sendFlit_ok | intro _
    | split

theorem Fab.sendDown_ok {f : Fab} (h : f.Ok) (p : Nat) (ty : Nat) (dcn : Nat) (t : Nat) (flags : Nat) :
    (f.sendDown p ty dcn t flags).Ok := by
  unfold Fab.sendDown
  repeat' first
    | with_reducible assumption | with_reducible apply Fab.ok_foldl | with_reducible apply Fab.sendFlit_ok | intro _

theorem Fab.jstat_ok {f : Fab} (h : f.Ok) (p : Nat) : (f.jstat p).Ok := by
  unfold Fab.jstat
  repeat' first
    | with_reducible assumption | with_reducible apply Fab.ok_foldl | with_reducible apply Fab.set_ok | intro _

theorem Fab.freeSegments_ok {f : Fab} (h : f.Ok) (p : Nat) : (f.freeSegments p).Ok := by
  unfold Fab.freeSegments
  repeat' first
    | with_reducible assumption | with_reducible apply Fab.updSh_ok | with_reducible apply Fab.jstat_ok | intro _
    | with_reducible apply Fab.ok_mk

theorem Fab.dropPrior_ok {f : Fab} (h : f.Ok) (p : Nat) : (f.dropPrior p).Ok := by
  unfold Fab.dropPrior
  repeat' first
    | with_reducible assumption | with_reducible apply Fab.set_ok | with_reducible apply Fab.updSh_ok
    | with_reducible apply Fab.freeSegments_ok | intro _ | with_reducible apply Fab.ok_mk

theorem Fab.copyWord_ok {f : Fab} (h : f.Ok) (sw : Nat) (dw : Nat) : (f.copyWord sw dw).1.Ok := by
  unfold Fab.copyWord
  have hr := Fab.read_ok h 2 (16 * sw) 16
  generalize f.read 2 (16 * sw) 16 = r at *
  dsimp only
  split
  · with_reducible exact Fab.ok_p1 (Fab.poison_ok hr _)
  · with_reducible exact Fab.ok_p1 (Fab.write_ok hr _ _ _ _)

theorem Fab.putEntry_ok {f : Fab} (h : f.Ok) (j : JEntry) : (f.putEntry j).Ok := by
  unfold Fab.putEntry
  repeat' first
    | with_reducible assumption | with_reducible apply Fab.write_ok | with_reducible apply Fab.copyWord_ok | intro _

theorem Fab.undo_ok {f : Fab} (h : f.Ok) (j : JEntry) : (f.undo j).1.Ok := by
  unfold Fab.undo
  split
  · with_reducible exact Fab.ok_p1 (Fab.poison_ok (Fab.poison_ok (Fab.read_ok h _ _ _) _) _)
  · with_reducible exact Fab.ok_p1 (Fab.copyWord_ok (Fab.copyWord_ok h _ _) _ _)

theorem Fab.undoAll_ok {f : Fab} (h : f.Ok) (n0 : List JEntry) : (f.undoAll n0).1.Ok := by
  induction n0 generalizing f with
  | nil => exact h
  | cons j t ih => exact ih (Fab.undo_ok h j)

theorem Fab.copyPage_ok {f : Fab} (h : f.Ok) (e : Nat) (src : Nat) (dst : Nat) : (f.copyPage e src dst).1.Ok := by
  have step : ∀ (x : Fab × Option Nat) (a b : Nat), x.1.Ok →
      (let r := x.1.copyWord a b; ((r.1, if x.2.isSome then x.2 else r.2) : Fab × Option Nat)).1.Ok :=
    fun x a b hx => Fab.copyWord_ok hx a b
  unfold Fab.copyPage
  generalize slotBase e src = s
  generalize slotBase e dst = d
  exact foldl_keeps (fun (x : Fab × Option Nat) => x.1.Ok) (fun x i hx => step x _ _ hx) h

theorem Fab.drainSq_ok {f : Fab} (h : f.Ok) (c : Nat) : (f.drainSq c).Ok := by
  unfold Fab.drainSq
  repeat' first
    | with_reducible assumption | with_reducible apply Fab.ok_ite | with_reducible apply Fab.ok_foldl
    | with_reducible apply Fab.updPort_ok | with_reducible apply Fab.emit_ok | intro _ | split
    | with_reducible apply Fab.ok_mk

theorem Fab.clearPorts_ok {f : Fab} (h : f.Ok) (p : Nat) : (f.clearPorts p).Ok := by
  unfold Fab.clearPorts
  repeat' first
    | with_reducible assumption | with_reducible apply Fab.ok_foldl | with_reducible apply Fab.updPort_ok
    | with_reducible apply Fab.drainSq_ok | intro _ | with_reducible apply Fab.ok_mk

theorem Fab.restore_ok {f : Fab} (h : f.Ok) (p : Nat) : (f.restore p).1.Ok := by
  delta Fab.restore
  extract_lets act s c mine f1 f2 f3 undoB r1 r2 r3 f4 f5 f6 f7
  have h1 : f1.Ok := by with_reducible exact Fab.ok_mk h ..
  have h2 : f2.Ok := by
    with_reducible exact Fab.ok_foldl (fun g x hg => Fab.ok_ite (fun _ => hg) (fun _ => Fab.write_ok hg _ _ _ _)) h1
  have h3 : f3.Ok := by with_reducible exact Fab.ok_foldl (fun g e hg => Fab.updEng_ok hg _ _) h2
  have h4 : r1.1.Ok := by with_reducible exact Fab.undoAll_ok h3 _
  have h5 : r2.1.Ok := by with_reducible exact Fab.undoAll_ok h4 _
  have h6 : r3.1.Ok := foldl_keeps (fun (x : Fab × Option Nat) => Fab.Ok x.1)
    (fun x e hx => by with_reducible exact Fab.copyPage_ok hx _ _ _) h5
  have h8 : f5.Ok := by with_reducible exact Fab.set_ok h6 _ _
  have h9 : f6.Ok := by with_reducible exact Fab.updSh_ok h8 _ _
  have h7 : f7.Ok := by with_reducible exact Fab.clearPorts_ok (Fab.set_ok h9 _ _) _
  clear_value f7
  with_reducible exact Fab.jstat_ok h7 _

theorem Fab.recordLoss_ok {f : Fab} (h : f.Ok) (p : Nat) (a : Nat) : (f.recordLoss p a).Ok := by
  unfold Fab.recordLoss
  repeat' first
    | with_reducible assumption | with_reducible apply Fab.ok_ite | with_reducible apply Fab.set_ok | intro _ | split

theorem Fab.halt_ok {f : Fab} (h : f.Ok) (p : Nat) (cause : Nat) : (f.halt p cause).Ok := by
  unfold Fab.halt
  repeat' first
    | with_reducible assumption | with_reducible apply Fab.ok_ite | with_reducible apply Fab.set_ok
    | with_reducible apply Fab.updSh_ok | with_reducible apply Fab.raise_ok | with_reducible apply Fab.sendUp_ok
    | with_reducible apply Fab.sendDown_ok | with_reducible apply Fab.restore_ok
    | with_reducible apply Fab.recordLoss_ok | intro _ | split | with_reducible apply Fab.ok_mk

theorem Fab.dataLoss_ok {f : Fab} (h : f.Ok) (p : Nat) (a : Nat) : (f.dataLoss p a).Ok := by
  unfold Fab.dataLoss
  repeat' first
    | with_reducible assumption | with_reducible apply Fab.ok_ite | with_reducible apply Fab.set_ok
    | with_reducible apply Fab.recordLoss_ok | with_reducible apply Fab.halt_ok | intro _ | split

theorem Fab.rollback_ok {f : Fab} (h : f.Ok) (p : Nat) (at_ : Nat) : (f.rollback p at_).Ok := by
  unfold Fab.rollback
  repeat' first
    | with_reducible assumption | with_reducible apply Fab.ok_ite | with_reducible apply Fab.set_ok
    | with_reducible apply Fab.stick_ok | with_reducible apply Fab.updSh_ok | with_reducible apply Fab.restore_ok
    | with_reducible apply Fab.recordLoss_ok | with_reducible apply Fab.halt_ok | intro _ | split
    | with_reducible apply Fab.ok_mk

theorem Fab.takeEnd_ok {f : Fab} (h : f.Ok) (p : Nat) (e : Nat) : (f.takeEnd p e).1.Ok := by
  unfold Fab.takeEnd
  repeat' first
    | with_reducible assumption | with_reducible apply Fab.ok_ite | with_reducible apply Fab.updSh_ok | intro _ | split
    | with_reducible apply Fab.ok_mk

theorem Fab.rootRollback_ok {f : Fab} (h : f.Ok) (p : Nat) (cause : Nat) (now : Nat) : (f.rootRollback p cause now).Ok := by
  unfold Fab.rootRollback
  repeat' first
    | with_reducible assumption | with_reducible apply Fab.ok_ite | with_reducible apply Fab.set_ok
    | with_reducible apply Fab.updSh_ok | with_reducible apply Fab.sendDown_ok | with_reducible apply Fab.halt_ok
    | with_reducible apply Fab.rollback_ok | intro _ | split | with_reducible apply Fab.ok_mk

theorem Fab.rootFail_ok {f : Fab} (h : f.Ok) (p : Nat) (cause : Nat) (dcn : Nat) (now : Nat) :
    (f.rootFail p cause dcn now).Ok := by
  unfold Fab.rootFail
  repeat' first
    | with_reducible assumption | with_reducible apply Fab.ok_ite | with_reducible apply Fab.sendDown_ok
    | with_reducible apply Fab.halt_ok | with_reducible apply Fab.takeEnd_ok | with_reducible apply Fab.rootRollback_ok
    | intro _ | split

theorem Fab.failInterval_ok {f : Fab} (h : f.Ok) (p : Nat) (cause : Nat) (dcn : Nat) (now : Nat) :
    (f.failInterval p cause dcn now).Ok := by
  unfold Fab.failInterval
  repeat' first
    | with_reducible assumption | with_reducible apply Fab.ok_ite | with_reducible apply Fab.set_ok
    | with_reducible apply Fab.updSh_ok | with_reducible apply Fab.sendUp_ok | with_reducible apply Fab.rootFail_ok
    | intro _ | split | with_reducible apply Fab.ok_mk

theorem Fab.rootEarly_ok {f : Fab} (h : f.Ok) (p : Nat) : (f.rootEarly p).Ok := by
  unfold Fab.rootEarly
  repeat' first
    | with_reducible assumption | with_reducible apply Fab.ok_ite | with_reducible apply Fab.updSh_ok
    | with_reducible apply Fab.sendDown_ok | with_reducible apply Fab.takeEnd_ok | intro _ | split
    | with_reducible apply Fab.ok_mk

theorem Fab.watermark_ok {f : Fab} (h : f.Ok) (p : Nat) : (f.watermark p).Ok := by
  unfold Fab.watermark
  repeat' first
    | with_reducible assumption | with_reducible apply Fab.ok_ite | with_reducible apply Fab.set_ok
    | with_reducible apply Fab.sendUp_ok | with_reducible apply Fab.dropPrior_ok | with_reducible apply Fab.rootEarly_ok
    | intro _ | split

theorem Fab.journalRow_ok {f : Fab} (h : f.Ok) (p : Nat) (a : Nat) (dcn : Nat) : (f.journalRow p a dcn).1.Ok := by
  delta Fab.journalRow
  extract_lets row s ddr b l cap base j high f1
  have h1 : f1.Ok := by with_reducible exact Fab.updSh_ok (Fab.putEntry_ok h _) _ _
  clear_value f1 high j
  with_reducible exact Fab.ok_ite1 (fun _ => Fab.ok_p1 h) (fun _ => Fab.ok_ite1 (fun _ => Fab.ok_p1 (Fab.updSh_ok h _ _))
    (fun _ => Fab.ok_p1 (Fab.jstat_ok h1 _)))

theorem Fab.journalEvents_ok {f : Fab} (h : f.Ok) (p : Nat) (now : Nat) : (f.journalEvents p now).Ok := by
  unfold Fab.journalEvents
  repeat' first
    | with_reducible assumption | with_reducible apply Fab.ok_ite | with_reducible apply Fab.updSh_ok
    | with_reducible apply Fab.failInterval_ok | with_reducible apply Fab.watermark_ok | intro _ | split
    | with_reducible apply Fab.ok_mk

theorem Fab.engWrite_ok {f : Fab} (h : f.Ok) (e : Nat) (a : Nat) (n : Nat) (v : Nat) : (f.engWrite e a n v).fab.Ok := by
  delta Fab.engWrite
  split
  · refine Fab.ok_itewr (fun _ => ?_) (fun _ => Fab.write_ok h _ _ _ _)
    extract_lets r r2
    have h1 : r.1.Ok := Fab.journalRow_ok h _ _ _
    have h2 : r2.1.Ok := Fab.ok_ite1 (fun _ => Fab.ok_p1 h1) (fun _ => Fab.journalRow_ok h1 _ _ _)
    clear_value r2 r
    with_reducible exact Fab.ok_itewr (fun _ => Fab.write_ok h2 _ _ _ _) (fun _ => Fab.ok_wr h2)
  · exact Fab.write_ok h _ _ _ _

theorem Fab.commit_ok {f : Fab} (h : f.Ok) (p : Nat) : (f.commit p).Ok := by
  unfold Fab.commit
  repeat' first
    | with_reducible assumption | with_reducible apply Fab.ok_ite | with_reducible apply Fab.set_ok
    | with_reducible apply Fab.updSh_ok | with_reducible apply Fab.raise_ok | with_reducible apply Fab.freeSegments_ok
    | intro _ | split | with_reducible apply Fab.ok_mk

theorem Fab.settle_ok {f : Fab} (h : f.Ok) (p : Nat) : (f.settle p).Ok := by
  unfold Fab.settle
  repeat' first
    | with_reducible assumption | with_reducible apply Fab.ok_ite | with_reducible apply Fab.ok_foldl
    | with_reducible apply Fab.set_ok | with_reducible apply Fab.updEng_ok | with_reducible apply Fab.updSh_ok
    | with_reducible apply Fab.clearPorts_ok | with_reducible apply Fab.halt_ok | intro _ | split
    | with_reducible apply Fab.ok_mk

theorem Fab.applyDecide_ok {f : Fab} (h : f.Ok) (p : Nat) (dcn : Nat) (t : Nat) (flags : Nat) (now : Nat) :
    (f.applyDecide p dcn t flags now).Ok := by
  unfold Fab.applyDecide
  repeat' first
    | with_reducible assumption | with_reducible apply Fab.ok_ite | with_reducible apply Fab.updSh_ok
    | with_reducible apply Fab.halt_ok | with_reducible apply Fab.rollback_ok | with_reducible apply Fab.commit_ok
    | with_reducible apply Fab.settle_ok | intro _ | split | with_reducible apply Fab.ok_mk

theorem Fab.combine_ok {f : Fab} (h : f.Ok) (p : Nat) (now : Nat) : (f.combine p now).Ok := by
  unfold Fab.combine
  repeat' first
    | with_reducible assumption | with_reducible apply Fab.ok_ite | with_reducible apply Fab.updSh_ok
    | with_reducible apply Fab.sendUp_ok | with_reducible apply Fab.sendDown_ok | with_reducible apply Fab.halt_ok
    | with_reducible apply Fab.applyDecide_ok | intro _ | split | with_reducible apply Fab.ok_mk

theorem Fab.takeGo_ok {f : Fab} (h : f.Ok) (p : Nat) (dcn : Nat) (t : Nat) (now : Nat) : (f.takeGo p dcn t now).Ok := by
  unfold Fab.takeGo
  repeat' first
    | with_reducible assumption | with_reducible apply Fab.ok_ite | with_reducible apply Fab.updSh_ok | intro _ | split
    | with_reducible apply Fab.ok_mk

theorem Fab.sendReady_ok {f : Fab} (h : f.Ok) (p : Nat) (dcn : Nat) (now : Nat) : (f.sendReady p dcn now).Ok := by
  unfold Fab.sendReady
  repeat' first
    | with_reducible assumption | with_reducible apply Fab.ok_ite | with_reducible apply Fab.sendUp_ok
    | with_reducible apply Fab.sendDown_ok | with_reducible apply Fab.takeGo_ok | intro _ | split

theorem Fab.combineReady_ok {f : Fab} (h : f.Ok) (p : Nat) (dcn : Nat) (now : Nat) : (f.combineReady p dcn now).Ok := by
  unfold Fab.combineReady
  repeat' first
    | with_reducible assumption | with_reducible apply Fab.ok_ite | with_reducible apply Fab.updSh_ok
    | with_reducible apply Fab.sendReady_ok | intro _ | split | with_reducible apply Fab.ok_mk

theorem Fab.holdCheck_ok {f : Fab} (h : f.Ok) (p : Nat) (now : Nat) : (f.holdCheck p now).Ok := by
  unfold Fab.holdCheck
  repeat' first
    | with_reducible assumption | with_reducible apply Fab.ok_ite | with_reducible apply Fab.updSh_ok
    | with_reducible apply Fab.sendReady_ok | intro _ | split | with_reducible apply Fab.ok_mk

theorem Fab.barrierTry_ok {f : Fab} (h : f.Ok) (p : Nat) (now : Nat) : (f.barrierTry p now).Ok := by
  unfold Fab.barrierTry
  repeat' first
    | with_reducible assumption | with_reducible apply Fab.ok_ite | with_reducible apply Fab.ok_foldl
    | with_reducible apply Fab.updSh_ok | with_reducible apply Fab.sendUp_ok | with_reducible apply Fab.sendDown_ok
    | intro _ | split | with_reducible apply Fab.ok_mk

theorem Fab.barrierOf_ok {f : Fab} (h : f.Ok) (e : Nat) (now : Nat) : (f.barrierOf e now).Ok := by
  unfold Fab.barrierOf
  repeat' first
    | with_reducible assumption | with_reducible apply Fab.barrierTry_ok | intro _ | split

end Sys2Proof.Machine
end

