-- ==== Sys2Proof/Laws/KeepEcs.lean ====
section
/-! SUPPORT. What the operations of Machine/Ecs.lean keep. -/

namespace Sys2Proof.Machine

theorem Fab.perfBump_ok {f : Fab} (h : f.Ok) (en : Nat) (k : Nat) (n : Nat) : (f.perfBump en k n).Ok := by
  delta Fab.perfBump
  extract_lets r f1
  have h1 : f1.Ok := Fab.setEng_ok h _ _
  clear_value f1
  split
  · with_reducible exact Fab.raise_ok h1 _ _
  · exact h1

theorem Fab.perfPut_ok {f : Fab} (h : f.Ok) (en : Nat) (inc : List Nat) : (f.perfPut en inc).Ok := by
  unfold Fab.perfPut
  repeat' first
    | with_reducible assumption | with_reducible apply Fab.ok_ite | with_reducible apply Fab.ok_foldl
    | with_reducible apply Fab.perfBump_ok | intro _ | split

theorem Fab.perfFlush_ok {f : Fab} (h : f.Ok) (en : Nat) : (f.perfFlush en).Ok := by
  unfold Fab.perfFlush
  repeat' first
    | with_reducible assumption | with_reducible apply Fab.updEng_ok | with_reducible apply Fab.perfPut_ok | intro _
    | with_reducible apply Fab.ok_mk

theorem Fab.perfTo_ok {f : Fab} (h : f.Ok) (en : Nat) (t : Nat) (lost : List Nat) (hold : Nat) (more : List (Nat × Nat)) :
    (f.perfTo en t lost hold more).Ok := by
  unfold Fab.perfTo
  repeat' first
    | with_reducible assumption | with_reducible apply Fab.ok_ite | with_reducible apply Fab.updEng_ok
    | with_reducible apply Fab.perfPut_ok | intro _ | split | with_reducible apply Fab.ok_mk

theorem Fab.writeMode_ok {f : Fab} (h : f.Ok) (en : Nat) (v : Word) : (f.writeMode en v).Ok := by
  unfold Fab.writeMode
  repeat' first
    | with_reducible assumption | with_reducible apply Fab.ok_ite | with_reducible apply Fab.setEng_ok | intro _ | split

theorem Fab.ecsWrite_ok {f : Fab} (h : f.Ok) (en : Nat) (i : Nat) (now : Nat) (q : Nat) (v : Word) :
    (f.ecsWrite en i now q v).Ok := by
  unfold Fab.ecsWrite
  repeat' first
    | with_reducible assumption | with_reducible apply Fab.ok_ite | with_reducible apply Fab.ok_foldl
    | with_reducible apply Fab.set_ok | with_reducible apply Fab.setEng_ok | with_reducible apply Fab.complete_ok
    | with_reducible apply Fab.eoi_ok | with_reducible apply Fab.sendMsg_ok | with_reducible apply Fab.failInterval_ok
    | with_reducible apply Fab.writeMode_ok | intro _ | split | with_reducible apply Fab.ok_mk

end Sys2Proof.Machine
end

