-- ==== Sys2Proof/Laws/KeepFetch.lean ====
section
/-! SUPPORT. What the operations of Machine/Fetch.lean keep. -/

namespace Sys2Proof.Machine

theorem Fab.imRead_ok {f : Fab} (h : f.Ok) (en : Nat) (off : Nat) (n : Nat) (q : Nat) : (f.imRead en off n q).fab.Ok := by
  delta Fab.imRead
  extract_lets e r1 r2 r
  have h1 : r1.fab.Ok := by with_reducible exact Fab.read_ok h _ _ _
  have h2 : r2.fab.Ok := by with_reducible exact Fab.read_ok h1 _ _ _
  have hr : r.fab.Ok := by
    with_reducible exact Fab.ok_iterd (fun _ => Fab.read_ok h _ _ _) (fun _ => Fab.ok_rd h2)
  clear_value r
  with_reducible exact Fab.ok_rd hr

theorem Fab.fetchBundle_ok {f : Fab} (h : f.Ok) (en : Nat) : (f.fetchBundle en).fab.Ok := by
  delta Fab.fetchBundle
  extract_lets e pc hd len r strad off fuel g1 g2
  split
  · with_reducible exact Fab.ok_fx h
  · have h1 : r.fab.Ok := by with_reducible exact Fab.imRead_ok h _ _ _ _
    clear_value r
    with_reducible exact Fab.ok_itefx (fun _ => Fab.ok_fx h1) (fun _ => Fab.ok_fx h1)

theorem Fab.fetchConst_ok {f : Fab} (h : f.Ok) (en : Nat) (ksel : Nat) (d : Nat) (first : Bool) :
    (f.fetchConst en ksel d first).2.2.2.2.Ok := by
  unfold Fab.fetchConst
  repeat' first
    | with_reducible assumption | with_reducible apply Fab.ok_ite | with_reducible apply Fab.imRead_ok | intro _ | split

end Sys2Proof.Machine
end

