-- ==== Sys2Proof/Laws/KeepSlots.lean ====
section
/-! SUPPORT. What the operations of Machine/Slots.lean keep. -/

namespace Sys2Proof.Machine

theorem Run.put_ok {r : Run} (h : r.fab.Ok) (c : Ctx) (slot : Nat) (n : Nat) (d : Dst) (v : NetWord) :
    (r.put c slot n d v).fab.Ok := by
  unfold Run.put
  repeat' first
    | with_reducible assumption | with_reducible apply Fab.updEng_ok | intro _ | with_reducible apply Fab.ok_mk

theorem Run.putA_ok {r : Run} (h : r.fab.Ok) (c : Ctx) (slot : Nat) (n : Nat) (i : Nat) (v : Word) :
    (r.putA c slot n i v).fab.Ok := by
  unfold Run.putA
  repeat' first
    | with_reducible assumption | with_reducible apply Run.put_ok | intro _

theorem Run.putP_ok {r : Run} (h : r.fab.Ok) (c : Ctx) (slot : Nat) (n : Nat) (i : Nat) (v : Bool) :
    (r.putP c slot n i v).fab.Ok := by
  unfold Run.putP
  repeat' first
    | with_reducible assumption | with_reducible apply Fab.ok_ite | with_reducible apply Run.put_ok | intro _ | split

theorem Run.flags_ok {r : Run} (h : r.fab.Ok) (c : Ctx) (slot : Nat) (n : Nat) (idx : Nat) (mask : Nat) :
    (r.flags c slot n idx mask).fab.Ok := by
  unfold Run.flags
  repeat' first
    | with_reducible assumption | with_reducible apply Fab.ok_ite | with_reducible apply Run.put_ok | intro _ | split

theorem Run.trap_ok {r : Run} (h : r.fab.Ok) (slot : Nat) (code : Nat) (addr : Nat) : (r.trap slot code addr).fab.Ok := by
  unfold Run.trap
  repeat' first
    | with_reducible assumption | intro _ | with_reducible apply Fab.ok_mk

theorem Run.fail_ok {r : Run} (h : r.fab.Ok) (cause : Nat) : (r.fail cause).fab.Ok := by
  unfold Run.fail
  repeat' first
    | with_reducible assumption | intro _ | with_reducible apply Fab.ok_mk

theorem Run.pattern_ok {r : Run} (h : r.fab.Ok) (c : Ctx) (p : Nat) : (r.pattern c p).fab.Ok := by
  unfold Run.pattern
  repeat' first
    | with_reducible assumption | with_reducible apply Fab.read_ok | intro _

theorem Run.gatherPut_ok {r : Run} (h : r.fab.Ok) (c : Ctx) (slot : Nat) (four : Bool) (d : Nat) (q : Nat) (p : Nat) (m : MemRd) :
    (r.gatherPut c slot four d q p m).fab.Ok := by
  delta Run.gatherPut
  extract_lets reg v r2 r3
  have h2 : r2.fab.Ok := by with_reducible exact Fab.ok_run (Fab.free_ok h _)
  have h3 : r3.fab.Ok := by with_reducible exact Run.put_ok h2 _ _ _ _ _
  clear_value r3 r2 v
  with_reducible exact Fab.ok_iterun (fun _ => Fab.ok_run (Fab.updEng_ok h _ _)) (fun _ =>
    Fab.ok_iterun (fun _ => Fab.ok_iterun (fun _ => Run.put_ok h3 _ _ _ _ _) (fun _ => h3))
      (fun _ => Fab.ok_iterun (fun _ => Run.put_ok (Run.put_ok h _ _ _ _ _) _ _ _ _ _) (fun _ => Run.put_ok h _ _ _ _ _)))

theorem Run.gather_ok {r : Run} (h : r.fab.Ok) (c : Ctx) (slot : Nat) (four : Bool) (d : Nat) (q : Nat) (p : Nat) :
    (r.gather c slot four d q p).fab.Ok := by
  delta Run.gather
  with_reducible exact Fab.ok_iterun (fun _ => Run.trap_ok h _ _ _) (fun _ => Fab.ok_iterun (fun _ => Run.trap_ok h _ _ _)
    (fun _ => Run.gatherPut_ok (Fab.ok_run (Run.pattern_ok h _ _)) _ _ _ _ _ _ _))

theorem Run.execN_ok {r : Run} (h : r.fab.Ok) (c : Ctx) (slot : Nat) (o : NOp) : (r.execN c slot o).fab.Ok := by
  delta Run.execN
  cases o
  case gather => with_reducible exact Run.gather_ok h _ _ _ _ _ _
  case test => with_reducible exact Run.putP_ok h _ _ _ _ _
  case extract => with_reducible exact Run.putA_ok h _ _ _ _ _
  case extb => with_reducible exact Run.putA_ok h _ _ _ _ _
  all_goals first
    | with_reducible exact Run.put_ok h _ _ _ _ _
    | with_reducible exact Run.put_ok (Run.put_ok h _ _ _ _ _) _ _ _ _ _

theorem Run.mvte_ok {r : Run} (h : r.fab.Ok) (c : Ctx) (idx : Nat) (v : Word) : (r.mvte c idx v).fab.Ok := by
  unfold Run.mvte
  repeat' first
    | with_reducible assumption | with_reducible apply Fab.ok_ite | with_reducible apply Fab.updEng_ok
    | with_reducible apply Fab.ecsWrite_ok | intro _ | split | with_reducible apply Fab.ok_mk

theorem Run.execA_ok {r : Run} (h : r.fab.Ok) (c : Ctx) (slot : Nat) (o : AOp) : (r.execA c slot o).fab.Ok := by
  unfold Run.execA
  repeat' first
    | with_reducible assumption | with_reducible apply Fab.ok_ite | with_reducible apply Fab.claim_ok
    | with_reducible apply Run.putA_ok | with_reducible apply Run.putP_ok | with_reducible apply Run.flags_ok
    | with_reducible apply Run.mvte_ok | intro _ | split | with_reducible apply Fab.ok_mk

theorem Run.fpOut_ok {r : Run} (h : r.fab.Ok) (c : Ctx) (lat : Nat) (opc : Nat) (dest : Nat) (d : Dst) (v : NetWord) (lanes : List Nat) (a : Word) (b : Word) (cc : Word) :
    (r.fpOut c lat opc dest d v lanes a b cc).fab.Ok := by
  delta Run.fpOut
  extract_lets fpctl mask ex r1
  have h1 : r1.fab.Ok := by with_reducible exact Fab.ok_iterun (fun _ => Fab.ok_run h) (fun _ => h)
  clear_value r1
  with_reducible exact Fab.ok_iterun (fun _ => Fab.ok_run h1) (fun _ => Run.flags_ok (Run.put_ok h1 _ _ _ _ _) _ _ _ _ _)

theorem Run.quince_ok {r : Run} (h : r.fab.Ok) (c : Ctx) (opc : Nat) (s : Bool) (d : Nat) (s1 : Nat) (s2 : Nat) :
    (r.quince c opc s d s1 s2).fab.Ok := by
  delta Run.quince
  extract_lets fpctl a b q0 n res fp r1 r2 trap rec_ q
  have h1 : r1.fab.Ok := by with_reducible exact Fab.ok_iterun (fun _ => Fab.ok_run h) (fun _ => h)
  have h2 : r2.fab.Ok := by with_reducible exact Fab.ok_run h1
  clear_value r2
  with_reducible exact Fab.ok_iterun (fun _ => Run.fail_ok h2 _) (fun _ => Fab.ok_iterun (fun _ => Fab.ok_run h2)
    (fun _ => Fab.ok_run (Fab.updEng_ok h2 _ _)))

theorem Run.execM_ok {r : Run} (h : r.fab.Ok) (c : Ctx) (opc : Nat) (o : MOp) : (r.execM c opc o).fab.Ok := by
  delta Run.execM
  cases o
  case mul32 => with_reducible exact Run.putA_ok h _ _ _ _ _
  case mac => with_reducible exact Run.flags_ok (Run.put_ok h _ _ _ _ _) _ _ _ _ _
  case extr => with_reducible exact Run.flags_ok (Run.putA_ok h _ _ _ _ _) _ _ _ _ _
  case acchi => with_reducible exact Run.putA_ok h _ _ _ _ _
  case accnorm => with_reducible exact Run.putA_ok h _ _ _ _ _
  case quince => with_reducible exact Run.quince_ok h _ _ _ _ _ _
  case farith f pk op d s1 s2 =>
    with_reducible exact Fab.ok_iterun (fun _ => Run.fpOut_ok h _ _ _ _ _ _ _ _ _ _) (fun _ => Run.fpOut_ok h _ _ _ _ _ _ _ _ _ _)
  all_goals with_reducible exact Run.fpOut_ok h _ _ _ _ _ _ _ _ _ _

end Sys2Proof.Machine
end

