-- ==== Sys2Proof/Laws/KeepDSlot.lean ====
section
/-! SUPPORT. What the operations of Machine/DSlot.lean keep. -/

namespace Sys2Proof.Machine

theorem Run.xEffects_ok {r : Run} (h : r.fab.Ok) (c : Ctx) (slot : Nat) (x : Nat) (new : Option Nat) (oob : Bool) :
    (r.xEffects c slot x new oob).fab.Ok := by
  unfold Run.xEffects
  repeat' first
    | with_reducible assumption | with_reducible apply Fab.ok_ite | with_reducible apply Run.put_ok
    | with_reducible apply Run.flags_ok | intro _ | split

theorem Fab.ldRead_ok {f : Fab} (h : f.Ok) (en : Nat) (a : Nat) (n : Nat) (t : Nat) : (f.ldRead en a n t).fab.Ok := by
  exact foldr_keeps (fun (x : MemRd) => x.fab.Ok) (fun x a hx => Fab.read_ok hx _ _ _) h

theorem Fab.stWrite_ok {f : Fab} (h : f.Ok) (en : Nat) (a : Nat) (n : Nat) (v : Nat) (t : Nat) (vis : Nat) :
    (f.stWrite en a n v t vis).fab.Ok := by
  exact foldl_keeps (fun (x : MemWr) => x.fab.Ok) (fun x a hx => Fab.engWrite_ok (Fab.ok_mk hx ..) _ _ _ _) h

theorem Run.conflict_ok {r : Run} (h : r.fab.Ok) (c : Ctx) (slot : Nat) (use : List Nat) :
    (r.conflict c slot use).1.fab.Ok := by
  unfold Run.conflict
  repeat' first
    | with_reducible assumption | with_reducible apply Fab.ok_ite | with_reducible apply Fab.confAt_ok
    | with_reducible apply Run.fail_ok | intro _ | split | with_reducible apply Fab.ok_mk

theorem Run.dataErr_ok {r : Run} (h : r.fab.Ok) (c : Ctx) (slot : Nat) (n : Nat) (a : Nat) (dev : Nat) :
    (r.dataErr c slot n a dev).fab.Ok := by
  unfold Run.dataErr
  repeat' first
    | with_reducible assumption | with_reducible apply Fab.ok_ite | with_reducible apply Fab.updEng_ok
    | with_reducible apply Run.fail_ok | intro _ | split | with_reducible apply Fab.ok_mk

theorem Run.portA_ok {r : Run} (h : r.fab.Ok) (c : Ctx) (a : Nat) (n : Nat) (late : Nat) (ld : Bool) (d : Dst) (ext : Nat) :
    (r.portA c a n late ld d ext).fab.Ok := by
  unfold Run.portA
  repeat' first
    | with_reducible assumption | with_reducible apply Fab.updEng_ok | intro _ | split | with_reducible apply Fab.ok_mk

theorem Run.imUse_ok {r : Run} (h : r.fab.Ok) (c : Ctx) (use : List Nat) (at_ : Nat) (kind : Nat) :
    (r.imUse c use at_ kind).fab.Ok := by
  unfold Run.imUse
  repeat' first
    | with_reducible assumption | with_reducible apply Fab.updEng_ok | intro _ | with_reducible apply Fab.ok_mk

theorem Run.load_ok {r : Run} (h : r.fab.Ok) (c : Ctx) (slot : Nat) (n : Nat) (sg : Bool) (toN : Bool) (rot : Bool) (d : Nat) (am : Addr) :
    (r.load c slot n sg toN rot d am).fab.Ok := by
  delta Run.load
  extract_lets ea a r1 r2 use k r3 lat m r4 dst r5
  have h1 : r1.fab.Ok := by with_reducible exact Fab.ok_run h
  have h2 : r2.fab.Ok := by with_reducible exact Run.xEffects_ok h1 _ _ _ _ _
  have h3 : r3.fab.Ok := by with_reducible exact Run.conflict_ok h2 _ _ _
  have h4 : r4.fab.Ok := by with_reducible exact Fab.ok_run (Fab.ldRead_ok h3 _ _ _ _)
  have h5 : r5.fab.Ok := by with_reducible exact Run.imUse_ok (Run.portA_ok h4 _ _ _ _ _ _ _) _ _ _ _
  clear_value r5 r4 m r3
  with_reducible refine Fab.ok_iterun (fun _ => Run.trap_ok h1 _ _ _) (fun _ => Fab.ok_iterun (fun _ => h3) (fun _ => ?_))
  split
  · with_reducible exact Run.dataErr_ok h5 _ _ _ _ _
  · with_reducible exact Run.put_ok h5 _ _ _ _ _

theorem Run.store_ok {r : Run} (h : r.fab.Ok) (c : Ctx) (slot : Nat) (n : Nat) (toN : Bool) (rot : Bool) (d : Nat) (am : Addr) :
    (r.store c slot n toN rot d am).fab.Ok := by
  delta Run.store
  extract_lets ea a r1 r2 use k r3 v vis at_ r4 r5
  have h1 : r1.fab.Ok := by with_reducible exact Fab.ok_run h
  have h2 : r2.fab.Ok := by with_reducible exact Run.xEffects_ok h1 _ _ _ _ _
  have h3 : r3.fab.Ok := by with_reducible exact Run.conflict_ok h2 _ _ _
  have h4 : r4.fab.Ok := by
    clear_value r3
    dsimp only [r4]
    split
    · with_reducible exact Fab.ok_run (Fab.updEng_ok h3 _ _)
    · with_reducible exact Fab.ok_run (Fab.updEng_ok h3 _ _)
    · with_reducible exact h3
  have h5 : r5.fab.Ok := by with_reducible exact Run.portA_ok h4 _ _ _ _ _ _ _
  clear_value r5 r4 r3
  with_reducible exact Fab.ok_iterun (fun _ => Run.trap_ok h1 _ _ _) (fun _ => Fab.ok_iterun (fun _ => h3)
    (fun _ => Fab.ok_run (Fab.stWrite_ok h5 _ _ _ _ _ _)))

theorem Run.ldrd_ok {r : Run} (h : r.fab.Ok) (c : Ctx) (slot : Nat) (d : Nat) (am : Addr) : (r.ldrd c slot d am).fab.Ok := by
  delta Run.ldrd
  extract_lets ea a r1 m r2
  have h1 : r1.fab.Ok := by with_reducible exact Run.xEffects_ok h _ _ _ _ _
  have h2 : r2.fab.Ok := by with_reducible exact Fab.ok_run (Fab.updEng_ok (Fab.ldRead_ok h1 _ _ _ _) _ _)
  clear_value r2 m
  with_reducible refine Fab.ok_iterun (fun _ => Run.trap_ok h _ _ _) (fun _ => ?_)
  split
  · with_reducible exact Run.dataErr_ok h2 _ _ _ _ _
  · with_reducible exact Run.putA_ok h2 _ _ _ _ _

theorem Run.stcd_ok {r : Run} (h : r.fab.Ok) (c : Ctx) (slot : Nat) (d : Nat) (am : Addr) : (r.stcd c slot d am).fab.Ok := by
  delta Run.stcd
  extract_lets ea a r1 e ok r2 m r3
  have h1 : r1.fab.Ok := by with_reducible exact Run.xEffects_ok h _ _ _ _ _
  have h2 : r2.fab.Ok := by with_reducible exact Fab.ok_run (Fab.setEng_ok h1 _ _)
  have h3 : r3.fab.Ok := by with_reducible exact Fab.ok_run (Fab.stWrite_ok h2 _ _ _ _ _ _)
  clear_value r3 m r2
  with_reducible exact Fab.ok_iterun (fun _ => Run.trap_ok h _ _ _) (fun _ => Fab.ok_iterun
    (fun _ => Fab.ok_iterun (fun _ => Run.dataErr_ok h3 _ _ _ _ _) (fun _ => Run.putA_ok h3 _ _ _ _ _))
    (fun _ => Run.putA_ok h2 _ _ _ _ _))

theorem Fab.launch_ok {f : Fab} (h : f.Ok) (p : Nat) (u : Put) : (f.launch p u).Ok := by
  unfold Fab.launch
  repeat' first
    | with_reducible assumption | with_reducible apply Fab.ok_ite | with_reducible apply Fab.ok_foldl | intro _ | split
    | with_reducible apply Fab.ok_mk

theorem Run.putOp_ok {r : Run} (h : r.fab.Ok) (c : Ctx) (slot : Nat) (n : Nat) (toN : Bool) (d : Nat) (am : Addr) :
    (r.putOp c slot n toN d am).fab.Ok := by
  delta Run.putOp
  extract_lets ea a g tgt r1 v
  clear_value tgt
  split
  · extract_lets far vis u
    have h1 : r1.fab.Ok := by with_reducible exact Run.xEffects_ok h _ _ _ _ _
    with_reducible exact Fab.ok_iterun (fun _ => Run.trap_ok h _ _ _) (fun _ => Fab.ok_run (Fab.launch_ok h1 _ _))
  · with_reducible exact Run.trap_ok h _ _ _

theorem Run.farLoad_ok {r : Run} (h : r.fab.Ok) (c : Ctx) (slot : Nat) (n : Nat) (toN : Bool) (d : Nat) (am : Addr) :
    (r.farLoad c slot n toN d am).fab.Ok := by
  delta Run.farLoad
  extract_lets ea a r1 l
  split
  · with_reducible exact Run.trap_ok h _ _ _
  · have h1 : r1.fab.Ok := by with_reducible exact Run.xEffects_ok h _ _ _ _ _
    with_reducible exact Fab.ok_iterun (fun _ => Run.fail_ok h1 _) (fun _ => Fab.ok_run (Fab.updEng_ok h1 _ _))

theorem Run.farStore_ok {r : Run} (h : r.fab.Ok) (c : Ctx) (slot : Nat) (n : Nat) (toN : Bool) (d : Nat) (am : Addr) :
    (r.farStore c slot n toN d am).fab.Ok := by
  delta Run.farStore
  extract_lets ea a r1 v fb
  split
  · with_reducible exact Run.trap_ok h _ _ _
  · have h1 : r1.fab.Ok := by with_reducible exact Run.xEffects_ok h _ _ _ _ _
    with_reducible exact Fab.ok_run (Fab.ok_mk h1 ..)

theorem Run.execD_ok {r : Run} (h : r.fab.Ok) (c : Ctx) (slot : Nat) (o : DOp) : (r.execD c slot o).fab.Ok := by
  delta Run.execD
  cases o
  case load => with_reducible exact Run.load_ok h _ _ _ _ _ _ _ _
  case store => with_reducible exact Run.store_ok h _ _ _ _ _ _ _
  case xset => with_reducible exact Run.put_ok h _ _ _ _ _
  case xget => with_reducible exact Run.putA_ok h _ _ _ _ _
  case xmod => with_reducible exact Run.xEffects_ok h _ _ _ _ _
  case imsync => with_reducible exact Fab.ok_run (Fab.updEng_ok h _ _)
  case qput => with_reducible exact Fab.ok_run (Fab.updEng_ok h _ _)
  case qget => with_reducible exact Run.put_ok h _ _ _ _ _
  case ldrd => with_reducible exact Run.ldrd_ok h _ _ _ _
  case stcd => with_reducible exact Run.stcd_ok h _ _ _ _
  case put => with_reducible exact Run.putOp_ok h _ _ _ _ _ _
  case farLoad => with_reducible exact Run.farLoad_ok h _ _ _ _ _ _
  case farStore => with_reducible exact Run.farStore_ok h _ _ _ _ _ _

end Sys2Proof.Machine
end

