-- ==== Sys2Proof/Laws/KeepBundle.lean ====
section
/-! SUPPORT. What the operations of Machine/Bundle.lean keep. -/

namespace Sys2Proof.Machine

theorem Fab.applyEcs_ok {f : Fab} (h : f.Ok) (en : Nat) (now : Nat) (ok : EcsWr → Bool) : (f.applyEcs en now ok).Ok := by
  unfold Fab.applyEcs
  repeat' first
    | with_reducible assumption | with_reducible apply Fab.ok_ite | with_reducible apply Fab.ok_foldl
    | with_reducible apply Fab.set_ok | with_reducible apply Fab.setEng_ok | with_reducible apply Fab.updEng_ok
    | with_reducible apply Fab.ecsWrite_ok | intro _ | split | with_reducible apply Fab.ok_mk

theorem Fab.crossTrigger_ok {f : Fab} (h : f.Ok) (en : Nat) : (f.crossTrigger en).Ok := by
  unfold Fab.crossTrigger
  repeat' first
    | with_reducible assumption | with_reducible apply Fab.ok_ite | with_reducible apply Fab.ok_foldl
    | with_reducible apply Fab.updEng_ok | intro _ | split | with_reducible apply Fab.ok_mk

theorem Fab.perfSync_ok {f : Fab} (h : f.Ok) (en : Nat) (i : Nat) : (f.perfSync en i).Ok := by
  unfold Fab.perfSync
  repeat' first
    | with_reducible assumption | with_reducible apply Fab.ok_ite | with_reducible apply Fab.perfTo_ok | intro _ | split

theorem Fab.perfHalt_ok {f : Fab} (h : f.Ok) (en : Nat) : (f.perfHalt en).Ok := by
  unfold Fab.perfHalt
  repeat' first
    | with_reducible assumption | with_reducible apply Fab.perfTo_ok | intro _

theorem Fab.haltEng_ok {f : Fab} (h : f.Ok) (en : Nat) (cause : Nat) (brk : Nat) (pc : Nat) :
    (f.haltEng en cause brk pc).Ok := by
  unfold Fab.haltEng
  repeat' first
    | with_reducible assumption | with_reducible apply Fab.ok_ite | with_reducible apply Fab.set_ok
    | with_reducible apply Fab.updEng_ok | with_reducible apply Fab.crossTrigger_ok
    | with_reducible apply Fab.perfHalt_ok | intro _ | split

theorem Fab.lockTrap_ok {f : Fab} (h : f.Ok) (en : Nat) (x : Trap) (now : Nat) : (f.lockTrap en x now).Ok := by
  delta Fab.lockTrap
  extract_lets f1
  have h1 : f1.Ok := Fab.updEng_ok h _ _
  clear_value f1
  split
  · exact Fab.failInterval_ok h1 _ _ _ _
  · exact h1

theorem Fab.lockDataErrs_ok {f : Fab} (h : f.Ok) (en : Nat) (t : Nat) : (f.lockDataErrs en t).Ok := by
  unfold Fab.lockDataErrs
  repeat' first
    | with_reducible assumption | with_reducible apply Fab.ok_foldl | with_reducible apply Fab.setEng_ok
    | with_reducible apply Fab.lockTrap_ok | intro _ | with_reducible apply Fab.ok_mk

theorem Fab.plan_ok {f : Fab} (h : f.Ok) (en : Nat) : (f.plan en).fab.Ok := by
  delta Fab.plan
  extract_lets f1 f2 e fx b c g t0
  have h1 : f1.Ok := by with_reducible exact Fab.updEng_ok h _ _
  have h2 : f2.Ok := by with_reducible exact Fab.applyEcs_ok h1 _ _ _
  have h3 : fx.fab.Ok := by with_reducible exact Fab.fetchBundle_ok h2 _
  have h4 : c.2.2.2.2.Ok := by
    have h5 := fun s t u => Fab.fetchConst_ok h3 en s t u
    with_reducible exact Fab.ok_itek (fun _ => Fab.ok_pk h3) (fun _ => h5 _ _ _)
  clear_value c
  with_reducible exact Fab.ok_plan h4

theorem Run.slots_ok {r : Run} (h : r.fab.Ok) (c : Ctx) (l : List Slot) : (r.slots c l).fab.Ok := by
  delta Run.slots
  refine foldl_keeps (fun (x : Run) => x.fab.Ok) (fun x s hx => ?_) h
  rcases s.op with o | o | o | o
  · with_reducible exact Run.execN_ok hx _ _ _
  · with_reducible exact Run.execA_ok hx _ _ _
  · with_reducible exact Run.execM_ok hx _ _ _
  · with_reducible exact Run.execD_ok hx _ _ _

theorem Run.callWrite_ok {r : Run} (h : r.fab.Ok) (c : Ctx) (b : Bundle) : (r.callWrite c b).fab.Ok := by
  unfold Run.callWrite
  repeat' first
    | with_reducible assumption | with_reducible apply Fab.ok_ite | with_reducible apply Run.put_ok | intro _ | split

theorem Plan.trapDecode_ok {f : Fab} (h : f.Ok) (p : Plan) (en : Nat) (t : Nat) (lock : Bool) (d : Nat × Nat × Nat) :
    (Plan.trapDecode p f en t lock d).Ok := by
  unfold Plan.trapDecode
  repeat' first
    | with_reducible assumption | with_reducible apply Fab.ok_ite | with_reducible apply Fab.updEng_ok
    | with_reducible apply Run.trap_ok | with_reducible apply Fab.lockTrap_ok | intro _ | split
    | with_reducible apply Fab.ok_mk

theorem Plan.run_ok {f : Fab} (h : f.Ok) (p : Plan) (en : Nat) (t : Nat) (lock : Bool) : (Plan.run p f en t lock).fab.Ok := by
  unfold Plan.run
  repeat' first
    | with_reducible assumption | with_reducible apply Fab.setEng_ok | with_reducible apply Run.slots_ok
    | with_reducible apply Run.callWrite_ok | intro _

theorem Plan.issue_ok {f : Fab} (h : f.Ok) (p : Plan) (en : Nat) (t : Nat) (lock : Bool) : (Plan.issue p f en t lock).Ok := by
  delta Plan.issue
  extract_lets c e0 b r s hdr swbrk sys dcend rte extra nextT on touched fails trap seqA nf f1 f2 f3 f4
  have h0 : r.fab.Ok := by with_reducible exact Plan.run_ok h _ _ _ _
  clear_value r
  clear_value s
  split
  · with_reducible exact Plan.trapDecode_ok h _ _ _ _ _
  · have h1 : f1.Ok := by with_reducible exact Fab.updEng_ok h0 _ _
    have h2 : f2.Ok := by
      clear_value f1 trap
      dsimp only [f2]
      split
      · split
        · with_reducible exact Fab.lockTrap_ok h1 _ _ _
        · with_reducible exact h1
      · with_reducible exact Fab.updEng_ok h1 _ _
    have h3 : f3.Ok := by
      with_reducible exact Fab.ok_ite (fun _ => Fab.ok_ite (fun _ => Fab.crossTrigger_ok (Fab.updEng_ok h2 _ _) _)
        (fun _ => Fab.haltEng_ok h2 _ _ _ _)) (fun _ => h2)
    have h4 : f4.Ok := by
      with_reducible exact Fab.ok_ite (fun _ => Fab.updEng_ok h3 _ _) (fun _ => Fab.ok_ite (fun _ => Fab.haltEng_ok h3 _ _ _ _) (fun _ => h3))
    clear_value f4
    split
    · with_reducible exact Fab.journalEvents_ok (Fab.ok_foldl (fun g x hg => Fab.failInterval_ok hg _ _ _ _) h4) _ _
    · with_reducible exact h4

theorem Plan.arrive_ok {p : Plan} (h : p.fab.Ok) (en : Nat) (t : Nat) : (p.arrive en t).Ok := by
  unfold Plan.arrive
  repeat' first
    | with_reducible assumption | with_reducible apply Fab.ok_ite | with_reducible apply Fab.updEng_ok
    | with_reducible apply Fab.perfTo_ok | with_reducible apply Fab.applyEcs_ok | intro _ | split
    | with_reducible apply Fab.ok_mk

theorem Fab.failOf_ok {f : Fab} (h : f.Ok) (en : Nat) (cause : Nat) (now : Nat) : (f.failOf en cause now).Ok := by
  unfold Fab.failOf
  repeat' first
    | with_reducible assumption | with_reducible apply Fab.failInterval_ok | intro _ | split

theorem Fab.holdYield_ok {f : Fab} (h : f.Ok) (en : Nat) (t : Nat) (ms : List Nat) : (f.holdYield en t ms).Ok := by
  unfold Fab.holdYield
  repeat' first
    | with_reducible assumption | with_reducible apply Fab.ok_foldl | with_reducible apply Fab.updEng_ok
    | with_reducible apply Fab.free_ok | with_reducible apply Fab.testYield_ok | with_reducible apply Fab.confBump_ok
    | with_reducible apply Fab.perfPut_ok | intro _ | with_reducible apply Fab.ok_mk

theorem Fab.lockYield_ok {f : Fab} (h : f.Ok) (en : Nat) (t : Nat) (hit : Bool) : (f.lockYield en t hit).Ok := by
  unfold Fab.lockYield
  repeat' first
    | with_reducible assumption | with_reducible apply Fab.ok_ite | with_reducible apply Fab.testYield_ok
    | with_reducible apply Fab.failOf_ok | intro _ | split

theorem Fab.bundleIssue_ok {f : Fab} (h : f.Ok) (en : Nat) : (f.bundleIssue en).Ok := by
  delta Fab.bundleIssue
  extract_lets e lock f0 f1 p
  with_reducible refine Fab.ok_ite (fun _ => h) (fun _ => ?_)
  split
  · with_reducible exact Fab.haltEng_ok h _ _ _ _
  · have h1 : f1.Ok := by with_reducible exact Fab.ok_ite (fun _ => Fab.crossTrigger_ok (Fab.updEng_ok h _ _) _) (fun _ => h)
    have hp : p.fab.Ok := by with_reducible exact Fab.plan_ok h1 _
    clear_value p f1
    have hg : ∀ t, (p.arrive en t).Ok := fun t => by with_reducible exact Plan.arrive_ok hp _ _
    split
    · with_reducible exact Fab.updEng_ok h1 _ _
    · with_reducible exact h1
    · with_reducible refine Fab.ok_ite (fun _ => ?_) (fun _ => ?_)
      · split
        · with_reducible exact Fab.updEng_ok h1 _ _
        · with_reducible exact h1
      · extract_lets g g1 g2
        have hG : g.Ok := hg _
        have hG1 : g1.Ok := by with_reducible exact Fab.ok_ite (fun _ => Fab.lockDataErrs_ok hG _ _) (fun _ => hG)
        have hG2 : g2.Ok := by with_reducible exact Fab.lockYield_ok hG1 _ _ _
        clear_value g2 g1 g
        with_reducible refine Fab.ok_ite (fun _ => hG) (fun _ => Fab.ok_ite (fun _ => hG1) (fun _ => Fab.ok_ite (fun _ => h)
          (fun _ => Fab.ok_ite (fun _ => Fab.holdYield_ok h1 _ _ _) (fun _ => ?_))))
        split
        · with_reducible exact Fab.ok_ite (fun _ => Fab.updEng_ok hG2 _ _) (fun _ => Plan.issue_ok hG2 _ _ _ _)
        · with_reducible exact Plan.issue_ok hG2 _ _ _ _

theorem Fab.issued_ok {f : Fab} (h : f.Ok) (e : Nat) : (f.issued e).Ok := by
  unfold Fab.issued
  repeat' first
    | with_reducible assumption | with_reducible apply Fab.seen_ok | with_reducible apply Fab.barrierOf_ok | intro _
    | split

end Sys2Proof.Machine
end

