-- ==== Sys2Proof/Laws/KeepTrap.lean ====
section
/-! SUPPORT. What the operations of Machine/Trap.lean keep. -/

namespace Sys2Proof.Machine

theorem Fab.doubleFault_ok {f : Fab} (h : f.Ok) (en : Nat) (b : Nat) : (f.doubleFault en b).Ok := by
  unfold Fab.doubleFault
  repeat' first
    | with_reducible assumption | with_reducible apply Fab.set_ok | with_reducible apply Fab.updEng_ok
    | with_reducible apply Fab.raise_ok | with_reducible apply Fab.failInterval_ok
    | with_reducible apply Fab.holdCheck_ok | with_reducible apply Run.trap_ok | intro _ | split
    | with_reducible apply Fab.ok_mk

theorem Fab.enter_ok {f : Fab} (h : f.Ok) (en : Nat) (x : Trap) : (f.enter en x).Ok := by
  unfold Fab.enter
  repeat' first
    | with_reducible assumption | with_reducible apply Fab.ok_ite | with_reducible apply Fab.set_ok
    | with_reducible apply Fab.updEng_ok | with_reducible apply Fab.perfTo_ok | with_reducible apply Run.trap_ok
    | with_reducible apply Fab.applyEcs_ok | with_reducible apply Fab.haltEng_ok
    | with_reducible apply Fab.doubleFault_ok | intro _ | split | with_reducible apply Fab.ok_mk

theorem Fab.trapEntry_ok {f : Fab} (h : f.Ok) (en : Nat) : (f.trapEntry en).Ok := by
  unfold Fab.trapEntry
  repeat' first
    | with_reducible assumption | with_reducible apply Fab.ok_ite | with_reducible apply Fab.setEng_ok
    | with_reducible apply Run.trap_ok | with_reducible apply Fab.enter_ok | intro _ | split
    | with_reducible apply Fab.ok_mk

theorem Fab.interruptEntry_ok {f : Fab} (h : f.Ok) (en : Nat) (b : Nat) : (f.interruptEntry en b).Ok := by
  unfold Fab.interruptEntry
  repeat' first
    | with_reducible assumption | with_reducible apply Fab.ok_ite | with_reducible apply Run.trap_ok
    | with_reducible apply Fab.applyEcs_ok | with_reducible apply Fab.enter_ok | intro _ | split

theorem Fab.rteReturn_ok {f : Fab} (h : f.Ok) (en : Nat) : (f.rteReturn en).Ok := by
  unfold Fab.rteReturn
  repeat' first
    | with_reducible assumption | with_reducible apply Fab.ok_ite | with_reducible apply Fab.set_ok
    | with_reducible apply Fab.updEng_ok | with_reducible apply Fab.holdCheck_ok | with_reducible apply Fab.perfTo_ok
    | with_reducible apply Run.trap_ok | with_reducible apply Run.quince_ok | with_reducible apply Fab.applyEcs_ok
    | with_reducible apply Fab.haltEng_ok | intro _ | split | with_reducible apply Fab.ok_mk

theorem Fab.quinceResult_ok {f : Fab} (h : f.Ok) (en : Nat) : (f.quinceResult en).Ok := by
  unfold Fab.quinceResult
  repeat' first
    | with_reducible assumption | with_reducible apply Fab.setEng_ok | with_reducible apply Run.trap_ok
    | with_reducible apply Run.quince_ok | with_reducible apply Fab.lockTrap_ok | intro _ | split
    | with_reducible apply Fab.ok_mk

theorem Fab.meetFar_ok {f : Fab} (h : f.Ok) (en : Nat) (a : Nat) (at_ : Nat) : (f.meetFar en a at_).Ok := by
  unfold Fab.meetFar
  repeat' first
    | with_reducible assumption | with_reducible apply Fab.ok_ite | with_reducible apply Fab.lockYield_ok
    | with_reducible apply Fab.confWait_ok | with_reducible apply Fab.testYield_ok | intro _ | split

theorem Fab.farLoadResult_ok {f : Fab} (h : f.Ok) (en : Nat) (idx : Nat) (at_ : Nat) : (f.farLoadResult en idx at_).Ok := by
  unfold Fab.farLoadResult
  repeat' first
    | with_reducible assumption | with_reducible apply Fab.ok_ite | with_reducible apply Fab.set_ok
    | with_reducible apply Fab.updEng_ok | with_reducible apply Fab.read_ok | with_reducible apply Fab.failInterval_ok
    | with_reducible apply Fab.meetFar_ok | intro _ | split | with_reducible apply Fab.ok_mk

theorem Fab.farStorePerformed_ok {f : Fab} (h : f.Ok) (idx : Nat) (at_ : Nat) : (f.farStorePerformed idx at_).Ok := by
  unfold Fab.farStorePerformed
  repeat' first
    | with_reducible assumption | with_reducible apply Fab.ok_ite | with_reducible apply Fab.journalEvents_ok
    | with_reducible apply Fab.engWrite_ok | with_reducible apply Fab.barrierTry_ok | with_reducible apply Fab.meetFar_ok
    | intro _ | split | with_reducible apply Fab.ok_mk

theorem Fab.portB_ok {f : Fab} (h : f.Ok) (tgt : Nat) (at_ : Nat) : (f.portB tgt at_).2.Ok := by
  delta Fab.portB
  extract_lets n
  clear_value n
  split
  · exact h
  · split <;> exact h

theorem Fab.busy_ok {f : Fab} (h : f.Ok) (u : Put) : (f.busy u).Ok := by
  unfold Fab.busy
  repeat' first
    | with_reducible assumption | with_reducible apply Fab.set_ok | with_reducible apply Fab.updEng_ok | intro _ | split

theorem Fab.collide_ok {f : Fab} (h : f.Ok) (u : Put) (s : Nat) : (f.collide u s).1.Ok := by
  delta Fab.collide
  extract_lets e lo n hits r lds e1 e2 r2 e3 e4
  have h1 : r2.2.Ok := Fab.free_ok (Fab.free_ok h _) _
  clear_value r2 e4
  split
  · exact h
  · with_reducible exact Fab.setEng_ok h1 _ _

theorem Fab.putData_ok {f : Fab} (h : f.Ok) (u : Put) : (f.putData u).Ok := by
  unfold Fab.putData
  repeat' first
    | with_reducible assumption | with_reducible apply Fab.ok_ite | with_reducible apply Fab.poison_ok
    | with_reducible apply Fab.write_ok | intro _ | split

theorem Fab.meetPut_ok {f : Fab} (h : f.Ok) (en : Nat) (s : Nat) : (f.meetPut en s).Ok := by
  unfold Fab.meetPut
  repeat' first
    | with_reducible assumption | with_reducible apply Fab.ok_ite | with_reducible apply Fab.free_ok
    | with_reducible apply Fab.testYield_ok | with_reducible apply Fab.confBump_ok
    | with_reducible apply Fab.lockYield_ok | intro _ | split

theorem Fab.land_ok {f : Fab} (h : f.Ok) (u : Put) (s : Nat) (late : Bool) : (f.land u s late).Ok := by
  unfold Fab.land
  repeat' first
    | with_reducible assumption | with_reducible apply Fab.ok_ite | with_reducible apply Fab.updEng_ok
    | with_reducible apply Fab.failOf_ok | with_reducible apply Fab.busy_ok | with_reducible apply Fab.collide_ok
    | with_reducible apply Fab.putData_ok | intro _ | split

theorem Fab.bviol_ok {f : Fab} (h : f.Ok) (router : Nat) (input : Nat) : (f.bviol router input).Ok := by
  unfold Fab.bviol
  repeat' first
    | with_reducible assumption | with_reducible apply Fab.ok_ite | with_reducible apply Fab.set_ok
    | with_reducible apply Fab.stick_ok | intro _ | split

theorem Fab.failPut_ok {f : Fab} (h : f.Ok) (u : Put) (now : Nat) : (f.failPut u now).Ok := by
  unfold Fab.failPut
  repeat' first
    | with_reducible assumption | with_reducible apply Fab.failInterval_ok | intro _ | split

theorem Fab.arrivePut_ok {f : Fab} (h : f.Ok) (u : Put) : (f.arrivePut u).Ok := by
  delta Fab.arrivePut
  have h1 := Fab.portB_ok h u.tgt u.vis
  generalize f.portB u.tgt u.vis = r at *
  dsimp only
  split
  · with_reducible exact Fab.failPut_ok (Fab.busy_ok (Fab.bviol_ok h _ _) _) _ _
  · with_reducible refine Fab.ok_ite (fun _ => Fab.emit_ok h _) (fun _ => ?_)
    split
    · with_reducible exact Fab.land_ok (Fab.meetPut_ok h1 _ _) _ _ _
    · with_reducible exact Fab.failOf_ok (Fab.busy_ok h1 _) _ _ _

theorem Fab.putVisible_ok {f : Fab} (h : f.Ok) (idx : Nat) : (f.putVisible idx).Ok := by
  unfold Fab.putVisible
  repeat' first
    | with_reducible assumption | with_reducible apply Fab.ok_ite | with_reducible apply Fab.drainSq_ok
    | with_reducible apply Fab.barrierTry_ok | with_reducible apply Fab.arrivePut_ok | intro _ | split
    | with_reducible apply Fab.ok_mk

theorem Fab.perfWrap_ok {f : Fab} (h : f.Ok) (en : Nat) (k : Nat) (n : Nat) : (f.perfWrap en k n).Ok := by
  delta Fab.perfWrap
  with_reducible exact Fab.ok_ite (fun _ => Fab.perfBump_ok h _ _ _) (fun _ => h)

end Sys2Proof.Machine
end

