-- ==== Sys2Proof/Laws/KeepBoundary.lean ====
section
/-! SUPPORT. What the operations of Machine/Boundary.lean keep. -/

namespace Sys2Proof.Machine

theorem Fab.readyCheck_ok {f : Fab} (h : f.Ok) (p : Nat) (now : Nat) : (f.readyCheck p now).Ok := by
  unfold Fab.readyCheck
  repeat' first
    | with_reducible assumption | with_reducible apply Fab.ok_ite | with_reducible apply Fab.updSh_ok
    | with_reducible apply Fab.combineReady_ok | with_reducible apply Fab.holdCheck_ok | intro _ | split
    | with_reducible apply Fab.ok_mk

theorem Fab.mergeBytes_ok {f : Fab} (h : f.Ok) (a : Nat) (n : Nat) (mask : Nat) (data : Nat) :
    (f.mergeBytes a n mask data).1.Ok := by
  have h1 := Fab.read_ok h 2 a n
  unfold Fab.mergeBytes
  generalize f.read 2 a n = r at *
  dsimp only
  split
  · exact h
  · split
    · with_reducible exact Fab.write_ok h _ _ _ _
    · split
      · exact h1
      · with_reducible exact Fab.write_ok h1 _ _ _ _

theorem Fab.mergeRow_ok {f : Fab} (h : f.Ok) (a : Nat) (mask : Nat) (data : Nat) : (f.mergeRow a mask data).1.Ok := by
  unfold Fab.mergeRow
  repeat' first
    | with_reducible assumption | with_reducible apply Fab.mergeBytes_ok | intro _

theorem Fab.cmdRow_ok {f : Fab} (h : f.Ok) (p : Nat) (a : Nat) (mask : Nat) (data : Nat) : (f.cmdRow p a mask data).Ok := by
  unfold Fab.cmdRow
  repeat' first
    | with_reducible assumption | with_reducible apply Fab.ok_ite | with_reducible apply Fab.updSh_ok
    | with_reducible apply Fab.mergeRow_ok | intro _ | split | with_reducible apply Fab.ok_mk

theorem Fab.applyCmd_ok {f : Fab} (h : f.Ok) (p : Nat) (c : Cmd) : (f.applyCmd p c).Ok := by
  unfold Fab.applyCmd
  repeat' first
    | with_reducible assumption | with_reducible apply Fab.ok_ite | with_reducible apply Fab.ok_foldl
    | with_reducible apply Fab.updSh_ok | with_reducible apply Fab.journalRow_ok | with_reducible apply Fab.cmdRow_ok
    | intro _ | split | with_reducible apply Fab.ok_mk

theorem Fab.takeCmds_ok {f : Fab} (h : f.Ok) (p : Nat) (m : Nat) (n0 : Nat) : (f.takeCmds p m n0).Ok := by
  induction n0 generalizing f p m with
  | zero => exact h
  | succ _ ih =>
    unfold Fab.takeCmds
    repeat' first
    | with_reducible assumption | apply ih
    | with_reducible apply Fab.ok_ite
    | with_reducible apply Fab.set_ok
    | with_reducible apply Fab.updSh_ok
    | with_reducible apply Fab.raise_ok
    | with_reducible apply Fab.ringRead_ok
    | with_reducible apply Fab.ringWrite_ok
    | with_reducible apply Fab.ilogAppend_ok
    | with_reducible apply Fab.applyCmd_ok
    | intro _
    | split
    | with_reducible apply Fab.ok_mk

theorem Fab.redoCmds_ok {f : Fab} (h : f.Ok) (p : Nat) (m : Nat) : (f.redoCmds p m).Ok := by
  unfold Fab.redoCmds
  repeat' first
    | with_reducible assumption | with_reducible apply Fab.ok_ite | with_reducible apply Fab.ok_foldl
    | with_reducible apply Fab.ilogAppend_ok | with_reducible apply Fab.applyCmd_ok | intro _ | split

theorem Fab.applyForces_ok {f : Fab} (h : f.Ok) (p : Nat) : (f.applyForces p).1.Ok := by
  exact foldl_keeps (fun (x : Fab × Bool) => Fab.Ok x.1) (fun x i hx => by with_reducible exact Fab.mergeRow_ok hx _ _ _) h

theorem Fab.releaseStart_ok {f : Fab} (h : f.Ok) (en : Nat) (t : Nat) : (f.releaseStart en t).Ok := by
  unfold Fab.releaseStart
  repeat' first
    | with_reducible assumption | with_reducible apply Fab.ok_ite | with_reducible apply Fab.set_ok
    | with_reducible apply Fab.updEng_ok | with_reducible apply Fab.perfTo_ok | intro _ | split

theorem Fab.releaseEntry_ok {f : Fab} (h : f.Ok) (en : Nat) (t : Nat) : (f.releaseEntry en t).Ok := by
  unfold Fab.releaseEntry
  repeat' first
    | with_reducible assumption | with_reducible apply Fab.updEng_ok | with_reducible apply Fab.perfTo_ok | intro _

theorem Fab.releaseEng_ok {f : Fab} (h : f.Ok) (k : RelKind) (t : Nat) (en : Nat) : (f.releaseEng k t en).Ok := by
  unfold Fab.releaseEng
  repeat' first
    | with_reducible assumption | with_reducible apply Fab.ok_ite | with_reducible apply Fab.releaseStart_ok
    | with_reducible apply Fab.releaseEntry_ok | intro _ | split

theorem Fab.restoreLate_ok {f : Fab} (h : f.Ok) (p : Nat) (t : Nat) : (f.restoreLate p t).Ok := by
  unfold Fab.restoreLate
  repeat' first
    | with_reducible assumption | with_reducible apply Fab.ok_ite | with_reducible apply Fab.updSh_ok
    | with_reducible apply Fab.sendUp_ok | with_reducible apply Fab.rootRollback_ok | intro _ | split
    | with_reducible apply Fab.ok_mk

theorem Fab.release_ok {f : Fab} (h : f.Ok) (p : Nat) (t : Nat) (restored : Bool) : (f.release p t restored).Ok := by
  unfold Fab.release
  repeat' first
    | with_reducible assumption | with_reducible apply Fab.ok_ite | with_reducible apply Fab.ok_foldl
    | with_reducible apply Fab.set_ok | with_reducible apply Fab.updSh_ok | with_reducible apply Fab.seen_ok
    | with_reducible apply Fab.clearPorts_ok | with_reducible apply Fab.rollback_ok
    | with_reducible apply Fab.failInterval_ok | with_reducible apply Fab.journalEvents_ok
    | with_reducible apply Fab.takeCmds_ok | with_reducible apply Fab.redoCmds_ok
    | with_reducible apply Fab.applyForces_ok | with_reducible apply Fab.releaseEng_ok
    | with_reducible apply Fab.restoreLate_ok | intro _ | split | with_reducible apply Fab.ok_mk

theorem Fab.stimRows_ok {f : Fab} (h : f.Ok) (p : Nat) (off : Nat) (hd : StimHdr) : (f.stimRows p off hd).Ok := by
  have h1 : (f.ringRead p 0 (f.ringAdv p 0 off 32) (32 * hd.nrows)).fab.Ok := by with_reducible exact Fab.ringRead_ok h _ _ _ _
  delta Fab.stimRows
  with_reducible exact Fab.ok_ite (fun _ => h1) (fun _ => Fab.write_ok h1 _ _ _ _)

theorem Fab.stimulusWrite_ok {f : Fab} (h : f.Ok) (p : Nat) : (f.stimulusWrite p).Ok := by
  unfold Fab.stimulusWrite
  repeat' first
    | with_reducible assumption | with_reducible apply Fab.ok_ite | with_reducible apply Fab.set_ok
    | with_reducible apply Fab.updSh_ok | with_reducible apply Fab.ringRead_ok | with_reducible apply Fab.ilogAppend_ok
    | with_reducible apply Fab.stimRows_ok | intro _ | split | with_reducible apply Fab.ok_mk

theorem Fab.copyNext_ok {f : Fab} (h : f.Ok) (en : Nat) (live : Nat) : (f.copyNext en live).1.Ok := by
  delta Fab.copyNext
  refine foldl_keeps (fun (x : Fab × Bool) => Fab.Ok x.1) (fun x i hx => ?_) h
  extract_lets mask r m
  have h1 : r.fab.Ok := by with_reducible exact Fab.read_ok hx _ _ _
  have h2 : m.1.Ok := by with_reducible exact Fab.mergeBytes_ok h1 _ _ _ _
  clear_value m r mask
  with_reducible refine Fab.ok_ite1 (fun _ => hx) fun _ => ?_
  with_reducible refine Fab.ok_ite1 (fun _ => Fab.ok_p1 h1) fun _ => ?_
  with_reducible exact Fab.ok_p1 h2

theorem Fab.dropLate_ok {f : Fab} (h : f.Ok) (b : Nat) (en : Nat) : (f.dropLate b en).1.Ok := by
  delta Fab.dropLate
  extract_lets e late base v f1 clear
  have h1 : f1.Ok := by with_reducible exact Fab.ok_foldl (fun g x hg => Fab.write_ok hg _ _ _ _) h
  clear_value f1 v clear
  with_reducible exact Fab.ok_ite1 (fun _ => Fab.ok_p1 h) (fun _ => Fab.ok_p1 (Fab.updEng_ok h1 _ _))

theorem Fab.passBoundary_ok {f : Fab} (h : f.Ok) (b : Nat) (go : Bool) (en : Nat) : (f.passBoundary b go en).Ok := by
  unfold Fab.passBoundary
  repeat' first
    | with_reducible assumption | with_reducible apply Fab.ok_ite | with_reducible apply Fab.updEng_ok
    | with_reducible apply Fab.perfPut_ok | with_reducible apply Fab.perfFlush_ok | with_reducible apply Run.trap_ok
    | intro _ | split | with_reducible apply Fab.ok_mk

theorem Fab.capture_ok {f : Fab} (h : f.Ok) (p : Nat) (n : Nat) : (f.capture p n).1.Ok := by
  delta Fab.capture
  refine foldl_keeps (fun (x : Fab × Bool) => x.1.Ok) (fun x en hx => ?_) h
  extract_lets g w r off g1 off2 r2 sz g2 g3
  all_goals first | exact hx | (with_reducible exact Fab.updSh_ok (Fab.ringWrite_ok (Fab.read_ok hx _ _ _) _ _ _ _ _) _ _)

theorem Fab.endInterval_ok {f : Fab} (h : f.Ok) (p : Nat) (n : Nat) (now : Nat) (clean : Bool) :
    (f.endInterval p n now clean).Ok := by
  delta Fab.endInterval
  extract_lets s k r f1 stop f2 e f3 f4 f5 fr f6 f7 ok rep f8
  have hr : r.1.Ok := foldl_keeps (fun (x : Fab × Bool) => x.1.Ok) (fun x en hx => Fab.copyPage_ok hx _ _ _) h
  have h2 : f2.Ok := by with_reducible exact Fab.updSh_ok hr _ _
  have h3 : f3.Ok := by with_reducible exact Fab.updSh_ok h2 _ _
  have h4 : f4.Ok := by with_reducible exact Fab.redoCmds_ok h3 _ _
  have h5 : f5.Ok := by with_reducible exact Fab.takeCmds_ok h4 _ _ _
  have hf : fr.1.Ok := by with_reducible exact Fab.applyForces_ok h5 _
  clear_value fr
  have h6 : f6.Ok := by with_reducible exact Fab.ok_ite (fun _ => Fab.updSh_ok hf _ _) (fun _ => hf)
  have h7 : f7.Ok := by with_reducible exact Fab.set_ok h6 _ _
  have h8 : f8.Ok := by with_reducible exact Fab.updSh_ok h7 _ _
  clear_value f8
  with_reducible exact Fab.ok_ite (fun _ => Fab.failInterval_ok h8 _ _ _ _) (fun _ => h8)

theorem Fab.boundary_ok {f : Fab} (h : f.Ok) (p : Nat) (b : Nat) : (f.boundary p b).Ok := by
  delta Fab.boundary
  extract_lets n f0 lock acts last stops f1 late f2 stimLate capOn capFull live r0 r1 r2 bad f3 now f4 f5 f6 f7 early f8 r3 fails f9 f10 f11
  with_reducible refine Fab.ok_ite (fun _ => h) (fun _ => ?_)
  split
  · exact h
  · with_reducible exact Fab.updSh_ok (Fab.set_ok (Fab.seen_ok h _ _) _ _) _ _
  · with_reducible exact Fab.updSh_ok (Fab.seen_ok h _ _) _ _
  · have h0 : f0.Ok := by with_reducible exact Fab.seen_ok h _ _
    have h1 : f1.Ok := by
      with_reducible exact Fab.ok_ite (fun _ => Fab.ok_foldl (fun g e hg => Fab.lockDataErrs_ok hg _ _) h0) (fun _ => h0)
    have h2 : f2.Ok := by with_reducible exact Fab.ok_ite (fun _ => Fab.testYield_ok h1) (fun _ => h1)
    have hr0 : r0.1.Ok := foldl_keeps (fun (x : Fab × Bool) => x.1.Ok) (fun x en hx => Fab.dropLate_ok hx _ _) h2
    have hr1 : r1.1.Ok := foldl_keeps (fun (x : Fab × Bool) => x.1.Ok) (fun x en hx => Fab.copyNext_ok hx _ _) hr0
    have hr2 : r2.1.Ok := by with_reducible exact Fab.applyForces_ok hr1 _
    clear_value r2
    have h6 : f6.Ok := by with_reducible exact Fab.updSh_ok (Fab.set_ok (Fab.set_ok hr2 _ _) _ _) _ _
    clear_value f6
    have h7 : f7.Ok := by with_reducible exact Fab.ok_foldl (fun g e hg => Fab.passBoundary_ok hg _ _ _) h6
    have h8 : f8.Ok := by with_reducible exact Fab.ok_ite (fun _ => Fab.endInterval_ok h7 _ _ _ _) (fun _ => h7)
    clear_value f8
    have hr3 : r3.1.Ok := by with_reducible exact Fab.ok_ite1 (fun _ => Fab.capture_ok h8 _ _) (fun _ => Fab.ok_p1 h8)
    clear_value r3
    have h9 : f9.Ok := by with_reducible exact Fab.ok_foldl (fun g c hg => Fab.failInterval_ok hg _ _ _ _) hr3
    clear_value f9
    have h10 : f10.Ok := by with_reducible exact Fab.journalEvents_ok h9 _ _
    have h11 : f11.Ok := by with_reducible exact Fab.ok_ite (fun _ => Fab.combine_ok h10 _ _) (fun _ => h10)
    clear_value f11
    with_reducible exact Fab.ok_ite (fun _ => h1) (fun _ => Fab.holdCheck_ok h11 _ _)

end Sys2Proof.Machine
end

