-- ==== Sys2Proof/Laws/KeepFlit.lean ====
section
/-! SUPPORT. What the operations of Machine/Flit.lean keep. -/

namespace Sys2Proof.Machine

theorem Fab.linkUe_ok {f : Fab} (h : f.Ok) (c : Nat) (now : Nat) : (f.linkUe c now).Ok := by
  delta Fab.linkUe
  extract_lets f1
  have h1 : f1.Ok := by with_reducible exact Fab.stick_ok h _ _
  clear_value f1
  split
  · split
    · with_reducible exact Fab.failInterval_ok h1 _ _ _ _
    · with_reducible exact h1
  · with_reducible exact h

theorem Fab.linkCe_ok {f : Fab} (h : f.Ok) (c : Nat) : (f.linkCe c).Ok := by
  unfold Fab.linkCe
  repeat' first
    | with_reducible assumption | with_reducible apply Fab.ok_ite | with_reducible apply Fab.stick_ok | intro _ | split

theorem Fab.atPos_ok {f : Fab} (h : f.Ok) (c : Nat) (i : Nat) : (f.atPos c i).Ok := by
  unfold Fab.atPos
  repeat' first
    | with_reducible assumption | with_reducible apply Fab.updPort_ok | intro _ | with_reducible apply Fab.ok_mk

theorem Fab.rxCtl_ok {f : Fab} (h : f.Ok) (c : Nat) (now : Nat) (w : Flit) (ty : Nat) : (f.rxCtl c now w ty).2.Ok := by
  have hu := fun (g : Fab) (hg : g.Ok) => Fab.linkUe_ok hg c now
  delta Fab.rxCtl
  split
  · exact h
  · extract_lets f1 r pay f2
    have h1 : f1.Ok := by with_reducible exact Fab.atPos_ok h _ _
    clear_value f1
    have h2 : f2.Ok := by with_reducible exact Fab.ok_ite (fun _ => Fab.linkCe_ok h1 _) (fun _ => h1)
    clear_value f2 pay r
    with_reducible exact Fab.ok_ite2 (fun _ => Fab.ok_p2 (hu _ h1)) (fun _ => Fab.ok_ite2 (fun _ => Fab.ok_p2 (hu _ h1))
      (fun _ => Fab.ok_ite2 (fun _ => Fab.ok_p2 (hu _ h2)) (fun _ => Fab.ok_ite2 (fun _ => Fab.ok_p2 h2) (fun _ => Fab.ok_p2 h2))))

theorem Fab.rxSquare_ok {f : Fab} (h : f.Ok) (c : Nat) (now : Nat) (w : Flit) (ty : Nat) : (f.rxSquare c now w ty).2.Ok := by
  have h1 := Fab.rxCtl_ok h c now w ty
  have hu := Fab.linkUe_ok h1 c now
  unfold Fab.rxSquare
  generalize f.rxCtl c now w ty = r at *
  split
  · exact h
  · dsimp only
    split
    · exact h1
    · split
      · split
        · exact h1
        · exact hu
      · exact hu

end Sys2Proof.Machine
end

