-- ==== Sys2Proof/Laws/KeepSquareCmds.lean ====
section
/-! SUPPORT. What the operations of Machine/SquareCmds.lean keep. -/

namespace Sys2Proof.Machine

theorem Fab.rxFail_ok {f : Fab} (h : f.Ok) (p : Nat) (dcn : Nat) (cause : Nat) (now : Nat) :
    (f.rxFail p dcn cause now).Ok := by
  unfold Fab.rxFail
  repeat' first
    | with_reducible assumption | with_reducible apply Fab.ok_ite | with_reducible apply Fab.updSh_ok
    | with_reducible apply Fab.sendUp_ok | with_reducible apply Fab.rootFail_ok | intro _ | split
    | with_reducible apply Fab.ok_mk

theorem Fab.rxReport_ok {f : Fab} (h : f.Ok) (c : Nat) (now : Nat) (w : Flit) : (f.rxReport c now w).Ok := by
  unfold Fab.rxReport
  repeat' first
    | with_reducible assumption | with_reducible apply Fab.ok_ite | with_reducible apply Fab.updSh_ok
    | with_reducible apply Fab.combine_ok | with_reducible apply Fab.holdCheck_ok | with_reducible apply Run.put_ok
    | with_reducible apply Run.flags_ok | with_reducible apply Fab.rxSquare_ok | with_reducible apply Fab.rxFail_ok
    | with_reducible refine Fab.ok_fst (by with_reducible assumption) ?_
    | with_reducible refine Fab.ok_snd (by with_reducible assumption) ?_
    | with_reducible refine Fab.ok_snd2 (by with_reducible assumption) ?_
    | with_reducible refine Fab.ok_snd4 (by with_reducible assumption) ?_ | intro _ | split
    | with_reducible apply Fab.ok_mk

theorem Fab.rxDecide_ok {f : Fab} (h : f.Ok) (c : Nat) (now : Nat) (w : Flit) : (f.rxDecide c now w).Ok := by
  unfold Fab.rxDecide
  repeat' first
    | with_reducible assumption | with_reducible apply Fab.ok_ite | with_reducible apply Fab.sendDown_ok
    | with_reducible apply Fab.applyDecide_ok | with_reducible apply Run.flags_ok
    | with_reducible apply Fab.readyCheck_ok | with_reducible apply Fab.rxSquare_ok
    | with_reducible refine Fab.ok_fst (by with_reducible assumption) ?_
    | with_reducible refine Fab.ok_snd (by with_reducible assumption) ?_
    | with_reducible refine Fab.ok_snd2 (by with_reducible assumption) ?_
    | with_reducible refine Fab.ok_snd4 (by with_reducible assumption) ?_ | intro _ | split

theorem Fab.rxReady_ok {f : Fab} (h : f.Ok) (c : Nat) (now : Nat) (w : Flit) : (f.rxReady c now w).Ok := by
  unfold Fab.rxReady
  repeat' first
    | with_reducible assumption | with_reducible apply Fab.ok_ite | with_reducible apply Fab.updSh_ok
    | with_reducible apply Fab.combineReady_ok | with_reducible apply Fab.holdCheck_ok
    | with_reducible apply Fab.rxSquare_ok | with_reducible refine Fab.ok_fst (by with_reducible assumption) ?_
    | with_reducible refine Fab.ok_snd (by with_reducible assumption) ?_
    | with_reducible refine Fab.ok_snd2 (by with_reducible assumption) ?_
    | with_reducible refine Fab.ok_snd4 (by with_reducible assumption) ?_ | intro _ | split
    | with_reducible apply Fab.ok_mk

theorem Fab.rxGo_ok {f : Fab} (h : f.Ok) (c : Nat) (now : Nat) (w : Flit) : (f.rxGo c now w).Ok := by
  unfold Fab.rxGo
  repeat' first
    | with_reducible assumption | with_reducible apply Fab.ok_ite | with_reducible apply Fab.sendDown_ok
    | with_reducible apply Fab.takeGo_ok | with_reducible apply Fab.rxSquare_ok
    | with_reducible refine Fab.ok_fst (by with_reducible assumption) ?_
    | with_reducible refine Fab.ok_snd (by with_reducible assumption) ?_
    | with_reducible refine Fab.ok_snd2 (by with_reducible assumption) ?_
    | with_reducible refine Fab.ok_snd4 (by with_reducible assumption) ?_ | intro _ | split

theorem Fab.rxBarrier_ok {f : Fab} (h : f.Ok) (c : Nat) (now : Nat) (w : Flit) : (f.rxBarrier c now w).Ok := by
  unfold Fab.rxBarrier
  repeat' first
    | with_reducible assumption | with_reducible apply Fab.ok_ite | with_reducible apply Fab.updSh_ok
    | with_reducible apply Fab.barrierTry_ok | with_reducible apply Run.put_ok | with_reducible apply Fab.rxSquare_ok
    | with_reducible refine Fab.ok_fst (by with_reducible assumption) ?_
    | with_reducible refine Fab.ok_snd (by with_reducible assumption) ?_
    | with_reducible refine Fab.ok_snd2 (by with_reducible assumption) ?_
    | with_reducible refine Fab.ok_snd4 (by with_reducible assumption) ?_ | intro _ | split
    | with_reducible apply Fab.ok_mk

theorem Fab.rxRelease_ok {f : Fab} (h : f.Ok) (c : Nat) (now : Nat) (w : Flit) : (f.rxRelease c now w).Ok := by
  unfold Fab.rxRelease
  repeat' first
    | with_reducible assumption | with_reducible apply Fab.ok_ite | with_reducible apply Fab.updSh_ok
    | with_reducible apply Fab.sendDown_ok | with_reducible apply Fab.rxSquare_ok
    | with_reducible refine Fab.ok_fst (by with_reducible assumption) ?_
    | with_reducible refine Fab.ok_snd (by with_reducible assumption) ?_
    | with_reducible refine Fab.ok_snd2 (by with_reducible assumption) ?_
    | with_reducible refine Fab.ok_snd4 (by with_reducible assumption) ?_ | intro _ | split
    | with_reducible apply Fab.ok_mk

theorem Fab.rxEarly_ok {f : Fab} (h : f.Ok) (c : Nat) (now : Nat) (w : Flit) : (f.rxEarly c now w).Ok := by
  unfold Fab.rxEarly
  repeat' first
    | with_reducible assumption | with_reducible apply Fab.ok_ite | with_reducible apply Fab.sendUp_ok
    | with_reducible apply Fab.rootEarly_ok | with_reducible apply Fab.rxSquare_ok
    | with_reducible refine Fab.ok_fst (by with_reducible assumption) ?_
    | with_reducible refine Fab.ok_snd (by with_reducible assumption) ?_
    | with_reducible refine Fab.ok_snd2 (by with_reducible assumption) ?_
    | with_reducible refine Fab.ok_snd4 (by with_reducible assumption) ?_ | intro _ | split

theorem Fab.rxEnd_ok {f : Fab} (h : f.Ok) (c : Nat) (now : Nat) (w : Flit) : (f.rxEnd c now w).Ok := by
  unfold Fab.rxEnd
  repeat' first
    | with_reducible assumption | with_reducible apply Fab.ok_ite | with_reducible apply Fab.sendDown_ok
    | with_reducible apply Fab.takeEnd_ok | with_reducible apply Fab.failInterval_ok
    | with_reducible apply Fab.rxSquare_ok | with_reducible refine Fab.ok_fst (by with_reducible assumption) ?_
    | with_reducible refine Fab.ok_snd (by with_reducible assumption) ?_
    | with_reducible refine Fab.ok_snd2 (by with_reducible assumption) ?_
    | with_reducible refine Fab.ok_snd4 (by with_reducible assumption) ?_ | intro _ | split

theorem Fab.rxHalt_ok {f : Fab} (h : f.Ok) (c : Nat) (now : Nat) (w : Flit) : (f.rxHalt c now w).Ok := by
  unfold Fab.rxHalt
  repeat' first
    | with_reducible assumption | with_reducible apply Fab.ok_ite | with_reducible apply Fab.halt_ok
    | with_reducible apply Fab.rxSquare_ok | with_reducible refine Fab.ok_fst (by with_reducible assumption) ?_
    | with_reducible refine Fab.ok_snd (by with_reducible assumption) ?_
    | with_reducible refine Fab.ok_snd2 (by with_reducible assumption) ?_
    | with_reducible refine Fab.ok_snd4 (by with_reducible assumption) ?_ | intro _ | split

theorem Fab.decisionTimeout_ok {f : Fab} (h : f.Ok) (p : Nat) : (f.decisionTimeout p).Ok := by
  unfold Fab.decisionTimeout
  repeat' first
    | with_reducible assumption | with_reducible apply Fab.ok_ite | with_reducible apply Fab.halt_ok | intro _ | split

theorem Fab.stepTimeout_ok {f : Fab} (h : f.Ok) (p : Nat) (now : Nat) : (f.stepTimeout p now).Ok := by
  unfold Fab.stepTimeout
  repeat' first
    | with_reducible assumption | with_reducible apply Fab.ok_ite | with_reducible apply Fab.failInterval_ok | intro _
    | split

theorem Fab.portEvent_ok {f : Fab} (h : f.Ok) (n : Nat) (k : Nat) : (f.portEvent n k).Ok := by
  unfold Fab.portEvent
  repeat' first
    | with_reducible assumption | with_reducible apply Fab.ok_ite | with_reducible apply Fab.set_ok
    | with_reducible apply Fab.sendMsix_ok | intro _ | split

theorem Fab.refuseFeat_ok {f : Fab} (h : f.Ok) (n : Nat) (bit : Nat) : (f.refuseFeat n bit).Ok := by
  unfold Fab.refuseFeat
  repeat' first
    | with_reducible assumption | with_reducible apply Fab.set_ok | with_reducible apply Fab.portEvent_ok | intro _

theorem Fab.needFeat_ok {f : Fab} (h : f.Ok) (p : Nat) (n : Nat) (g : Fab → Fab) (hg : ∀ f : Fab, f.Ok → (g f).Ok) :
    (f.needFeat p n g).Ok := by
  unfold Fab.needFeat
  repeat' first
    | with_reducible assumption | with_reducible apply hg | with_reducible apply Fab.ok_ite
    | with_reducible apply Fab.refuseFeat_ok | intro _ | split

theorem Fab.checkTables_ok {f : Fab} (h : f.Ok) (p : Nat) (c : Nat) : (f.checkTables p c).Ok := by
  unfold Fab.checkTables
  repeat' first
    | with_reducible assumption | with_reducible apply Fab.ok_ite | with_reducible apply Fab.set_ok
    | with_reducible apply Fab.sendFlit_ok | intro _ | split

theorem Fab.sqGo_ok {f : Fab} (h : f.Ok) (p : Nat) (now : Nat) : (f.sqGo p now).Ok := by
  unfold Fab.sqGo
  repeat' first
    | with_reducible assumption | with_reducible apply Fab.ok_ite | with_reducible apply Fab.ok_foldl
    | with_reducible apply Fab.set_ok | with_reducible apply Fab.updSh_ok | with_reducible apply Fab.readyCheck_ok
    | with_reducible apply Fab.refuseFeat_ok | with_reducible apply Fab.checkTables_ok | intro _ | split
    | with_reducible apply Fab.ok_mk

theorem Fab.sqStop_ok {f : Fab} (h : f.Ok) (p : Nat) : (f.sqStop p).Ok := by
  unfold Fab.sqStop
  repeat' first
    | with_reducible assumption | with_reducible apply Fab.ok_ite | with_reducible apply Fab.updSh_ok | intro _ | split
    | with_reducible apply Fab.ok_mk

theorem Fab.sqHoldreq_ok {f : Fab} (h : f.Ok) (p : Nat) (v : Bool) (now : Nat) : (f.sqHoldreq p v now).Ok := by
  unfold Fab.sqHoldreq
  repeat' first
    | with_reducible assumption | with_reducible apply Fab.set_ok | with_reducible apply Fab.holdCheck_ok | intro _

theorem Fab.sqClear_ok {f : Fab} (h : f.Ok) (p : Nat) : (f.sqClear p).Ok := by
  unfold Fab.sqClear
  repeat' first
    | with_reducible assumption | with_reducible apply Fab.ok_ite | with_reducible apply Fab.set_ok
    | with_reducible apply Fab.updSh_ok | with_reducible apply Fab.raise_ok | intro _ | split
    | with_reducible apply Fab.ok_mk

theorem Fab.sqJreset_ok {f : Fab} (h : f.Ok) (p : Nat) : (f.sqJreset p).Ok := by
  unfold Fab.sqJreset
  repeat' first
    | with_reducible assumption | with_reducible apply Fab.ok_ite | with_reducible apply Fab.ok_foldl
    | with_reducible apply Fab.setReg_ok | with_reducible apply Fab.set_ok | with_reducible apply Fab.updSh_ok
    | with_reducible apply Fab.jstat_ok | intro _ | split | with_reducible apply Fab.ok_mk

theorem Fab.sqCapen_ok {f : Fab} (h : f.Ok) (p : Nat) (v : Bool) : (f.sqCapen p v).Ok := by
  unfold Fab.sqCapen
  repeat' first
    | with_reducible assumption | with_reducible apply Fab.ok_ite | with_reducible apply Fab.set_ok
    | with_reducible apply Fab.needFeat_ok | intro _ | split

theorem Fab.sqRunmode_ok {f : Fab} (h : f.Ok) (p : Nat) (v : Bool) : (f.sqRunmode p v).Ok := by
  unfold Fab.sqRunmode
  repeat' first
    | with_reducible assumption | with_reducible apply Fab.ok_ite | with_reducible apply Fab.set_ok
    | with_reducible apply Fab.refuseFeat_ok | intro _ | split

theorem Fab.sqDcn_ok {f : Fab} (h : f.Ok) (p : Nat) (v : Nat) : (f.sqDcn p v).Ok := by
  unfold Fab.sqDcn
  repeat' first
    | with_reducible assumption | with_reducible apply Fab.ok_ite | with_reducible apply Fab.set_ok
    | with_reducible apply Fab.updSh_ok | intro _ | split | with_reducible apply Fab.ok_mk

theorem Fab.viewReq_ok {f : Fab} (h : f.Ok) (p : Nat) (v : Bool) : (f.viewReq p v).Ok := by
  unfold Fab.viewReq
  repeat' first
    | with_reducible assumption | with_reducible apply Fab.ok_ite | with_reducible apply Fab.set_ok
    | with_reducible apply Fab.updSh_ok | with_reducible apply Fab.freeSegments_ok
    | with_reducible apply Fab.needFeat_ok | intro _ | split | with_reducible apply Fab.ok_mk

theorem Fab.ringPtr_ok {f : Fab} (h : f.Ok) (p : Nat) (q : Nat) (v : Nat) (now : Nat) : (f.ringPtr p q v now).Ok := by
  unfold Fab.ringPtr
  repeat' first
    | with_reducible assumption | with_reducible apply Fab.ok_ite | with_reducible apply Fab.set_ok
    | with_reducible apply Fab.readyCheck_ok | intro _ | split

end Sys2Proof.Machine
end

