-- ==== Sys2Proof/Laws/KeepMemCmds.lean ====
section
/-! SUPPORT. What the operations of Machine/MemCmds.lean keep. -/

namespace Sys2Proof.Machine

theorem Fab.zeroRange_ok {f : Fab} (h : f.Ok) (lo : Nat) (hi : Nat) : (f.zeroRange lo hi).Ok := by
  exact ⟨clear_wf _ _ h.1, h.2⟩

theorem Fab.zeroBank_ok {f : Fab} (h : f.Ok) (x : Fld) : (f.zeroBank x).Ok := by
  exact ⟨filter_wf _ h.1, h.2⟩

theorem Fab.banksOn_ok {f : Fab} (h : f.Ok) (b : Nat) : (f.banksOn b).Ok := by
  unfold Fab.banksOn
  repeat' first
    | with_reducible assumption | with_reducible apply Fab.ok_foldl | with_reducible apply Fab.setReg_ok | intro _
    | with_reducible apply Fab.ok_mk

theorem Fab.resetEngines_ok {f : Fab} (h : f.Ok) (b : Nat) : (f.resetEngines b).Ok := by
  unfold Fab.resetEngines
  repeat' first
    | with_reducible assumption | intro _ | with_reducible apply Fab.ok_mk

theorem Fab.zeroBlock_ok {f : Fab} (h : f.Ok) (b : Nat) : (f.zeroBlock b).Ok := by
  unfold Fab.zeroBlock
  repeat' first
    | with_reducible assumption | with_reducible apply Fab.zeroRange_ok | intro _

theorem Fab.wipeUnit_ok {f : Fab} (h : f.Ok) (u : Nat) : (f.wipeUnit u).Ok := by
  unfold Fab.wipeUnit
  repeat' first
    | with_reducible assumption | with_reducible apply Fab.ok_ite | with_reducible apply Fab.setReg_ok
    | with_reducible apply Fab.updPort_ok | with_reducible apply Fab.zeroRange_ok | with_reducible apply Fab.banksOn_ok
    | with_reducible apply Fab.resetEngines_ok | with_reducible apply Fab.zeroBlock_ok | intro _ | split
    | with_reducible apply Fab.ok_mk

theorem Fab.wipeGranule_ok {f : Fab} (h : f.Ok) (g : Nat) : (f.wipeGranule g).Ok := by
  unfold Fab.wipeGranule
  repeat' first
    | with_reducible assumption | with_reducible apply Fab.zeroRange_ok | intro _ | with_reducible apply Fab.ok_mk

theorem Fab.ownErr_ok {f : Fab} (h : f.Ok) : (f.ownErr).Ok := by
  unfold Fab.ownErr
  repeat' first
    | with_reducible assumption | with_reducible apply Fab.set_ok | intro _

theorem Fab.abandon_ok {f : Fab} (h : f.Ok) (isD : Bool) (i : Nat) : (f.abandon isD i).Ok := by
  unfold Fab.abandon
  repeat' first
    | with_reducible assumption | with_reducible apply Fab.ok_ite | with_reducible apply Fab.set_ok | intro _ | split
    | with_reducible apply Fab.ok_mk

theorem Fab.ownerWrite_ok {f : Fab} (h : f.Ok) (isD : Bool) (i : Nat) (v : Nat) : (f.ownerWrite isD i v).Ok := by
  unfold Fab.ownerWrite
  repeat' first
    | with_reducible assumption | with_reducible apply Fab.ok_ite | with_reducible apply Fab.set_ok
    | with_reducible apply Fab.ownErr_ok | with_reducible apply Fab.abandon_ok | intro _ | split

theorem Fab.wipeDone_ok {f : Fab} (h : f.Ok) (isD : Bool) (i : Nat) : (f.wipeDone isD i).Ok := by
  unfold Fab.wipeDone
  repeat' first
    | with_reducible assumption | with_reducible apply Fab.ok_ite | with_reducible apply Fab.set_ok
    | with_reducible apply Fab.raise_ok | with_reducible apply Fab.wipeUnit_ok | with_reducible apply Fab.wipeGranule_ok
    | intro _ | split

theorem Fab.bstateWrite_ok {f : Fab} (h : f.Ok) (cb : Bool) (b : Nat) (r : Nat) (v : Word) : (f.bstateWrite cb b r v).Ok := by
  unfold Fab.bstateWrite
  repeat' first
    | with_reducible assumption | with_reducible apply Fab.ok_ite | with_reducible apply Fab.ok_foldl
    | with_reducible apply Fab.set_ok | with_reducible apply Fab.ownErr_ok | intro _ | split
    | with_reducible apply Fab.ok_mk

theorem Fab.bankDone_ok {f : Fab} (h : f.Ok) (a : Nat) : (f.bankDone a).Ok := by
  unfold Fab.bankDone
  repeat' first
    | with_reducible assumption | with_reducible apply Fab.ok_ite | with_reducible apply Fab.set_ok
    | with_reducible apply Fab.yieldAt_ok | with_reducible apply Fab.zeroBank_ok | intro _ | split
    | with_reducible apply Fab.ok_mk

theorem Fab.freeRepair_ok {f : Fab} (h : f.Ok) (a : Nat) : (f.freeRepair a).Ok := by
  unfold Fab.freeRepair
  repeat' first
    | with_reducible assumption | with_reducible apply Fab.set_ok | intro _ | with_reducible apply Fab.ok_mk

theorem Fab.correctWord_ok {f : Fab} (h : f.Ok) (wa : Nat) : (f.correctWord wa).Ok := by
  unfold Fab.correctWord
  repeat' first
    | with_reducible assumption | with_reducible apply Fab.ok_ite | with_reducible apply Fab.set_ok | intro _ | split
    | with_reducible apply Fab.ok_mk

theorem Fab.repairWriteback_ok {f : Fab} (h : f.Ok) (a : Nat) : (f.repairWriteback a).Ok := by
  unfold Fab.repairWriteback
  repeat' first
    | with_reducible assumption | with_reducible apply Fab.freeRepair_ok | with_reducible apply Fab.correctWord_ok
    | intro _ | split

theorem Fab.poisonRewrite_ok {f : Fab} (h : f.Ok) (a : Nat) : (f.poisonRewrite a).Ok := by
  unfold Fab.poisonRewrite
  repeat' first
    | with_reducible assumption | with_reducible apply Fab.poison_ok | with_reducible apply Fab.freeRepair_ok | intro _
    | split

theorem Fab.conflictWrap_ok {f : Fab} (h : f.Ok) (b : Nat) (m : Nat) (n : Nat) : (f.conflictWrap b m n).Ok := by
  unfold Fab.conflictWrap
  repeat' first
    | with_reducible assumption | with_reducible apply Fab.ok_ite | with_reducible apply Fab.confBump_ok | intro _
    | split

theorem Fab.vaultWipe_ok {f : Fab} (h : f.Ok) (cause : Nat) : (f.vaultWipe cause).Ok := by
  unfold Fab.vaultWipe
  repeat' first
    | with_reducible assumption | with_reducible apply Fab.ok_foldl | with_reducible apply Fab.set_ok
    | with_reducible apply Fab.stick_ok | with_reducible apply Fab.dataLoss_ok | with_reducible apply Fab.zeroRange_ok
    | intro _ | split | with_reducible apply Fab.ok_mk

end Sys2Proof.Machine
end

