-- ==== Sys2Proof/Laws/KeepAccess.lean ====
section
/-! SUPPORT. What the operations of Machine/Access.lean keep. -/

namespace Sys2Proof.Machine

theorem Fab.errLog_ok {f : Fab} (h : f.Ok) (m : Master) (a : Nat) (kind : Nat) (barsp : Nat) :
    (f.errLog m a kind barsp).Ok := by
  unfold Fab.errLog
  repeat' first
    | with_reducible assumption | with_reducible apply Fab.ok_ite | with_reducible apply Fab.set_ok | intro _ | split

theorem Fab.byReg_ok {f : Fab} (h : f.Ok) (m : Master) (a : Nat) (g : Fab → Fab) (hg : ∀ f : Fab, f.Ok → (g f).Ok) :
    (f.byReg m a g).Ok := by
  unfold Fab.byReg
  repeat' first
    | with_reducible assumption | with_reducible apply hg | with_reducible apply Fab.ok_ite
    | with_reducible apply Fab.errLog_ok | intro _ | split

theorem Fab.fenceLog_ok {f : Fab} (h : f.Ok) (p : Nat) (a : Nat) (m : Master) : (f.fenceLog p a m).Ok := by
  unfold Fab.fenceLog
  repeat' first
    | with_reducible assumption | with_reducible apply Fab.ok_ite | with_reducible apply Fab.set_ok | intro _ | split

theorem Fab.bankTurn_ok {f : Fab} (h : f.Ok) (m : Master) (a : Nat) : (f.bankTurn m a).Ok := by
  unfold Fab.bankTurn
  repeat' first
    | with_reducible assumption | with_reducible apply Fab.ok_ite | with_reducible apply Fab.yieldAt_ok
    | with_reducible apply Fab.confWait_ok | intro _ | split

theorem Fab.rdPiece_ok {f : Fab} (h : f.Ok) (m : Master) (a : Nat) (n : Nat) : (f.rdPiece m a n).fab.Ok := by
  unfold Fab.rdPiece
  repeat' first
    | with_reducible assumption | with_reducible apply Fab.ok_ite | with_reducible apply Fab.read_ok
    | with_reducible apply Fab.errLog_ok | with_reducible apply Fab.fenceLog_ok | with_reducible apply Fab.bankTurn_ok
    | intro _ | split

theorem Fab.noteStore_ok {f : Fab} (h : f.Ok) (a : Nat) (n : Nat) : (f.noteStore a n).Ok := by
  unfold Fab.noteStore
  repeat' first
    | with_reducible assumption | with_reducible apply Fab.ok_ite | with_reducible apply Fab.updEng_ok
    | with_reducible apply Fab.free_ok | intro _ | split | with_reducible apply Fab.ok_mk

theorem Fab.tblWr_ok {f : Fab} (h : f.Ok) (a : Nat) : (f.tblWr a).Ok := by
  unfold Fab.tblWr
  repeat' first
    | with_reducible assumption | with_reducible apply Fab.set_ok | intro _

theorem Fab.wrPiece_ok {f : Fab} (h : f.Ok) (m : Master) (a : Nat) (n : Nat) (v : Nat) : (f.wrPiece m a n v).fab.Ok := by
  unfold Fab.wrPiece
  repeat' first
    | with_reducible assumption | with_reducible apply Fab.ok_ite | with_reducible apply Fab.write_ok
    | with_reducible apply Fab.errLog_ok | with_reducible apply Fab.fenceLog_ok | with_reducible apply Fab.bankTurn_ok
    | with_reducible apply Fab.noteStore_ok | with_reducible apply Fab.tblWr_ok | intro _ | split

theorem Fab.rdMem_ok {f : Fab} (h : f.Ok) (m : Master) (a : Nat) (n : Nat) (n0 : Nat) : (f.rdMem m a n n0).fab.Ok := by
  induction n0 generalizing f m a n with
  | zero => exact h
  | succ _ ih =>
    unfold Fab.rdMem
    repeat' first
    | with_reducible assumption | apply ih
    | with_reducible apply Fab.ok_ite
    | with_reducible apply Fab.rdPiece_ok
    | intro _
    | split

theorem Fab.wrMem_ok {f : Fab} (h : f.Ok) (m : Master) (a : Nat) (n : Nat) (v : Nat) (n0 : Nat) :
    (f.wrMem m a n v n0).fab.Ok := by
  induction n0 generalizing f m a n v with
  | zero => exact h
  | succ _ ih =>
    unfold Fab.wrMem
    repeat' first
    | with_reducible assumption | apply ih
    | with_reducible apply Fab.ok_ite
    | with_reducible apply Fab.wrPiece_ok
    | intro _
    | split

theorem Fab.fenceCount_ok {f : Fab} (h : f.Ok) (m : Master) (a : Nat) (n : Nat) (wr : Bool) : (f.fenceCount m a n wr).Ok := by
  unfold Fab.fenceCount
  repeat' first
    | with_reducible assumption | with_reducible apply Fab.ok_foldl | with_reducible apply Fab.stick_ok | intro _

theorem Fab.rdEcs_ok {f : Fab} (h : f.Ok) (m : Master) (a : Nat) (n : Nat) : (f.rdEcs m a n).fab.Ok := by
  unfold Fab.rdEcs
  repeat' first
    | with_reducible assumption | with_reducible apply Fab.ok_ite | with_reducible apply Fab.errLog_ok | intro _ | split

theorem Fab.wrEcs_ok {f : Fab} (h : f.Ok) (m : Master) (a : Nat) (n : Nat) (v : Nat) : (f.wrEcs m a n v).fab.Ok := by
  delta Fab.wrEcs
  extract_lets
  repeat' first
    | with_reducible assumption | with_reducible apply Fab.ok_ite | with_reducible apply Fab.setEng_ok
    | with_reducible apply Fab.ecsWrite_ok | with_reducible apply Fab.perfSync_ok | with_reducible apply Fab.errLog_ok
    | with_reducible refine Fab.ok_fst (by with_reducible assumption) ?_
    | with_reducible refine Fab.ok_snd (by with_reducible assumption) ?_
    | with_reducible refine Fab.ok_snd2 (by with_reducible assumption) ?_
    | with_reducible refine Fab.ok_snd4 (by with_reducible assumption) ?_ | intro _ | split

theorem Fab.cvPiece_ok {f : Fab} (h : f.Ok) (m : Master) (p : Nat) (k : Nat) (c : Nat) (o : Nat) (n : Nat) :
    (f.cvPiece m p k c o n).fab.Ok := by
  have hr := fun a => Fab.read_ok h m.src a n
  delta Fab.cvPiece
  dsimp only
  split
  · with_reducible exact Fab.ok_acc h
  · with_reducible exact Fab.ok_iteacc (fun _ => Fab.ok_acc (Fab.errLog_ok h _ _ _ _)) fun _ => Fab.ok_acc (hr _)
  · with_reducible refine Fab.ok_iteacc (fun _ => Fab.ok_acc (Fab.errLog_ok h _ _ _ _)) fun _ => ?_
    split
    · with_reducible exact Fab.ok_acc (hr _)
    · split
      · with_reducible exact Fab.ok_acc (Fab.dataLoss_ok (Fab.read_ok (hr _) _ _ _) _ _)
      · with_reducible exact Fab.ok_acc (Fab.read_ok (hr _) _ _ _)

theorem Fab.cvWords_ok {f : Fab} (h : f.Ok) (m : Master) (p : Nat) (k : Nat) (c : Nat) (o : Nat) (n : Nat) (n0 : Nat) :
    (f.cvWords m p k c o n n0).fab.Ok := by
  induction n0 generalizing f m p k c o n with
  | zero => exact h
  | succ _ ih =>
    unfold Fab.cvWords
    repeat' first
    | with_reducible assumption | apply ih
    | with_reducible apply Fab.ok_ite
    | with_reducible apply Fab.cvPiece_ok
    | intro _
    | split

theorem Fab.cvLatch_ok {f : Fab} (h : f.Ok) (m : Master) (p : Nat) (c : Nat) : (f.cvLatch m p c).Ok := by
  unfold Fab.cvLatch
  repeat' first
    | with_reducible assumption | with_reducible apply Fab.ok_ite | with_reducible apply Fab.set_ok | intro _ | split

theorem Fab.cvRead_ok {f : Fab} (h : f.Ok) (m : Master) (p : Nat) (o : Nat) (n : Nat) : (f.cvRead m p o n).fab.Ok := by
  unfold Fab.cvRead
  repeat' first
    | with_reducible assumption | with_reducible apply Fab.ok_ite | with_reducible apply Fab.cvWords_ok
    | with_reducible apply Fab.cvLatch_ok | intro _ | split

theorem Fab.cvPut_ok {f : Fab} (h : f.Ok) (m : Master) (p : Nat) (o : Nat) (n : Nat) (v : Nat) :
    (f.cvPut m p o n v).fab.Ok := by
  have hw := fun (g : Fab) (hg : g.Ok) a => Fab.write_ok hg m.src a n v
  delta Fab.cvPut
  split
  · with_reducible exact Fab.ok_acc h
  · with_reducible refine Fab.ok_iteacc (fun _ => Fab.ok_acc (Fab.errLog_ok h _ _ _ _)) fun _ => ?_
    with_reducible refine Fab.ok_acc ?_
    with_reducible exact hw _ (hw _ h _) _
  · with_reducible refine Fab.ok_iteacc (fun _ => Fab.ok_acc (Fab.errLog_ok h _ _ _ _)) fun _ => ?_
    with_reducible exact Fab.ok_acc (hw _ h _)

theorem Fab.cvPuts_ok {f : Fab} (h : f.Ok) (m : Master) (p : Nat) (o : Nat) (n : Nat) (v : Nat) (n0 : Nat) :
    (f.cvPuts m p o n v n0).fab.Ok := by
  induction n0 generalizing f m p o n v with
  | zero => exact h
  | succ _ ih =>
    unfold Fab.cvPuts
    repeat' first
    | with_reducible assumption | apply ih
    | with_reducible apply Fab.ok_ite
    | with_reducible apply Fab.cvPut_ok
    | intro _
    | split

theorem Fab.cvWrite_ok {f : Fab} (h : f.Ok) (m : Master) (p : Nat) (o : Nat) (n : Nat) (v : Nat) :
    (f.cvWrite m p o n v).fab.Ok := by
  unfold Fab.cvWrite
  repeat' first
    | with_reducible assumption | with_reducible apply Fab.ok_ite | with_reducible apply Fab.cvPuts_ok | intro _ | split

theorem Fab.rdDev_ok {f : Fab} (h : f.Ok) (m : Master) (a : Nat) (n : Nat) : (f.rdDev m a n).fab.Ok := by
  unfold Fab.rdDev
  repeat' first
    | with_reducible assumption | with_reducible apply Fab.ok_ite | with_reducible apply Fab.errLog_ok
    | with_reducible apply Fab.rdMem_ok | with_reducible apply Fab.fenceCount_ok | with_reducible apply Fab.rdEcs_ok
    | with_reducible apply Fab.cvRead_ok | intro _ | split

theorem Fab.wrDev_ok {f : Fab} (h : f.Ok) (m : Master) (a : Nat) (n : Nat) (v : Nat) : (f.wrDev m a n v).fab.Ok := by
  unfold Fab.wrDev
  repeat' first
    | with_reducible assumption | with_reducible apply Fab.ok_ite | with_reducible apply Fab.errLog_ok
    | with_reducible apply Fab.wrMem_ok | with_reducible apply Fab.fenceCount_ok | with_reducible apply Fab.wrEcs_ok
    | with_reducible apply Fab.cvWrite_ok | intro _ | split

end Sys2Proof.Machine
end

