-- ==== Sys2Proof/Laws/KeepDma.lean ====
section
/-! SUPPORT. What the operations of Machine/Dma.lean keep. -/

namespace Sys2Proof.Machine

theorem Fab.emitPkt_ok {f : Fab} (h : f.Ok) (c : Nat) (k : BgPkt) : (f.emitPkt c k).Ok := by
  unfold Fab.emitPkt
  repeat' first
    | with_reducible assumption | with_reducible apply Fab.ok_foldl | with_reducible apply Fab.emit_ok | intro _

theorem Fab.drainTx_ok {f : Fab} (h : f.Ok) (c : Nat) (n0 : Nat) : (f.drainTx c n0).Ok := by
  induction n0 generalizing f c with
  | zero => exact h
  | succ _ ih =>
    unfold Fab.drainTx
    repeat' first
    | with_reducible assumption | apply ih
    | with_reducible apply Fab.ok_ite
    | with_reducible apply Fab.updPort_ok
    | with_reducible apply Fab.emitPkt_ok
    | intro _
    | split
    | with_reducible apply Fab.ok_mk

theorem Fab.sendPkt_ok {f : Fab} (h : f.Ok) (c : Nat) (cls : Nat) (addr : Nat) (data : List Nat) :
    (f.sendPkt c cls addr data).2.Ok := by
  unfold Fab.sendPkt
  repeat' first
    | with_reducible assumption | with_reducible apply Fab.updPort_ok | with_reducible apply Fab.drainTx_ok | intro _
    | with_reducible apply Fab.ok_mk

theorem Fab.chunkPut_ok {f : Fab} (h : f.Ok) (c : Nat) (n : Nat) (data : Nat) : (f.chunkPut c n data).Ok := by
  unfold Fab.chunkPut
  repeat' first
    | with_reducible assumption | with_reducible apply Fab.ok_ite | with_reducible apply Fab.free_ok
    | with_reducible apply Fab.write_ok | intro _ | split

theorem Fab.dmaStat_ok {f : Fab} (h : f.Ok) : (f.dmaStat).Ok := by
  unfold Fab.dmaStat
  repeat' first
    | with_reducible assumption | with_reducible apply Fab.set_ok | intro _

theorem Fab.chHalt_ok {f : Fab} (h : f.Ok) (k : Nat) (status : Nat) (raised : Bool) : (f.chHalt k status raised).Ok := by
  unfold Fab.chHalt
  repeat' first
    | with_reducible assumption | with_reducible apply Fab.ok_ite | with_reducible apply Fab.set_ok
    | with_reducible apply Fab.updCh_ok | with_reducible apply Fab.raise_ok | with_reducible apply Fab.dmaStat_ok
    | intro _ | split | with_reducible apply Fab.ok_mk

theorem Fab.chFail_ok {f : Fab} (h : f.Ok) (k : Nat) (addr : Nat) (status : Nat) : (f.chFail k addr status).Ok := by
  unfold Fab.chFail
  repeat' first
    | with_reducible assumption | with_reducible apply Fab.ok_ite | with_reducible apply Fab.set_ok
    | with_reducible apply Fab.updCh_ok | intro _ | split | with_reducible apply Fab.ok_mk

theorem Fab.freeFill_ok {f : Fab} (h : f.Ok) (m : Master) (a : Nat) (n : Nat) (n0 : Nat) : (f.freeFill m a n n0).Ok := by
  induction n0 generalizing f m a n with
  | zero => exact h
  | succ _ ih =>
    unfold Fab.freeFill
    repeat' first
    | with_reducible assumption | apply ih
    | with_reducible apply Fab.ok_ite
    | with_reducible apply Fab.free_ok
    | with_reducible apply Fab.write_ok
    | intro _
    | split

theorem Fab.undefined_ok {f : Fab} (h : f.Ok) (m : Master) (a : Nat) (n : Nat) : (f.undefined m a n).Ok := by
  unfold Fab.undefined
  repeat' first
    | with_reducible assumption | with_reducible apply Fab.freeFill_ok | intro _

theorem Fab.chWriteFail_ok {f : Fab} (h : f.Ok) (k : Nat) (addr : Nat) (status : Nat) : (f.chWriteFail k addr status).Ok := by
  unfold Fab.chWriteFail
  repeat' first
    | with_reducible assumption | with_reducible apply Fab.ok_ite | with_reducible apply Fab.updCh_ok
    | with_reducible apply Fab.chFail_ok | with_reducible apply Fab.undefined_ok | intro _ | split
    | with_reducible apply Fab.ok_mk

theorem Fab.chSettle_ok {f : Fab} (h : f.Ok) (k : Nat) : (f.chSettle k).Ok := by
  unfold Fab.chSettle
  repeat' first
    | with_reducible assumption | with_reducible apply Fab.ok_ite | with_reducible apply Fab.updCh_ok
    | with_reducible apply Plan.run_ok | intro _ | split | with_reducible apply Fab.ok_mk

theorem Fab.chFetch_ok {f : Fab} (h : f.Ok) (k : Nat) (addr : Nat) (host : Bool) (raised : Bool) :
    (f.chFetch k addr host raised).Ok := by
  unfold Fab.chFetch
  repeat' first
    | with_reducible assumption | with_reducible apply Fab.ok_ite | with_reducible apply Fab.set_ok
    | with_reducible apply Fab.updCh_ok | with_reducible apply Fab.chHalt_ok | intro _ | split
    | with_reducible apply Fab.ok_mk

theorem Fab.readTurn_ok {f : Fab} (h : f.Ok) (k : Nat) : (f.readTurn k).Ok := by
  unfold Fab.readTurn
  repeat' first
    | with_reducible assumption | with_reducible apply Fab.ok_ite | with_reducible apply Fab.ok_foldl
    | with_reducible apply Fab.set_ok | with_reducible apply Fab.updCh_ok | with_reducible apply Fab.emit_ok
    | with_reducible apply Fab.chunkPut_ok | with_reducible apply Fab.dmaStat_ok | with_reducible apply Fab.chFail_ok
    | with_reducible apply Fab.chSettle_ok | intro _ | split | with_reducible apply Fab.ok_mk

theorem Fab.chIssued_ok {f : Fab} (h : f.Ok) (k : Nat) (n : Nat) (w : List DmaWr) : (f.chIssued k n w).Ok := by
  unfold Fab.chIssued
  repeat' first
    | with_reducible assumption | with_reducible apply Fab.ok_ite | with_reducible apply Fab.updCh_ok
    | with_reducible apply Fab.dmaStat_ok | with_reducible apply Fab.chSettle_ok | intro _ | split
    | with_reducible apply Fab.ok_mk

theorem Fab.chunkBad_ok {f : Fab} (h : f.Ok) (k : Nat) (bad : Nat) : (f.chunkBad k bad).Ok := by
  unfold Fab.chunkBad
  repeat' first
    | with_reducible assumption | with_reducible apply Fab.ok_ite | with_reducible apply Fab.updCh_ok
    | with_reducible apply Fab.dmaStat_ok | with_reducible apply Fab.chFail_ok | with_reducible apply Fab.chSettle_ok
    | intro _ | split | with_reducible apply Fab.ok_mk

theorem Fab.writeTurn_ok {f : Fab} (h : f.Ok) (k : Nat) : (f.writeTurn k).Ok := by
  unfold Fab.writeTurn
  repeat' first
    | with_reducible assumption | with_reducible apply Fab.ok_ite | with_reducible apply Fab.updCh_ok
    | with_reducible apply Fab.free_ok | with_reducible apply Fab.emit_ok | with_reducible apply Fab.read_ok
    | with_reducible apply Fab.sendPkt_ok | with_reducible apply Fab.dmaStat_ok | with_reducible apply Fab.chFail_ok
    | with_reducible apply Fab.chWriteFail_ok | with_reducible apply Fab.chSettle_ok
    | with_reducible apply Fab.chIssued_ok | with_reducible apply Fab.chunkBad_ok | intro _ | split
    | with_reducible apply Fab.ok_mk

theorem Fab.dmaServe_ok {f : Fab} (h : f.Ok) (n0 : Nat) : (f.dmaServe n0).Ok := by
  induction n0 generalizing f with
  | zero => exact h
  | succ _ ih =>
    unfold Fab.dmaServe
    repeat' first
    | with_reducible assumption | apply ih
    | with_reducible apply Fab.ok_ite
    | with_reducible apply Fab.readTurn_ok
    | with_reducible apply Fab.writeTurn_ok
    | intro _
    | split
    | with_reducible apply Fab.ok_mk

theorem Fab.dmaRun_ok {f : Fab} (h : f.Ok) : (f.dmaRun).Ok := by
  unfold Fab.dmaRun
  repeat' first
    | with_reducible assumption | with_reducible apply Fab.dmaServe_ok | intro _

theorem Fab.dmaStart_ok {f : Fab} (h : f.Ok) (m : Master) (k : Nat) : (f.dmaStart m k).Ok := by
  unfold Fab.dmaStart
  repeat' first
    | with_reducible assumption | with_reducible apply Fab.ok_ite | with_reducible apply Fab.set_ok
    | with_reducible apply Fab.updCh_ok | with_reducible apply Fab.dmaStat_ok | with_reducible apply Fab.chFetch_ok
    | with_reducible apply Fab.dmaRun_ok | intro _ | split

theorem Fab.dmaDisable_ok {f : Fab} (h : f.Ok) (k : Nat) : (f.dmaDisable k).Ok := by
  unfold Fab.dmaDisable
  repeat' first
    | with_reducible assumption | with_reducible apply Fab.ok_ite | with_reducible apply Fab.set_ok
    | with_reducible apply Fab.updCh_ok | with_reducible apply Fab.free_ok | with_reducible apply Fab.busy_ok
    | with_reducible apply Fab.dmaStat_ok | intro _ | split | with_reducible apply Fab.ok_mk

theorem Fab.dmaCtl_ok {f : Fab} (h : f.Ok) (v : Bool) : (f.dmaCtl v).Ok := by
  unfold Fab.dmaCtl
  repeat' first
    | with_reducible assumption | with_reducible apply Fab.ok_ite | with_reducible apply Fab.ok_foldl
    | with_reducible apply Fab.set_ok | with_reducible apply Fab.dmaDisable_ok | intro _ | split

theorem Fab.dmaAcked_ok {f : Fab} (h : f.Ok) (c : Nat) (seq : Nat) : (f.dmaAcked c seq).Ok := by
  unfold Fab.dmaAcked
  repeat' first
    | with_reducible assumption | with_reducible apply Fab.updCh_ok | with_reducible apply Fab.chSettle_ok
    | with_reducible apply Fab.dmaRun_ok | intro _ | split | with_reducible apply Fab.ok_mk

theorem Fab.dmaPortLost_ok {f : Fab} (h : f.Ok) (c : Nat) : (f.dmaPortLost c).Ok := by
  unfold Fab.dmaPortLost
  repeat' first
    | with_reducible assumption | with_reducible apply Fab.ok_ite | with_reducible apply Fab.ok_foldl
    | with_reducible apply Fab.updCh_ok | with_reducible apply Plan.run_ok | with_reducible apply Fab.dmaStat_ok
    | with_reducible apply Fab.chWriteFail_ok | with_reducible apply Fab.chSettle_ok
    | with_reducible apply Fab.dmaRun_ok | intro _ | split | with_reducible apply Fab.ok_mk

theorem Fab.dmaTimeout_ok {f : Fab} (h : f.Ok) (k : Nat) (wr : Bool) : (f.dmaTimeout k wr).Ok := by
  unfold Fab.dmaTimeout
  repeat' first
    | with_reducible assumption | with_reducible apply Fab.ok_ite | with_reducible apply Fab.updCh_ok
    | with_reducible apply Plan.run_ok | with_reducible apply Fab.dmaStat_ok | with_reducible apply Fab.chHalt_ok
    | with_reducible apply Fab.chFail_ok | with_reducible apply Fab.undefined_ok
    | with_reducible apply Fab.chWriteFail_ok | with_reducible apply Fab.chSettle_ok
    | with_reducible apply Fab.dmaRun_ok | intro _ | split | with_reducible apply Fab.ok_mk

end Sys2Proof.Machine
end

