-- ==== Sys2Proof/Laws/KeepLink.lean ====
section
/-! SUPPORT. What the operations of Machine/Link.lean keep. -/

namespace Sys2Proof.Machine

theorem Fab.linkLevels_ok {f : Fab} (h : f.Ok) (c : Nat) : (f.linkLevels c).Ok := by
  delta Fab.linkLevels
  extract_lets
  repeat' first
    | with_reducible assumption | with_reducible apply Fab.raise_ok
    | with_reducible refine Fab.ok_fst (by with_reducible assumption) ?_
    | with_reducible refine Fab.ok_snd (by with_reducible assumption) ?_
    | with_reducible refine Fab.ok_snd2 (by with_reducible assumption) ?_
    | with_reducible refine Fab.ok_snd4 (by with_reducible assumption) ?_ | intro _ | split

theorem Fab.linkGo_ok {f : Fab} (h : f.Ok) (c : Nat) (st : Nat) : (f.linkGo c st).Ok := by
  unfold Fab.linkGo
  repeat' first
    | with_reducible assumption | with_reducible apply Fab.ok_ite | with_reducible apply Fab.setReg_ok
    | with_reducible apply Fab.set_ok | with_reducible apply Fab.updPort_ok | with_reducible apply Fab.emit_ok
    | with_reducible apply Fab.linkLevels_ok | intro _ | split | with_reducible apply Fab.ok_mk

theorem Fab.leaveActive_ok {f : Fab} (h : f.Ok) (c : Nat) (st : Nat) : (f.leaveActive c st).Ok := by
  unfold Fab.leaveActive
  repeat' first
    | with_reducible assumption | with_reducible apply Fab.ok_ite | with_reducible apply Fab.updPort_ok
    | with_reducible apply Fab.raise_ok | with_reducible apply Fab.halt_ok | with_reducible apply Fab.dmaPortLost_ok
    | with_reducible apply Fab.linkLevels_ok | with_reducible apply Fab.linkGo_ok | intro _ | split
    | with_reducible apply Fab.ok_mk

theorem Fab.portDown_ok {f : Fab} (h : f.Ok) (c : Nat) (cause : Nat) : (f.portDown c cause).Ok := by
  unfold Fab.portDown
  repeat' first
    | with_reducible assumption | with_reducible apply Fab.ok_ite | with_reducible apply Fab.set_ok
    | with_reducible apply Fab.emit_ok | with_reducible apply Fab.leaveActive_ok | intro _ | split

theorem Fab.parentLost_ok {f : Fab} (h : f.Ok) (c : Nat) : (f.parentLost c).Ok := by
  unfold Fab.parentLost
  repeat' first
    | with_reducible assumption | with_reducible apply Fab.ok_ite | with_reducible apply Fab.ok_foldl
    | with_reducible apply Fab.set_ok | with_reducible apply Fab.halt_ok | with_reducible apply Fab.portDown_ok
    | intro _ | split

theorem Fab.linkFail_ok {f : Fab} (h : f.Ok) (c : Nat) (cause : Nat) : (f.linkFail c cause).Ok := by
  unfold Fab.linkFail
  repeat' first
    | with_reducible assumption | with_reducible apply Fab.ok_ite | with_reducible apply Fab.portDown_ok
    | with_reducible apply Fab.parentLost_ok | intro _ | split

theorem Fab.trainFail_ok {f : Fab} (h : f.Ok) (c : Nat) (cause : Nat) : (f.trainFail c cause).Ok := by
  unfold Fab.trainFail
  repeat' first
    | with_reducible assumption | with_reducible apply Fab.set_ok | with_reducible apply Fab.linkGo_ok | intro _

theorem Fab.linkEn_ok {f : Fab} (h : f.Ok) (c : Nat) (v : Bool) : (f.linkEn c v).Ok := by
  unfold Fab.linkEn
  repeat' first
    | with_reducible assumption | with_reducible apply Fab.ok_ite | with_reducible apply Fab.set_ok
    | with_reducible apply Fab.updPort_ok | with_reducible apply Fab.emit_ok | with_reducible apply Fab.dmaPortLost_ok
    | with_reducible apply Fab.linkGo_ok | with_reducible apply Fab.leaveActive_ok
    | with_reducible apply Fab.parentLost_ok | intro _ | split | with_reducible apply Fab.ok_mk

theorem Fab.linkRetrain_ok {f : Fab} (h : f.Ok) (c : Nat) : (f.linkRetrain c).Ok := by
  unfold Fab.linkRetrain
  repeat' first
    | with_reducible assumption | with_reducible apply Fab.ok_ite | with_reducible apply Fab.emit_ok
    | with_reducible apply Fab.linkGo_ok | with_reducible apply Fab.leaveActive_ok
    | with_reducible apply Fab.parentLost_ok | intro _ | split

theorem Fab.linkLat_ok {f : Fab} (h : f.Ok) (c : Nat) (v : Nat) : (f.linkLat c v).Ok := by
  unfold Fab.linkLat
  repeat' first
    | with_reducible assumption | with_reducible apply Fab.ok_ite | with_reducible apply Fab.set_ok
    | with_reducible apply Fab.leaveActive_ok | with_reducible apply Fab.parentLost_ok | intro _ | split

theorem Fab.elecDone_ok {f : Fab} (h : f.Ok) (c : Nat) : (f.elecDone c).Ok := by
  unfold Fab.elecDone
  repeat' first
    | with_reducible assumption | with_reducible apply Fab.ok_ite | with_reducible apply Fab.linkGo_ok | intro _ | split

theorem Fab.elecTimeout_ok {f : Fab} (h : f.Ok) (c : Nat) : (f.elecTimeout c).Ok := by
  unfold Fab.elecTimeout
  repeat' first
    | with_reducible assumption | with_reducible apply Fab.ok_ite | with_reducible apply Fab.trainFail_ok | intro _
    | split

theorem Fab.trainFlit_ok {f : Fab} (h : f.Ok) (c : Nat) : (f.trainFlit c).Ok := by
  unfold Fab.trainFlit
  repeat' first
    | with_reducible assumption | with_reducible apply Fab.free_ok | with_reducible apply Fab.emit_ok | intro _

theorem Fab.alignLock_ok {f : Fab} (h : f.Ok) (c : Nat) (lrev : Bool) (lpol : Nat) : (f.alignLock c lrev lpol).Ok := by
  unfold Fab.alignLock
  repeat' first
    | with_reducible assumption | with_reducible apply Fab.ok_ite | with_reducible apply Fab.set_ok
    | with_reducible apply Fab.linkGo_ok | with_reducible apply Fab.trainFlit_ok | intro _ | split

theorem Fab.alignFail_ok {f : Fab} (h : f.Ok) (c : Nat) : (f.alignFail c).Ok := by
  unfold Fab.alignFail
  repeat' first
    | with_reducible assumption | with_reducible apply Fab.ok_ite | with_reducible apply Fab.trainFail_ok | intro _
    | split

theorem Fab.rxTrain_ok {f : Fab} (h : f.Ok) (c : Nat) (now : Nat) (w : Flit) : (f.rxTrain c now w).Ok := by
  unfold Fab.rxTrain
  repeat' first
    | with_reducible assumption | with_reducible apply Fab.ok_ite | with_reducible apply Fab.set_ok
    | with_reducible apply Fab.emit_ok | with_reducible apply Fab.rxCtl_ok | with_reducible apply Fab.linkGo_ok
    | with_reducible apply Fab.trainFail_ok | with_reducible refine Fab.ok_fst (by with_reducible assumption) ?_
    | with_reducible refine Fab.ok_snd (by with_reducible assumption) ?_
    | with_reducible refine Fab.ok_snd2 (by with_reducible assumption) ?_
    | with_reducible refine Fab.ok_snd4 (by with_reducible assumption) ?_ | intro _ | split

theorem Fab.rxTimesync_ok {f : Fab} (h : f.Ok) (c : Nat) (now : Nat) (w : Flit) : (f.rxTimesync c now w).Ok := by
  unfold Fab.rxTimesync
  repeat' first
    | with_reducible assumption | with_reducible apply Fab.ok_ite | with_reducible apply Fab.emit_ok
    | with_reducible apply Fab.seenTb_ok | with_reducible apply Fab.rxCtl_ok
    | with_reducible refine Fab.ok_fst (by with_reducible assumption) ?_
    | with_reducible refine Fab.ok_snd (by with_reducible assumption) ?_
    | with_reducible refine Fab.ok_snd2 (by with_reducible assumption) ?_
    | with_reducible refine Fab.ok_snd4 (by with_reducible assumption) ?_ | intro _ | split

theorem Fab.rxEcho_ok {f : Fab} (h : f.Ok) (c : Nat) (now : Nat) (rtt : Nat) (w : Flit) : (f.rxEcho c now rtt w).Ok := by
  unfold Fab.rxEcho
  repeat' first
    | with_reducible assumption | with_reducible apply Fab.ok_ite | with_reducible apply Fab.set_ok
    | with_reducible apply Fab.setTb_ok | with_reducible apply Fab.seenTb_ok | with_reducible apply Fab.rxCtl_ok
    | with_reducible apply Fab.linkGo_ok | with_reducible refine Fab.ok_fst (by with_reducible assumption) ?_
    | with_reducible refine Fab.ok_snd (by with_reducible assumption) ?_
    | with_reducible refine Fab.ok_snd2 (by with_reducible assumption) ?_
    | with_reducible refine Fab.ok_snd4 (by with_reducible assumption) ?_ | intro _ | split

theorem Fab.rxLatprobe_ok {f : Fab} (h : f.Ok) (c : Nat) (now : Nat) (w : Flit) : (f.rxLatprobe c now w).Ok := by
  unfold Fab.rxLatprobe
  repeat' first
    | with_reducible assumption | with_reducible apply Fab.ok_ite | with_reducible apply Fab.set_ok
    | with_reducible apply Fab.updPort_ok | with_reducible apply Fab.raise_ok | with_reducible apply Fab.seenTb_ok
    | with_reducible apply Fab.rxCtl_ok | with_reducible refine Fab.ok_fst (by with_reducible assumption) ?_
    | with_reducible refine Fab.ok_snd (by with_reducible assumption) ?_
    | with_reducible refine Fab.ok_snd2 (by with_reducible assumption) ?_
    | with_reducible refine Fab.ok_snd4 (by with_reducible assumption) ?_ | intro _ | split
    | with_reducible apply Fab.ok_mk

theorem Fab.pinComplete_ok {f : Fab} (h : f.Ok) (c : Nat) (peerOk : Bool) : (f.pinComplete c peerOk).Ok := by
  unfold Fab.pinComplete
  repeat' first
    | with_reducible assumption | with_reducible apply Fab.ok_ite | with_reducible apply Fab.linkGo_ok
    | with_reducible apply Fab.trainFail_ok | intro _ | split

theorem Fab.sendProbe_ok {f : Fab} (h : f.Ok) (c : Nat) (now : Nat) : (f.sendProbe c now).Ok := by
  unfold Fab.sendProbe
  repeat' first
    | with_reducible assumption | with_reducible apply Fab.ok_ite | with_reducible apply Fab.emit_ok
    | with_reducible apply Fab.seenTb_ok | intro _ | split

theorem Fab.rxTblsync_ok {f : Fab} (h : f.Ok) (c : Nat) (now : Nat) (w : Flit) : (f.rxTblsync c now w).Ok := by
  unfold Fab.rxTblsync
  repeat' first
    | with_reducible assumption | with_reducible apply Fab.ok_ite | with_reducible apply Fab.set_ok
    | with_reducible apply Fab.rxCtl_ok | with_reducible refine Fab.ok_fst (by with_reducible assumption) ?_
    | with_reducible refine Fab.ok_snd (by with_reducible assumption) ?_
    | with_reducible refine Fab.ok_snd2 (by with_reducible assumption) ?_
    | with_reducible refine Fab.ok_snd4 (by with_reducible assumption) ?_ | intro _ | split

theorem Fab.frameFlit_ok {f : Fab} (h : f.Ok) (c : Nat) (now : Nat) (w : Flit) : (f.frameFlit c now w).Ok := by
  unfold Fab.frameFlit
  repeat' first
    | with_reducible assumption | with_reducible apply Fab.ok_ite | with_reducible apply Fab.updPort_ok
    | with_reducible apply Fab.linkUe_ok | with_reducible apply Fab.linkCe_ok | intro _ | split
    | with_reducible apply Fab.ok_mk

theorem Fab.schedFlit_ok {f : Fab} (h : f.Ok) (c : Nat) (now : Nat) (w : Flit) : (f.schedFlit c now w).Ok := by
  unfold Fab.schedFlit
  repeat' first
    | with_reducible assumption | with_reducible apply Fab.ok_ite | with_reducible apply Fab.updPort_ok
    | with_reducible apply Fab.linkUe_ok | with_reducible apply Fab.linkCe_ok | with_reducible apply Fab.atPos_ok
    | intro _ | split | with_reducible apply Fab.ok_mk

theorem Fab.linkWrite_ok {f : Fab} (h : f.Ok) (p : Nat) (c : Nat) (ent : Nat) (t : Nat) (w : Flit) :
    (f.linkWrite p c ent t w).Ok := by
  unfold Fab.linkWrite
  repeat' first
    | with_reducible assumption | with_reducible apply Fab.launch_ok | intro _

theorem Fab.flitRelease_ok {f : Fab} (h : f.Ok) (c : Nat) (now : Nat) : (f.flitRelease c now).Ok := by
  unfold Fab.flitRelease
  repeat' first
    | with_reducible assumption | with_reducible apply Fab.ok_ite | with_reducible apply Fab.set_ok
    | with_reducible apply Fab.stick_ok | with_reducible apply Fab.updPort_ok | with_reducible apply Fab.failInterval_ok
    | with_reducible apply Fab.linkWrite_ok | intro _ | split | with_reducible apply Fab.ok_mk

theorem Fab.linkWord_ok {f : Fab} (h : f.Ok) (en : Nat) (off : Nat) (s : Nat) : (f.linkWord en off s).2.2.Ok := by
  delta Fab.linkWord
  extract_lets e hit src m d x f1
  have h0 : src.2.Ok := by with_reducible exact Fab.free_ok h _
  have h1 : m.fab.Ok := by with_reducible exact Fab.read_ok h0 _ _ _
  have h2 : d.2.Ok := by with_reducible exact Fab.free_ok h1 _
  have h3 : x.2.Ok := by with_reducible exact Fab.free_ok h2 _
  have h4 : f1.Ok := by with_reducible exact Fab.updEng_ok h3 _ _
  clear_value f1 x d m
  with_reducible exact Fab.ok_ite22 (fun _ => Fab.ok_p22 h4) (fun _ => Fab.ok_p22 h1)

theorem Fab.linkRead_ok {f : Fab} (h : f.Ok) (c : Nat) (now : Nat) : (f.linkRead c now).Ok := by
  unfold Fab.linkRead
  repeat' first
    | with_reducible assumption | with_reducible apply Fab.ok_ite | with_reducible apply Fab.updPort_ok
    | with_reducible apply Fab.failInterval_ok | with_reducible apply Fab.launch_ok | with_reducible apply Fab.portB_ok
    | with_reducible apply Fab.meetPut_ok | with_reducible apply Fab.linkWord_ok
    | with_reducible refine Fab.ok_fst (by with_reducible assumption) ?_
    | with_reducible refine Fab.ok_snd (by with_reducible assumption) ?_
    | with_reducible refine Fab.ok_snd2 (by with_reducible assumption) ?_
    | with_reducible refine Fab.ok_snd4 (by with_reducible assumption) ?_ | intro _ | split
    | with_reducible apply Fab.ok_mk

theorem Fab.rxIdle_ok {f : Fab} (h : f.Ok) (c : Nat) (now : Nat) (w : Flit) : (f.rxIdle c now w).Ok := by
  unfold Fab.rxIdle
  repeat' first
    | with_reducible assumption | with_reducible apply Fab.rxCtl_ok | intro _

theorem Fab.rxWake_ok {f : Fab} (h : f.Ok) (c : Nat) (now : Nat) (w : Flit) : (f.rxWake c now w).Ok := by
  unfold Fab.rxWake
  repeat' first
    | with_reducible assumption | with_reducible apply Fab.ok_ite | with_reducible apply Fab.set_ok
    | with_reducible apply Fab.rxCtl_ok | with_reducible refine Fab.ok_fst (by with_reducible assumption) ?_
    | with_reducible refine Fab.ok_snd (by with_reducible assumption) ?_
    | with_reducible refine Fab.ok_snd2 (by with_reducible assumption) ?_
    | with_reducible refine Fab.ok_snd4 (by with_reducible assumption) ?_ | intro _ | split

theorem Fab.rxDown_ok {f : Fab} (h : f.Ok) (c : Nat) (now : Nat) (w : Flit) : (f.rxDown c now w).Ok := by
  unfold Fab.rxDown
  repeat' first
    | with_reducible assumption | with_reducible apply Fab.rxCtl_ok | with_reducible apply Fab.linkFail_ok
    | with_reducible refine Fab.ok_fst (by with_reducible assumption) ?_
    | with_reducible refine Fab.ok_snd (by with_reducible assumption) ?_
    | with_reducible refine Fab.ok_snd2 (by with_reducible assumption) ?_
    | with_reducible refine Fab.ok_snd4 (by with_reducible assumption) ?_ | intro _ | split

theorem Fab.sendAck_ok {f : Fab} (h : f.Ok) (c : Nat) (seq : Nat) (nak : Bool) : (f.sendAck c seq nak).Ok := by
  unfold Fab.sendAck
  repeat' first
    | with_reducible assumption | with_reducible apply Fab.emit_ok | intro _

theorem Fab.sendCredit_ok {f : Fab} (h : f.Ok) (c : Nat) (n : Nat) : (f.sendCredit c n).Ok := by
  unfold Fab.sendCredit
  repeat' first
    | with_reducible assumption | with_reducible apply Fab.emit_ok | intro _

theorem Fab.bgWord_ok {f : Fab} (h : f.Ok) (c : Nat) (a : Nat) (w : Flit) : (f.bgWord c a w).fab.Ok := by
  delta Fab.bgWord
  extract_lets
  repeat' first
    | with_reducible assumption | with_reducible apply Fab.ok_ite | with_reducible apply Fab.poison_ok
    | with_reducible apply Fab.errLog_ok | with_reducible apply Fab.fenceLog_ok | with_reducible apply Fab.wrDev_ok
    | with_reducible refine Fab.ok_fst (by with_reducible assumption) ?_
    | with_reducible refine Fab.ok_snd (by with_reducible assumption) ?_
    | with_reducible refine Fab.ok_snd2 (by with_reducible assumption) ?_
    | with_reducible refine Fab.ok_snd4 (by with_reducible assumption) ?_ | intro _ | split

theorem Fab.bgWords_ok {f : Fab} (h : f.Ok) (c : Nat) (a : Nat) (n0 : List Flit) : (f.bgWords c a n0).fab.Ok := by
  induction n0 generalizing f c a with
  | nil => exact h
  | cons _ _ ih =>
    unfold Fab.bgWords
    repeat' first
    | with_reducible assumption | apply ih
    | with_reducible apply Fab.bgWord_ok
    | intro _
    | split

theorem Fab.dataFlit_ok {f : Fab} (h : f.Ok) (c : Nat) (now : Nat) (w : Flit) : (f.dataFlit c now w).Ok := by
  unfold Fab.dataFlit
  repeat' first
    | with_reducible assumption | with_reducible apply Fab.ok_ite | with_reducible apply Fab.linkUe_ok
    | with_reducible apply Fab.linkCe_ok | with_reducible apply Fab.atPos_ok | intro _ | split

theorem Fab.rxPacket_ok {f : Fab} (h : f.Ok) (c : Nat) (now : Nat) (w : Flit) (data : List Flit) :
    (f.rxPacket c now w data).Ok := by
  unfold Fab.rxPacket
  repeat' first
    | with_reducible assumption | with_reducible apply Fab.ok_ite | with_reducible apply Fab.ok_foldl
    | with_reducible apply Fab.updPort_ok | with_reducible apply Fab.linkUe_ok | with_reducible apply Fab.rxCtl_ok
    | with_reducible apply Fab.sendAck_ok | with_reducible apply Fab.sendCredit_ok | with_reducible apply Fab.bgWords_ok
    | with_reducible apply Fab.dataFlit_ok | with_reducible refine Fab.ok_fst (by with_reducible assumption) ?_
    | with_reducible refine Fab.ok_snd (by with_reducible assumption) ?_
    | with_reducible refine Fab.ok_snd2 (by with_reducible assumption) ?_
    | with_reducible refine Fab.ok_snd4 (by with_reducible assumption) ?_ | intro _ | split
    | with_reducible apply Fab.ok_mk

theorem Fab.ackUpTo_ok {f : Fab} (h : f.Ok) (c : Nat) (seq : Nat) : (f.ackUpTo c seq).Ok := by
  unfold Fab.ackUpTo
  repeat' first
    | with_reducible assumption | with_reducible apply Fab.ok_foldl | with_reducible apply Fab.updPort_ok
    | with_reducible apply Fab.drainTx_ok | with_reducible apply Fab.dmaAcked_ok | intro _ | split
    | with_reducible apply Fab.ok_mk

theorem Fab.resendFrom_ok {f : Fab} (h : f.Ok) (c : Nat) (seq : Nat) : (f.resendFrom c seq).Ok := by
  unfold Fab.resendFrom
  repeat' first
    | with_reducible assumption | with_reducible apply Fab.ok_ite | with_reducible apply Fab.ok_foldl
    | with_reducible apply Fab.stick_ok | with_reducible apply Fab.updPort_ok | with_reducible apply Fab.emitPkt_ok
    | with_reducible apply Fab.linkFail_ok | intro _ | split | with_reducible apply Fab.ok_mk

theorem Fab.rxAck_ok {f : Fab} (h : f.Ok) (c : Nat) (now : Nat) (w : Flit) : (f.rxAck c now w).Ok := by
  unfold Fab.rxAck
  repeat' first
    | with_reducible assumption | with_reducible apply Fab.ok_ite | with_reducible apply Fab.rxCtl_ok
    | with_reducible apply Fab.ackUpTo_ok | with_reducible apply Fab.resendFrom_ok
    | with_reducible refine Fab.ok_fst (by with_reducible assumption) ?_
    | with_reducible refine Fab.ok_snd (by with_reducible assumption) ?_
    | with_reducible refine Fab.ok_snd2 (by with_reducible assumption) ?_
    | with_reducible refine Fab.ok_snd4 (by with_reducible assumption) ?_ | intro _ | split

theorem Fab.rxCredit_ok {f : Fab} (h : f.Ok) (c : Nat) (now : Nat) (w : Flit) : (f.rxCredit c now w).Ok := by
  unfold Fab.rxCredit
  repeat' first
    | with_reducible assumption | with_reducible apply Fab.ok_ite | with_reducible apply Fab.updPort_ok
    | with_reducible apply Fab.rxCtl_ok | with_reducible apply Fab.drainTx_ok
    | with_reducible refine Fab.ok_fst (by with_reducible assumption) ?_
    | with_reducible refine Fab.ok_snd (by with_reducible assumption) ?_
    | with_reducible refine Fab.ok_snd2 (by with_reducible assumption) ?_
    | with_reducible refine Fab.ok_snd4 (by with_reducible assumption) ?_ | intro _ | split
    | with_reducible apply Fab.ok_mk

theorem Fab.frameLost_ok {f : Fab} (h : f.Ok) (c : Nat) : (f.frameLost c).Ok := by
  unfold Fab.frameLost
  repeat' first
    | with_reducible assumption | with_reducible apply Fab.ok_ite | with_reducible apply Fab.updPort_ok
    | with_reducible apply Fab.linkFail_ok | intro _ | split | with_reducible apply Fab.ok_mk

end Sys2Proof.Machine
end

