-- ==== Sys2Proof/Laws/KeepScrub.lean ====
section
/-! SUPPORT. What the operations of Machine/Scrub.lean keep. -/

namespace Sys2Proof.Machine

theorem Fab.scrubUe_ok {f : Fab} (h : f.Ok) (a : Nat) (syn : Nat) : (f.scrubUe a syn).Ok := by
  unfold Fab.scrubUe
  repeat' first
    | with_reducible assumption | with_reducible apply Fab.ok_ite | with_reducible apply Fab.stick_ok
    | with_reducible apply Fab.raise_ok | with_reducible apply Fab.logUe_ok | with_reducible apply Fab.poison_ok
    | with_reducible apply Fab.dataLoss_ok | with_reducible refine Fab.ok_fst (by with_reducible assumption) ?_
    | with_reducible refine Fab.ok_snd (by with_reducible assumption) ?_
    | with_reducible refine Fab.ok_snd2 (by with_reducible assumption) ?_
    | with_reducible refine Fab.ok_snd4 (by with_reducible assumption) ?_ | intro _ | dsimp only | split

theorem Fab.scrubAt_ok {f : Fab} (h : f.Ok) (a : Nat) : (f.scrubAt a).Ok := by
  delta Fab.scrubAt
  extract_lets
  repeat' first
    | with_reducible assumption | with_reducible apply Fab.noteCe_ok | with_reducible apply Fab.scrubUe_ok
    | with_reducible refine Fab.ok_fst (by with_reducible assumption) ?_
    | with_reducible refine Fab.ok_snd (by with_reducible assumption) ?_
    | with_reducible refine Fab.ok_snd2 (by with_reducible assumption) ?_
    | with_reducible refine Fab.ok_snd4 (by with_reducible assumption) ?_ | intro _ | split

theorem Fab.scrubMove_ok {f : Fab} (h : f.Ok) (isD : Bool) (a : Nat) : (f.scrubMove isD a).Ok := by
  unfold Fab.scrubMove
  repeat' first
    | with_reducible assumption | with_reducible apply Fab.ok_ite | with_reducible apply Fab.set_ok
    | with_reducible apply Fab.stick_ok | intro _ | split

theorem Fab.scrubWord_ok {f : Fab} (h : f.Ok) (isD : Bool) : (f.scrubWord isD).Ok := by
  unfold Fab.scrubWord
  repeat' first
    | with_reducible assumption | with_reducible apply Fab.ok_ite | with_reducible apply Fab.set_ok
    | with_reducible apply Fab.confWait_ok | with_reducible apply Fab.scrubAt_ok | with_reducible apply Fab.scrubMove_ok
    | intro _ | split

theorem Fab.scrubLag_ok {f : Fab} (h : f.Ok) (isD : Bool) : (f.scrubLag isD).Ok := by
  unfold Fab.scrubLag
  repeat' first
    | with_reducible assumption | with_reducible apply Fab.ok_ite | with_reducible apply Fab.set_ok | intro _ | split

theorem Fab.marchFail_ok {f : Fab} (h : f.Ok) (wa : Nat) (sym : Nat) (elem : Nat) : (f.marchFail wa sym elem).Ok := by
  unfold Fab.marchFail
  repeat' first
    | with_reducible assumption | with_reducible apply Fab.ok_ite | with_reducible apply Fab.set_ok
    | with_reducible apply Fab.raise_ok | intro _ | split

theorem Fab.testBegin_ok {f : Fab} (h : f.Ok) (a : Nat) : (f.testBegin a).Ok := by
  unfold Fab.testBegin
  repeat' first
    | with_reducible assumption | with_reducible apply Fab.ok_ite | with_reducible apply Fab.ok_foldl
    | with_reducible apply Fab.set_ok | with_reducible apply Fab.noteRead_ok | with_reducible apply Fab.loseResv_ok
    | with_reducible apply Fab.confWait_ok | intro _ | split | with_reducible apply Fab.ok_mk

theorem Fab.testEnd_ok {f : Fab} (h : f.Ok) (bad : Option MarchBad) (lost : BitVec 64) :
    (f.testEnd bad lost).Ok := by
  delta Fab.testEnd
  extract_lets a f1 f2
  have h1 : f1.Ok := by
    dsimp only [f1]
    split
    · with_reducible exact Fab.marchFail_ok h _ _ _
    · exact h
  have h2 : f2.Ok := by with_reducible exact Fab.set_ok (Fab.chunkLost_ok h1 _) _ _
  clear_value f2
  split
  · with_reducible exact Fab.set_ok h2 _ _
  · with_reducible exact Fab.stick_ok (Fab.set_ok h2 _ _) _ _

theorem Fab.testChunk_ok {f : Fab} (h : f.Ok) (bad : Option MarchBad) (lost : BitVec 64) :
    (f.testChunk bad lost).Ok := by
  unfold Fab.testChunk
  repeat' first
    | with_reducible assumption | with_reducible apply Fab.ok_ite | with_reducible apply Fab.set_ok
    | with_reducible apply Fab.confWait_ok | with_reducible apply Fab.testBegin_ok | with_reducible apply Fab.testEnd_ok
    | with_reducible refine Fab.ok_fst (by with_reducible assumption) ?_
    | with_reducible refine Fab.ok_snd (by with_reducible assumption) ?_
    | with_reducible refine Fab.ok_snd2 (by with_reducible assumption) ?_
    | with_reducible refine Fab.ok_snd4 (by with_reducible assumption) ?_ | intro _ | dsimp only | split

theorem Fab.injectNow_ok {f : Fab} (h : f.Ok) : (f.injectNow).Ok := by
  unfold Fab.injectNow
  repeat' first
    | with_reducible assumption | with_reducible apply Fab.ok_ite | with_reducible apply Fab.set_ok
    | with_reducible apply Fab.poison_ok | with_reducible apply Fab.freeRepair_ok | intro _ | split
    | with_reducible apply Fab.ok_mk

theorem Fab.inject_ok {f : Fab} (h : f.Ok) : (f.inject).Ok := by
  unfold Fab.inject
  repeat' first
    | with_reducible assumption | with_reducible apply Fab.ok_ite | with_reducible apply Fab.yieldAt_ok
    | with_reducible apply Fab.errLog_ok | with_reducible apply Fab.injectNow_ok | intro _ | split
    | with_reducible apply Fab.ok_mk

theorem Fab.scrubInject_ok {f : Fab} (h : f.Ok) (m : Master) (v : Word) : (f.scrubInject m v).Ok := by
  unfold Fab.scrubInject
  repeat' first
    | with_reducible assumption | with_reducible apply Fab.ok_ite | with_reducible apply Fab.setReg_ok
    | with_reducible apply Fab.inject_ok | intro _ | split

theorem Fab.ddrSweep_ok {f : Fab} (h : f.Ok) (n : Nat) : (f.ddrSweep n).Ok := by
  unfold Fab.ddrSweep
  repeat' first
    | with_reducible assumption | with_reducible apply Fab.ok_ite | with_reducible apply Fab.set_ok
    | with_reducible apply Fab.zeroRange_ok | with_reducible apply Fab.injectNow_ok | intro _ | split

end Sys2Proof.Machine
end

