-- ==== Sys2Proof/Laws/KeepFlash.lean ====
section
/-! SUPPORT. What the operations of Machine/Flash.lean keep. -/

namespace Sys2Proof.Machine

theorem Fab.sealWith_ok {f : Fab} (h : f.Ok) (key : Nat) : (f.sealWith key).Ok := by
  unfold Fab.sealWith
  repeat' first
    | with_reducible assumption | with_reducible apply Fab.ok_foldl | with_reducible apply Fab.free_ok
    | with_reducible apply Fab.putEntry_ok | intro _ | with_reducible apply Fab.ok_mk

theorem Fab.sealLog_ok {f : Fab} (h : f.Ok) : (f.sealLog).Ok := by
  unfold Fab.sealLog
  repeat' first
    | with_reducible assumption | with_reducible apply Fab.sealWith_ok | intro _

theorem Fab.logEvent_ok {f : Fab} (h : f.Ok) (code : Nat) (sev : Nat) (data : List Nat) : (f.logEvent code sev data).Ok := by
  unfold Fab.logEvent
  repeat' first
    | with_reducible assumption | with_reducible apply Fab.ok_ite | with_reducible apply Fab.sealLog_ok | intro _
    | split | with_reducible apply Fab.ok_mk

theorem Fab.drivePin_ok {f : Fab} (h : f.Ok) (name : Nat) (old : Bool) (new : Bool) : (f.drivePin name old new).Ok := by
  unfold Fab.drivePin
  repeat' first
    | with_reducible assumption | with_reducible apply Fab.ok_ite | with_reducible apply Fab.emit_ok | intro _ | split

theorem Fab.alert_ok {f : Fab} (h : f.Ok) (v : Bool) : (f.alert v).Ok := by
  unfold Fab.alert
  repeat' first
    | with_reducible assumption | with_reducible apply Fab.drivePin_ok | intro _ | with_reducible apply Fab.ok_mk

end Sys2Proof.Machine
end

