-- ==== Sys2Proof/Laws/KeepIscCmds.lean ====
section
/-! SUPPORT. What the operations of Machine/IscCmds.lean keep. -/

namespace Sys2Proof.Machine

theorem Fab.wakeMark_ok {f : Fab} (h : f.Ok) (s : Nat) : (f.wakeMark s).Ok := by
  unfold Fab.wakeMark
  repeat' first
    | with_reducible assumption | with_reducible apply Fab.ok_ite | with_reducible apply Fab.ok_foldl
    | with_reducible apply Fab.set_ok | intro _ | split

theorem Fab.logSource_ok {f : Fab} (h : f.Ok) (s : Nat) (lvl : Bool) : (f.logSource s lvl).Ok := by
  unfold Fab.logSource
  repeat' first
    | with_reducible assumption | with_reducible apply Fab.ok_ite | with_reducible apply Fab.logEvent_ok | intro _
    | split

theorem Fab.iscMessage_ok {f : Fab} (h : f.Ok) : (f.iscMessage).Ok := by
  unfold Fab.iscMessage
  repeat' first
    | with_reducible assumption | with_reducible apply Fab.ok_ite | with_reducible apply Fab.takeMsg_ok
    | with_reducible apply Fab.wakeMark_ok | with_reducible apply Fab.logSource_ok | intro _ | split
    | with_reducible apply Fab.ok_mk

theorem Fab.deliverLatched_ok {f : Fab} (h : f.Ok) : (f.deliverLatched).Ok := by
  unfold Fab.deliverLatched
  repeat' first
    | with_reducible assumption | intro _ | with_reducible apply Fab.ok_mk

theorem Fab.sraise_ok {f : Fab} (h : f.Ok) (m : Master) (s : Nat) (lvl : Bool) : (f.sraise m s lvl).Ok := by
  unfold Fab.sraise
  repeat' first
    | with_reducible assumption | with_reducible apply Fab.sendMsg_ok | intro _

theorem Fab.iscDoorbell_ok {f : Fab} (h : f.Ok) (m : Master) (v : Word) : (f.iscDoorbell m v).Ok := by
  unfold Fab.iscDoorbell
  repeat' first
    | with_reducible assumption | with_reducible apply Fab.ok_ite | with_reducible apply Fab.sendMsg_ok | intro _
    | split

theorem Fab.ddrPortShow_ok {f : Fab} (h : f.Ok) (n : Nat) (state : Nat) (cause : Nat) (d : Dimm) :
    (f.ddrPortShow n state cause d).Ok := by
  unfold Fab.ddrPortShow
  repeat' first
    | with_reducible assumption | with_reducible apply Fab.ok_ite | with_reducible apply Fab.set_ok | intro _ | split

theorem Fab.ddrTrain_ok {f : Fab} (h : f.Ok) (ds : List Dimm) : (f.ddrTrain ds).Ok := by
  unfold Fab.ddrTrain
  repeat' first
    | with_reducible assumption | with_reducible apply Fab.ok_ite | with_reducible apply Fab.ok_foldl
    | with_reducible apply Fab.set_ok | with_reducible apply Fab.ddrPortShow_ok | intro _ | split
    | with_reducible apply Fab.ok_mk

theorem Fab.ddrRetrain_ok {f : Fab} (h : f.Ok) (m : Master) (ds : List Dimm) : (f.ddrRetrain m ds).Ok := by
  unfold Fab.ddrRetrain
  repeat' first
    | with_reducible assumption | with_reducible apply Fab.ok_ite | with_reducible apply Fab.set_ok
    | with_reducible apply Fab.ddrTrain_ok | intro _ | split

theorem Fab.dimmTemp_ok {f : Fab} (h : f.Ok) (n : Nat) (t : BitVec 8) (hot : Bool) : (f.dimmTemp n t hot).Ok := by
  unfold Fab.dimmTemp
  repeat' first
    | with_reducible assumption | with_reducible apply Fab.ok_ite | with_reducible apply Fab.set_ok
    | with_reducible apply Fab.raise_ok | intro _ | split

theorem Fab.alertWord_ok {f : Fab} (h : f.Ok) (n : Nat) (x : DramAddr × BitVec 160) : (f.alertWord n x).Ok := by
  unfold Fab.alertWord
  repeat' first
    | with_reducible assumption | with_reducible apply Fab.ok_ite | with_reducible apply Fab.set_ok | intro _ | split
    | with_reducible apply Fab.ok_mk

theorem Fab.caAlert_ok {f : Fab} (h : f.Ok) (n : Nat) (second : Bool) (words : List (DramAddr × BitVec 160)) :
    (f.caAlert n second words).Ok := by
  unfold Fab.caAlert
  repeat' first
    | with_reducible assumption | with_reducible apply Fab.ok_ite | with_reducible apply Fab.ok_foldl
    | with_reducible apply Fab.stick_ok | with_reducible apply Fab.alertWord_ok | intro _ | split

theorem Fab.hostCount_ok {f : Fab} (h : f.Ok) (m : Master) (x : Nat → Fld) : (f.hostCount m x).Ok := by
  unfold Fab.hostCount
  repeat' first
    | with_reducible assumption | with_reducible apply Fab.ok_ite | with_reducible apply Fab.stick_ok | intro _ | split

theorem Fab.hostRefuse_ok {f : Fab} (h : f.Ok) (m : Master) (a : Nat) (kind : Nat) (barsp : Nat) :
    (f.hostRefuse m a kind barsp).Ok := by
  unfold Fab.hostRefuse
  repeat' first
    | with_reducible assumption | with_reducible apply Fab.errLog_ok | with_reducible apply Fab.hostCount_ok | intro _

theorem Fab.viewRead_ok {f : Fab} (h : f.Ok) (x : Master) (p : Nat) (off : Nat) (len : Nat) :
    (f.viewRead x p off len).Ok := by
  unfold Fab.viewRead
  repeat' first
    | with_reducible assumption | with_reducible apply Fab.ok_ite | with_reducible apply Fab.emit_ok
    | with_reducible apply Fab.errLog_ok | with_reducible apply Fab.cvRead_ok | with_reducible apply Fab.hostCount_ok
    | with_reducible apply Fab.hostRefuse_ok | intro _ | split

theorem Fab.viewWrite_ok {f : Fab} (h : f.Ok) (x : Master) (p : Nat) (off : Nat) (len : Nat) (data : Nat) :
    (f.viewWrite x p off len data).Ok := by
  unfold Fab.viewWrite
  repeat' first
    | with_reducible assumption | with_reducible apply Fab.ok_ite | with_reducible apply Fab.errLog_ok
    | with_reducible apply Fab.cvWrite_ok | with_reducible apply Fab.hostRefuse_ok | intro _ | split

end Sys2Proof.Machine
end

