-- ==== Sys2Proof/Laws/KeepUmx.lean ====
section
/-! SUPPORT. What the operations of Machine/Umx.lean keep. -/

namespace Sys2Proof.Machine

theorem Fab.updUmx_ok {f : Fab} (h : f.Ok) (g : Umx → Umx) : (f.updUmx g).Ok := by
  unfold Fab.updUmx
  repeat' first
    | with_reducible assumption | intro _ | with_reducible apply Fab.ok_mk

theorem Fab.updMgmt_ok {f : Fab} (h : f.Ok) (g : Mgmt → Mgmt) : (f.updMgmt g).Ok := by
  unfold Fab.updMgmt
  repeat' first
    | with_reducible assumption | intro _ | with_reducible apply Fab.ok_mk

theorem Fab.umxShow_ok {f : Fab} (h : f.Ok) : (f.umxShow).Ok := by
  unfold Fab.umxShow
  repeat' first
    | with_reducible assumption | with_reducible apply Fab.ok_ite | with_reducible apply Fab.set_ok | intro _ | split

theorem Fab.umxSample_ok {f : Fab} (h : f.Ok) (i0 : Int) (v0 : Int) (i1 : Int) (v1 : Int) : (f.umxSample i0 v0 i1 v1).Ok := by
  unfold Fab.umxSample
  repeat' first
    | with_reducible assumption | with_reducible apply Fab.updUmx_ok | with_reducible apply Fab.umxShow_ok | intro _
    | with_reducible apply Fab.ok_mk

theorem Fab.sealShow_ok {f : Fab} (h : f.Ok) : (f.sealShow).Ok := by
  unfold Fab.sealShow
  repeat' first
    | with_reducible assumption | with_reducible apply Fab.ok_ite | with_reducible apply Fab.set_ok | intro _ | split

theorem Fab.umxLogEvent_ok {f : Fab} (h : f.Ok) (data : List Nat) : (f.umxLogEvent data).Ok := by
  unfold Fab.umxLogEvent
  repeat' first
    | with_reducible assumption | with_reducible apply Fab.ok_ite | with_reducible apply Fab.free_ok | intro _ | split
    | with_reducible apply Fab.ok_mk

theorem Fab.umxSeal_ok {f : Fab} (h : f.Ok) : (f.umxSeal).Ok := by
  unfold Fab.umxSeal
  repeat' first
    | with_reducible assumption | with_reducible apply Fab.umxLogEvent_ok | intro _

theorem Fab.umxCheckpoint_ok {f : Fab} (h : f.Ok) : (f.umxCheckpoint).Ok := by
  unfold Fab.umxCheckpoint
  repeat' first
    | with_reducible assumption | with_reducible apply Fab.ok_ite | intro _ | split | with_reducible apply Fab.ok_mk

theorem Fab.umxRestore_ok {f : Fab} (h : f.Ok) : (f.umxRestore).Ok := by
  unfold Fab.umxRestore
  repeat' first
    | with_reducible assumption | with_reducible apply Fab.set_ok | with_reducible apply Run.put_ok
    | with_reducible apply Run.flags_ok | with_reducible apply Fab.updUmx_ok | with_reducible apply Fab.umxShow_ok
    | with_reducible apply Fab.sealShow_ok | intro _ | split | with_reducible apply Fab.ok_mk

theorem Fab.updAcct_ok {f : Fab} (h : f.Ok) (p : Nat) (g : Acct → Acct) : (f.updAcct p g).Ok := by
  unfold Fab.updAcct
  repeat' first
    | with_reducible assumption | with_reducible apply Fab.updUmx_ok | intro _ | with_reducible apply Fab.ok_mk

theorem Fab.intervalEnd_ok {f : Fab} (h : f.Ok) : (f.intervalEnd).Ok := by
  unfold Fab.intervalEnd
  repeat' first
    | with_reducible assumption | with_reducible apply Fab.ok_ite | with_reducible apply Fab.ok_foldl
    | with_reducible apply Fab.set_ok | with_reducible apply Run.flags_ok | with_reducible apply Fab.updUmx_ok
    | with_reducible apply Fab.updAcct_ok | intro _ | split | with_reducible apply Fab.ok_mk

theorem Fab.umxMs_ok {f : Fab} (h : f.Ok) (act : List Activity) : (f.umxMs act).Ok := by
  unfold Fab.umxMs
  repeat' first
    | with_reducible assumption | with_reducible apply Fab.ok_ite | with_reducible apply Fab.ok_foldl
    | with_reducible apply Fab.set_ok | with_reducible apply Run.flags_ok | with_reducible apply Fab.updUmx_ok
    | with_reducible apply Fab.updAcct_ok | with_reducible apply Fab.intervalEnd_ok | intro _ | split
    | with_reducible apply Fab.ok_mk

theorem Fab.usageRecord_ok {f : Fab} (h : f.Ok) : (f.usageRecord).Ok := by
  unfold Fab.usageRecord
  repeat' first
    | with_reducible assumption | with_reducible apply Fab.ok_ite | with_reducible apply Fab.set_ok
    | with_reducible apply Fab.updUmx_ok | with_reducible apply Fab.updMgmt_ok | intro _ | split
    | with_reducible apply Fab.ok_mk

theorem Fab.timebaseCheck_ok {f : Fab} (h : f.Ok) (n : Nat) : (f.timebaseCheck n).Ok := by
  unfold Fab.timebaseCheck
  repeat' first
    | with_reducible assumption | with_reducible apply Fab.ok_ite | with_reducible apply Fab.set_ok
    | with_reducible apply Run.flags_ok | with_reducible apply Fab.updUmx_ok | intro _ | split
    | with_reducible apply Fab.ok_mk

theorem Fab.sealBreak_ok {f : Fab} (h : f.Ok) : (f.sealBreak).Ok := by
  unfold Fab.sealBreak
  repeat' first
    | with_reducible assumption | with_reducible apply Fab.ok_ite | with_reducible apply Fab.set_ok
    | with_reducible apply Fab.updUmx_ok | with_reducible apply Fab.sealShow_ok
    | with_reducible apply Fab.umxLogEvent_ok | intro _ | split | with_reducible apply Fab.ok_mk

theorem Fab.logBreaks_ok {f : Fab} (h : f.Ok) : (f.logBreaks).Ok := by
  unfold Fab.logBreaks
  repeat' first
    | with_reducible assumption | with_reducible apply Fab.ok_foldl | with_reducible apply Fab.updUmx_ok
    | with_reducible apply Fab.umxLogEvent_ok | intro _ | with_reducible apply Fab.ok_mk

theorem Fab.umxRespond_ok {f : Fab} (h : f.Ok) (op : Nat) (status : Nat) : (f.umxRespond op status).Ok := by
  unfold Fab.umxRespond
  repeat' first
    | with_reducible assumption | with_reducible apply Fab.set_ok | with_reducible apply Fab.updUmx_ok | intro _
    | with_reducible apply Fab.ok_mk

theorem Fab.sealSample_ok {f : Fab} (h : f.Ok) (open_ : Bool) : (f.sealSample open_).Ok := by
  unfold Fab.sealSample
  repeat' first
    | with_reducible assumption | with_reducible apply Fab.ok_ite | with_reducible apply Fab.set_ok
    | with_reducible apply Fab.updUmx_ok | with_reducible apply Fab.sealBreak_ok
    | with_reducible apply Fab.umxRespond_ok | intro _ | split | with_reducible apply Fab.ok_mk

theorem Fab.umxAccept_ok {f : Fab} (h : f.Ok) (op : Nat) (arg : Nat) : (f.umxAccept op arg).Ok := by
  unfold Fab.umxAccept
  repeat' first
    | with_reducible assumption | with_reducible apply Fab.set_ok | with_reducible apply Fab.updUmx_ok
    | with_reducible apply Fab.umxLogEvent_ok | intro _ | with_reducible apply Fab.ok_mk

theorem Fab.setInterval_ok {f : Fab} (h : f.Ok) (n : Nat) : (f.setInterval n).Ok := by
  unfold Fab.setInterval
  repeat' first
    | with_reducible assumption | with_reducible apply Fab.ok_ite | with_reducible apply Fab.set_ok
    | with_reducible apply Fab.umxRespond_ok | with_reducible apply Fab.umxAccept_ok | intro _ | split

theorem Fab.umxUpdate_ok {f : Fab} (h : f.Ok) (o : Nat) : (f.umxUpdate o).Ok := by
  unfold Fab.umxUpdate
  repeat' first
    | with_reducible assumption | with_reducible apply Fab.ok_ite | with_reducible apply Fab.set_ok
    | with_reducible apply Fab.updUmx_ok | with_reducible apply Fab.umxRespond_ok
    | with_reducible apply Fab.umxAccept_ok | intro _ | split | with_reducible apply Fab.ok_mk

theorem Fab.umxReq_ok {f : Fab} (h : f.Ok) (m : Master) (op : Nat) (arg : Nat) : (f.umxReq m op arg).Ok := by
  unfold Fab.umxReq
  repeat' first
    | with_reducible assumption | with_reducible apply Fab.ok_ite | with_reducible apply Fab.umxRespond_ok
    | with_reducible apply Fab.umxAccept_ok | with_reducible apply Fab.setInterval_ok
    | with_reducible apply Fab.umxUpdate_ok | intro _ | split

theorem Fab.umxStart_ok {f : Fab} (h : f.Ok) : (f.umxStart).Ok := by
  unfold Fab.umxStart
  repeat' first
    | with_reducible assumption | with_reducible apply Fab.ok_ite | with_reducible apply Fab.ok_foldl
    | with_reducible apply Fab.set_ok | with_reducible apply Fab.updUmx_ok | with_reducible apply Fab.logBreaks_ok
    | intro _ | split | with_reducible apply Fab.ok_mk

theorem Fab.umxProgram_ok {f : Fab} (h : f.Ok) (src : Nat) : (f.umxProgram src).Ok := by
  unfold Fab.umxProgram
  repeat' first
    | with_reducible assumption | intro _ | with_reducible apply Fab.ok_mk

theorem Fab.enclaveRestart_ok {f : Fab} (h : f.Ok) : (f.enclaveRestart).Ok := by
  unfold Fab.enclaveRestart
  repeat' first
    | with_reducible assumption | with_reducible apply Fab.ok_foldl | with_reducible apply Run.flags_ok
    | with_reducible apply Fab.updUmx_ok | with_reducible apply Fab.umxLogEvent_ok | with_reducible apply Fab.umxSeal_ok
    | with_reducible apply Fab.umxRespond_ok | with_reducible apply Fab.umxStart_ok
    | with_reducible apply Fab.umxProgram_ok | intro _ | split | with_reducible apply Fab.ok_mk

theorem Fab.umxCreated_ok {f : Fab} (h : f.Ok) (p : Nat) : (f.umxCreated p).Ok := by
  unfold Fab.umxCreated
  repeat' first
    | with_reducible assumption | with_reducible apply Fab.updUmx_ok | with_reducible apply Fab.updAcct_ok | intro _
    | with_reducible apply Fab.ok_mk

theorem Fab.umxDestroyed_ok {f : Fab} (h : f.Ok) : (f.umxDestroyed).Ok := by
  unfold Fab.umxDestroyed
  repeat' first
    | with_reducible assumption | with_reducible apply Fab.updUmx_ok | intro _ | with_reducible apply Fab.ok_mk

end Sys2Proof.Machine
end

