-- ==== Sys2Proof/Laws/KeepPower.lean ====
section
/-! SUPPORT. What the operations of Machine/Power.lean keep. -/

namespace Sys2Proof.Machine

theorem Fab.updPwr_ok {f : Fab} (h : f.Ok) (g : Pwr → Pwr) : (f.updPwr g).Ok := by
  unfold Fab.updPwr
  repeat' first
    | with_reducible assumption | intro _ | with_reducible apply Fab.ok_mk

theorem Fab.banksTo_ok {f : Fab} (h : f.Ok) (b : Nat) (st : Nat) : (f.banksTo b st).Ok := by
  unfold Fab.banksTo
  repeat' first
    | with_reducible assumption | with_reducible apply Fab.ok_foldl | with_reducible apply Fab.set_ok | intro _
    | with_reducible apply Fab.ok_mk

theorem Fab.groupLock_ok {f : Fab} (h : f.Ok) (b : Nat) : (f.groupLock b).Ok := by
  unfold Fab.groupLock
  repeat' first
    | with_reducible assumption | with_reducible apply Fab.set_ok | intro _

theorem Fab.fillOff_ok {f : Fab} (h : f.Ok) (b : Nat) : (f.fillOff b).Ok := by
  unfold Fab.fillOff
  repeat' first
    | with_reducible assumption | with_reducible apply Fab.ok_ite | with_reducible apply Fab.ok_foldl
    | with_reducible apply Fab.zeroBank_ok | intro _ | split

theorem Fab.blockGo_ok {f : Fab} (h : f.Ok) (b : Nat) (st : Nat) : (f.blockGo b st).Ok := by
  unfold Fab.blockGo
  repeat' first
    | with_reducible assumption | with_reducible apply Fab.ok_ite | with_reducible apply Fab.set_ok
    | with_reducible apply Fab.raise_ok | with_reducible apply Fab.resetEngines_ok
    | with_reducible apply Fab.zeroBlock_ok | with_reducible apply Fab.banksTo_ok
    | with_reducible apply Fab.groupLock_ok | with_reducible apply Fab.fillOff_ok | intro _ | split

theorem Fab.blockReq_ok {f : Fab} (h : f.Ok) (m : Master) (b : Nat) (v : Nat) : (f.blockReq m b v).Ok := by
  unfold Fab.blockReq
  repeat' first
    | with_reducible assumption | with_reducible apply Fab.ok_ite | with_reducible apply Fab.set_ok | intro _ | split

theorem Fab.blockDone_ok {f : Fab} (h : f.Ok) (b : Nat) : (f.blockDone b).Ok := by
  unfold Fab.blockDone
  repeat' first
    | with_reducible assumption | with_reducible apply Fab.ok_ite | with_reducible apply Fab.set_ok
    | with_reducible apply Fab.blockGo_ok | intro _ | split

theorem Fab.blockSet_ok {f : Fab} (h : f.Ok) (b : Nat) (st : Nat) : (f.blockSet b st).Ok := by
  unfold Fab.blockSet
  repeat' first
    | with_reducible assumption | with_reducible apply Fab.set_ok | with_reducible apply Fab.blockGo_ok | intro _

theorem Fab.eclkWrite_ok {f : Fab} (h : f.Ok) (m : Master) (g : Nat) (v : Nat) : (f.eclkWrite m g v).Ok := by
  unfold Fab.eclkWrite
  repeat' first
    | with_reducible assumption | with_reducible apply Fab.ok_ite | with_reducible apply Fab.ok_foldl
    | with_reducible apply Fab.set_ok | with_reducible apply Fab.busy_ok | with_reducible apply Fab.leaveActive_ok
    | with_reducible apply Fab.parentLost_ok | with_reducible apply Fab.updPwr_ok | intro _ | split
    | with_reducible apply Fab.ok_mk

theorem Fab.pllLock_ok {f : Fab} (h : f.Ok) (g : Nat) : (f.pllLock g).Ok := by
  unfold Fab.pllLock
  repeat' first
    | with_reducible assumption | with_reducible apply Fab.ok_ite | with_reducible apply Fab.set_ok
    | with_reducible apply Fab.updPwr_ok | intro _ | split | with_reducible apply Fab.ok_mk

theorem Fab.sleepStatus_ok {f : Fab} (h : f.Ok) (v : Nat) : (f.sleepStatus v).Ok := by
  unfold Fab.sleepStatus
  repeat' first
    | with_reducible assumption | with_reducible apply Fab.ok_ite | with_reducible apply Fab.set_ok
    | with_reducible apply Fab.raise_ok | intro _ | split

theorem Fab.sleepReq_ok {f : Fab} (h : f.Ok) (m : Master) (v : Word) : (f.sleepReq m v).Ok := by
  unfold Fab.sleepReq
  repeat' first
    | with_reducible assumption | with_reducible apply Fab.ok_ite | with_reducible apply Fab.updPwr_ok
    | with_reducible apply Fab.sleepStatus_ok | intro _ | split | with_reducible apply Fab.ok_mk

theorem Fab.standby_ok {f : Fab} (h : f.Ok) : (f.standby).Ok := by
  unfold Fab.standby
  repeat' first
    | with_reducible assumption | with_reducible apply Fab.ok_ite | with_reducible apply Fab.ok_foldl
    | with_reducible apply Fab.set_ok | with_reducible apply Fab.linkEn_ok | with_reducible apply Fab.updPwr_ok
    | with_reducible apply Fab.blockGo_ok | intro _ | split | with_reducible apply Fab.ok_mk

theorem Fab.dormant_ok {f : Fab} (h : f.Ok) : (f.dormant).Ok := by
  unfold Fab.dormant
  repeat' first
    | with_reducible assumption | with_reducible apply Fab.ok_foldl | with_reducible apply Fab.vaultWipe_ok
    | with_reducible apply Fab.sealLog_ok | with_reducible apply Fab.drivePin_ok
    | with_reducible apply Fab.umxCheckpoint_ok | with_reducible apply Fab.blockGo_ok | intro _
    | with_reducible apply Fab.ok_mk

theorem Fab.sleepCommit_ok {f : Fab} (h : f.Ok) : (f.sleepCommit).Ok := by
  unfold Fab.sleepCommit
  repeat' first
    | with_reducible assumption | with_reducible apply Fab.ok_ite | with_reducible apply Fab.raise_ok
    | with_reducible apply Fab.updPwr_ok | with_reducible apply Fab.sleepStatus_ok | with_reducible apply Fab.standby_ok
    | with_reducible apply Fab.dormant_ok | intro _ | split | with_reducible apply Fab.ok_mk

theorem Fab.standbyExit_ok {f : Fab} (h : f.Ok) : (f.standbyExit).Ok := by
  unfold Fab.standbyExit
  repeat' first
    | with_reducible assumption | with_reducible apply Fab.ok_foldl | with_reducible apply Fab.set_ok
    | with_reducible apply Fab.raise_ok | with_reducible apply Fab.deliverLatched_ok
    | with_reducible apply Fab.updPwr_ok | with_reducible apply Fab.blockGo_ok | with_reducible apply Fab.sleepStatus_ok
    | intro _ | with_reducible apply Fab.ok_mk

theorem Fab.wakeEvent_ok {f : Fab} (h : f.Ok) (kind : Nat) (i : Nat) (bit : Nat) : (f.wakeEvent kind i bit).Ok := by
  unfold Fab.wakeEvent
  repeat' first
    | with_reducible assumption | with_reducible apply Fab.ok_ite | with_reducible apply Fab.set_ok
    | with_reducible apply Fab.drivePin_ok | with_reducible apply Fab.standbyExit_ok | intro _ | split
    | with_reducible apply Fab.ok_mk

theorem Fab.linkWake_ok {f : Fab} (h : f.Ok) (m : Master) (v : Nat) : (f.linkWake m v).Ok := by
  unfold Fab.linkWake
  repeat' first
    | with_reducible assumption | with_reducible apply Fab.ok_ite | with_reducible apply Fab.ok_foldl
    | with_reducible apply Fab.emit_ok | intro _ | split

theorem Fab.alarmSync_ok {f : Fab} (h : f.Ok) (before : Bool) : (f.alarmSync before).Ok := by
  unfold Fab.alarmSync
  repeat' first
    | with_reducible assumption | with_reducible apply Fab.ok_ite | with_reducible apply Fab.raise_ok
    | with_reducible apply Fab.alert_ok | intro _ | split

theorem Fab.gateHeld_ok {f : Fab} (h : f.Ok) : (f.gateHeld).Ok := by
  unfold Fab.gateHeld
  repeat' first
    | with_reducible assumption | with_reducible apply Fab.ok_ite | with_reducible apply Fab.ok_foldl
    | with_reducible apply Fab.blockGo_ok | intro _ | split

theorem Fab.thermHold_ok {f : Fab} (h : f.Ok) : (f.thermHold).Ok := by
  unfold Fab.thermHold
  repeat' first
    | with_reducible assumption | with_reducible apply Fab.ok_ite | with_reducible apply Fab.ok_foldl
    | with_reducible apply Fab.set_ok | with_reducible apply Fab.stick_ok | with_reducible apply Fab.raise_ok | intro _
    | split

theorem Fab.sensorSample_ok {f : Fab} (h : f.Ok) (ts : List (BitVec 12)) (vs : List (BitVec 12)) :
    (f.sensorSample ts vs).Ok := by
  unfold Fab.sensorSample
  repeat' first
    | with_reducible assumption | with_reducible apply Fab.ok_ite | with_reducible apply Fab.ok_foldl
    | with_reducible apply Fab.set_ok | with_reducible apply Fab.updPwr_ok | with_reducible apply Fab.alarmSync_ok
    | with_reducible apply Fab.gateHeld_ok | with_reducible apply Fab.thermHold_ok | intro _ | split
    | with_reducible apply Fab.ok_mk

theorem Fab.thermRelease_ok {f : Fab} (h : f.Ok) (now : Nat) : (f.thermRelease now).Ok := by
  unfold Fab.thermRelease
  repeat' first
    | with_reducible assumption | with_reducible apply Fab.ok_ite | with_reducible apply Fab.ok_foldl
    | with_reducible apply Fab.set_ok | with_reducible apply Fab.raise_ok | with_reducible apply Fab.sqHoldreq_ok
    | with_reducible apply Fab.blockGo_ok | intro _ | split

theorem Fab.droop_ok {f : Fab} (h : f.Ok) (b : Nat) (recent : Bool) : (f.droop b recent).Ok := by
  unfold Fab.droop
  repeat' first
    | with_reducible assumption | with_reducible apply Fab.ok_ite | with_reducible apply Fab.set_ok
    | with_reducible apply Fab.stick_ok | intro _ | split

end Sys2Proof.Machine
end

