-- ==== Sys2Proof/Laws/KeepMailbox.lean ====
section
/-! SUPPORT. What the operations of Machine/Mailbox.lean keep. -/

namespace Sys2Proof.Machine

theorem Fab.updMbx_ok {f : Fab} (h : f.Ok) (g : Mbx → Mbx) : (f.updMbx g).Ok := by
  unfold Fab.updMbx
  repeat' first
    | with_reducible assumption | intro _ | with_reducible apply Fab.ok_mk

theorem Fab.putResponse_ok {f : Fab} (h : f.Ok) (n : Nat) (req : Nat) (status : Nat) (part : Nat) (payload : List Nat) :
    (f.putResponse n req status part payload).Ok := by
  unfold Fab.putResponse
  repeat' first
    | with_reducible assumption | with_reducible apply Fab.ok_ite | with_reducible apply Fab.ok_foldl
    | with_reducible apply Fab.set_ok | with_reducible apply Fab.sendMsix_ok | with_reducible apply Fab.updMbx_ok
    | intro _ | split | with_reducible apply Fab.ok_mk

theorem Fab.respond_ok {f : Fab} (h : f.Ok) (status : Nat) (part : Nat) (payload : List Nat) :
    (f.respond status part payload).Ok := by
  unfold Fab.respond
  repeat' first
    | with_reducible assumption | with_reducible apply Fab.ok_ite | with_reducible apply Fab.set_ok
    | with_reducible apply Fab.updMbx_ok | with_reducible apply Fab.putResponse_ok | intro _ | split
    | with_reducible apply Fab.ok_mk

theorem Fab.mbxDrain_ok {f : Fab} (h : f.Ok) (n0 : Nat) : (f.mbxDrain n0).Ok := by
  induction n0 generalizing f with
  | zero => exact h
  | succ _ ih =>
    unfold Fab.mbxDrain
    repeat' first
    | with_reducible assumption | apply ih
    | with_reducible apply Fab.ok_ite
    | with_reducible apply Fab.respond_ok
    | intro _
    | split

theorem Fab.serve_ok {f : Fab} (h : f.Ok) (n : Nat) (op : Nat) (g : Fab → Nat → Fab) (hg : ∀ (f : Fab) (a : Nat), f.Ok → (g f a).Ok) :
    (f.serve n op g).Ok := by
  delta Fab.serve
  extract_lets
  repeat' first
    | with_reducible assumption | with_reducible apply hg | with_reducible apply Fab.ok_ite
    | with_reducible apply Fab.mbxDrain_ok | with_reducible refine Fab.ok_fst (by with_reducible assumption) ?_
    | with_reducible refine Fab.ok_snd (by with_reducible assumption) ?_
    | with_reducible refine Fab.ok_snd2 (by with_reducible assumption) ?_
    | with_reducible refine Fab.ok_snd4 (by with_reducible assumption) ?_ | intro _ | split

theorem Fab.doorbell_ok {f : Fab} (h : f.Ok) (n : Nat) (v : Word) : (f.doorbell n v).Ok := by
  unfold Fab.doorbell
  repeat' first
    | with_reducible assumption | with_reducible apply Fab.ok_ite | with_reducible apply Fab.set_ok
    | with_reducible apply Fab.updMbx_ok | with_reducible apply Fab.mbxDrain_ok | intro _ | split
    | with_reducible apply Fab.ok_mk

theorem Fab.mbxQuery_ok {f : Fab} (h : f.Ok) (n : Nat) (req : Nat) : (f.mbxQuery n req).Ok := by
  unfold Fab.mbxQuery
  repeat' first
    | with_reducible assumption | with_reducible apply Fab.ok_ite | with_reducible apply Fab.respond_ok | intro _
    | split

theorem Fab.vaultPut_ok {f : Fab} (h : f.Ok) (a : Nat) (v : Nat) : (f.vaultPut a v).Ok := by
  unfold Fab.vaultPut
  repeat' first
    | with_reducible assumption | with_reducible apply Fab.ok_foldl | with_reducible apply Fab.putWord_ok | intro _

theorem Fab.drawPair_ok {f : Fab} (h : f.Ok) (n0 : Nat) : (f.drawPair n0).2.Ok := by
  induction n0 generalizing f with
  | zero => exact h
  | succ _ ih =>
    unfold Fab.drawPair
    repeat' first
    | with_reducible assumption | apply ih
    | with_reducible apply Fab.ok_ite
    | with_reducible refine Fab.ok_fst (by with_reducible assumption) ?_
    | with_reducible refine Fab.ok_snd (by with_reducible assumption) ?_
    | with_reducible refine Fab.ok_snd2 (by with_reducible assumption) ?_
    | with_reducible refine Fab.ok_snd4 (by with_reducible assumption) ?_
    | intro _
    | dsimp only
    | split
    | with_reducible apply Fab.ok_mk

theorem Fab.newKey_ok {f : Fab} (h : f.Ok) (k : Nat) : (f.newKey k).Ok := by
  unfold Fab.newKey
  repeat' first
    | with_reducible assumption | with_reducible apply Fab.set_ok | with_reducible apply Fab.vaultPut_ok
    | with_reducible apply Fab.drawPair_ok | intro _ | with_reducible apply Fab.ok_mk

theorem Fab.chanOwner_ok {f : Fab} (h : f.Ok) (ch : List Nat) (p : Option Nat) : (f.chanOwner ch p).Ok := by
  unfold Fab.chanOwner
  repeat' first
    | with_reducible assumption | with_reducible apply Fab.ok_foldl | with_reducible apply Fab.setReg_ok
    | with_reducible apply Fab.set_ok | intro _ | split

theorem Fab.sqReset_ok {f : Fab} (h : f.Ok) (p : Nat) : (f.sqReset p).Ok := by
  exact Fab.ok_regs h _

theorem Fab.create_ok {f : Fab} (h : f.Ok) (n : Nat) (p : Nat) (r : Nat) : (f.create n p r).Ok := by
  unfold Fab.create
  repeat' first
    | with_reducible assumption | with_reducible apply Fab.ok_ite | with_reducible apply Fab.ok_foldl
    | with_reducible apply Fab.setReg_ok | with_reducible apply Fab.set_ok | with_reducible apply Fab.updEng_ok
    | with_reducible apply Fab.resetSources_ok | with_reducible apply Fab.portEvent_ok
    | with_reducible apply Fab.resetEngines_ok | with_reducible apply Fab.ownerWrite_ok
    | with_reducible apply Fab.umxCreated_ok | with_reducible apply Fab.blockSet_ok | with_reducible apply Fab.newKey_ok
    | with_reducible apply Fab.chanOwner_ok | with_reducible apply Fab.sqReset_ok | intro _ | split

theorem Fab.mbxCreate_ok {f : Fab} (h : f.Ok) (n : Nat) (r : Nat) : (f.mbxCreate n r).Ok := by
  unfold Fab.mbxCreate
  repeat' first
    | with_reducible assumption | with_reducible apply Fab.ok_ite | with_reducible apply Fab.respond_ok
    | with_reducible apply Fab.create_ok | intro _ | split

theorem Fab.freeParts_ok {f : Fab} (h : f.Ok) (p : Nat) : (f.freeParts p).Ok := by
  unfold Fab.freeParts
  repeat' first
    | with_reducible assumption | with_reducible apply Fab.ok_foldl | with_reducible apply Fab.setReg_ok
    | with_reducible apply Fab.resetSources_ok | with_reducible apply Fab.chanOwner_ok | intro _

theorem Fab.mbxAdvance_ok {f : Fab} (h : f.Ok) : (f.mbxAdvance).Ok := by
  unfold Fab.mbxAdvance
  repeat' first
    | with_reducible assumption | with_reducible apply Fab.ok_ite | with_reducible apply Fab.ok_foldl
    | with_reducible apply Fab.blockSet_ok | with_reducible apply Fab.respond_ok | with_reducible apply Fab.mbxDrain_ok
    | with_reducible apply Fab.freeParts_ok | intro _ | split

theorem Fab.destroy_ok {f : Fab} (h : f.Ok) (n : Nat) (p : Nat) : (f.destroy n p).Ok := by
  unfold Fab.destroy
  repeat' first
    | with_reducible assumption | with_reducible apply Fab.ok_foldl | with_reducible apply Fab.set_ok
    | with_reducible apply Fab.portEvent_ok | with_reducible apply Fab.ownerWrite_ok
    | with_reducible apply Fab.dmaDisable_ok | with_reducible apply Fab.umxDestroyed_ok
    | with_reducible apply Fab.updMbx_ok | with_reducible apply Fab.vaultPut_ok | with_reducible apply Fab.mbxAdvance_ok
    | intro _ | with_reducible apply Fab.ok_mk

theorem Fab.mbxDestroy_ok {f : Fab} (h : f.Ok) (n : Nat) (r : Nat) : (f.mbxDestroy n r).Ok := by
  unfold Fab.mbxDestroy
  repeat' first
    | with_reducible assumption | with_reducible apply Fab.ok_ite | with_reducible apply Fab.respond_ok
    | with_reducible apply Fab.destroy_ok | intro _ | split

theorem Fab.mbxDdrAdd_ok {f : Fab} (h : f.Ok) (n : Nat) (r : Nat) : (f.mbxDdrAdd n r).Ok := by
  unfold Fab.mbxDdrAdd
  repeat' first
    | with_reducible assumption | with_reducible apply Fab.ok_ite | with_reducible apply Fab.ok_foldl
    | with_reducible apply Fab.ownerWrite_ok | with_reducible apply Fab.respond_ok | intro _ | split

theorem Fab.mbxDdrRelease_ok {f : Fab} (h : f.Ok) (n : Nat) (r : Nat) : (f.mbxDdrRelease n r).Ok := by
  unfold Fab.mbxDdrRelease
  repeat' first
    | with_reducible assumption | with_reducible apply Fab.ok_ite | with_reducible apply Fab.ok_foldl
    | with_reducible apply Fab.ownerWrite_ok | with_reducible apply Fab.updMbx_ok | with_reducible apply Fab.respond_ok
    | with_reducible apply Fab.mbxAdvance_ok | intro _ | split | with_reducible apply Fab.ok_mk

theorem Fab.markGran_ok {f : Fab} (h : f.Ok) (g : Nat) (v : Nat) : (f.markGran g v).Ok := by
  unfold Fab.markGran
  repeat' first
    | with_reducible assumption | with_reducible apply Fab.set_ok | intro _

theorem Fab.declare_ok {f : Fab} (h : f.Ok) (x : Nat) : (f.declare x).Ok := by
  unfold Fab.declare
  repeat' first
    | with_reducible assumption | with_reducible apply Fab.ok_ite | with_reducible apply Fab.ok_foldl
    | with_reducible apply Fab.setReg_ok | with_reducible apply Fab.markGran_ok | intro _ | split

theorem Fab.mbxDeclare_ok {f : Fab} (h : f.Ok) (n : Nat) (r : Nat) : (f.mbxDeclare n r).Ok := by
  unfold Fab.mbxDeclare
  repeat' first
    | with_reducible assumption | with_reducible apply Fab.ok_ite | with_reducible apply Fab.ok_foldl
    | with_reducible apply Fab.respond_ok | with_reducible apply Fab.declare_ok | intro _ | split

end Sys2Proof.Machine
end

