-- ==== Sys2Proof/Laws/KeepBoot.lean ====
section
/-! SUPPORT. What the operations of Machine/Boot.lean keep. -/

namespace Sys2Proof.Machine

theorem Fab.coldFab_ok {f : Fab} (h : f.Ok) (keep : List Nat) : (f.coldFab keep).Ok := by
  have h1 : Fab.Ok { Fab.reset with regs := f.regs.filter (fun c => keep.contains c.1) } :=
    ⟨rfl, Store.wf_filter regReset f.regs (fun c => keep.contains c.1) h.2⟩
  exact ⟨rfl, (Fab.set_ok h1 Reg.UMX_STAT_SEALOPEN (f.get Reg.UMX_STAT_SEALOPEN)).2⟩

theorem Fab.releasePins_ok {f : Fab} (h : f.Ok) : (f.releasePins).Ok := by
  unfold Fab.releasePins
  repeat' first
    | with_reducible assumption | with_reducible apply Fab.drivePin_ok | intro _

theorem Fab.porReset_ok {f : Fab} (h : f.Ok) : (f.porReset).Ok := by
  unfold Fab.porReset
  repeat' first
    | with_reducible assumption | with_reducible apply Fab.coldFab_ok | with_reducible apply Fab.releasePins_ok
    | intro _ | with_reducible apply Fab.ok_mk

theorem Fab.porAssert_ok {f : Fab} (h : f.Ok) : (f.porAssert).Ok := by
  unfold Fab.porAssert
  repeat' first
    | with_reducible assumption | with_reducible apply Fab.ok_ite | with_reducible apply Fab.set_ok
    | with_reducible apply Fab.updPwr_ok | with_reducible apply Fab.porReset_ok | intro _ | split
    | with_reducible apply Fab.ok_mk

theorem Fab.brownOut_ok {f : Fab} (h : f.Ok) (rail : Nat) : (f.brownOut rail).Ok := by
  unfold Fab.brownOut
  repeat' first
    | with_reducible assumption | with_reducible apply Fab.ok_ite | with_reducible apply Fab.set_ok
    | with_reducible apply Fab.updPwr_ok | with_reducible apply Fab.porReset_ok | intro _ | split
    | with_reducible apply Fab.ok_mk

theorem Fab.aonLoss_ok {f : Fab} (h : f.Ok) : (f.aonLoss).Ok := by
  unfold Fab.aonLoss
  repeat' first
    | with_reducible assumption | with_reducible apply Fab.setReg_ok | with_reducible apply Fab.updUmx_ok
    | with_reducible apply Fab.coldFab_ok | with_reducible apply Fab.releasePins_ok | intro _
    | with_reducible apply Fab.ok_mk

theorem Fab.thermTrip_ok {f : Fab} (h : f.Ok) : (f.thermTrip).Ok := by
  unfold Fab.thermTrip
  repeat' first
    | with_reducible assumption | with_reducible apply Fab.ok_ite | with_reducible apply Fab.drivePin_ok
    | with_reducible apply Fab.updPwr_ok | intro _ | split | with_reducible apply Fab.ok_mk

theorem Fab.stepDone_ok {f : Fab} (h : f.Ok) (n : Nat) : (f.stepDone n).Ok := by
  unfold Fab.stepDone
  repeat' first
    | with_reducible assumption | with_reducible apply Fab.set_ok | intro _

theorem Fab.hostLinks_ok {f : Fab} (h : f.Ok) (l : List (Nat × Nat)) : (f.hostLinks l).Ok := by
  unfold Fab.hostLinks
  repeat' first
    | with_reducible assumption | with_reducible apply Fab.ok_foldl | with_reducible apply Fab.set_ok | intro _

theorem Fab.bootFail_ok {f : Fab} (h : f.Ok) (err : Nat) (l : List (Nat × Nat)) : (f.bootFail err l).Ok := by
  unfold Fab.bootFail
  repeat' first
    | with_reducible assumption | with_reducible apply Fab.set_ok | with_reducible apply Fab.alert_ok
    | with_reducible apply Fab.hostLinks_ok | intro _

theorem Fab.attest_ok {f : Fab} (h : f.Ok) (nonce : List Nat) : (f.attest nonce).Ok := by
  unfold Fab.attest
  repeat' first
    | with_reducible assumption | with_reducible apply Fab.updMgmt_ok | intro _ | with_reducible apply Fab.ok_mk

theorem Fab.loadWords_ok {f : Fab} (h : f.Ok) (a : Nat) (n0 : List Nat) (n1 : Nat) : (f.loadWords a n0 n1).Ok := by
  induction n1 generalizing f a n0 with
  | zero => exact h
  | succ _ ih =>
    unfold Fab.loadWords
    repeat' first
    | with_reducible assumption | apply ih
    | with_reducible apply Fab.putWord_ok
    | intro _
    | split

theorem Fab.damsonStart_ok {f : Fab} (h : f.Ok) : (f.damsonStart).Ok := by
  unfold Fab.damsonStart
  repeat' first
    | with_reducible assumption | with_reducible apply Fab.ok_foldl | with_reducible apply Fab.setReg_ok
    | with_reducible apply Fab.set_ok | intro _ | with_reducible apply Fab.ok_mk

theorem Fab.bootImage_ok {f : Fab} (h : f.Ok) (flash : Bool) (l : List (Nat × Nat)) : (f.bootImage flash l).1.Ok := by
  delta Fab.bootImage
  extract_lets
  repeat' first
    | with_reducible assumption | with_reducible apply Fab.ok_ite | with_reducible apply Fab.setReg_ok
    | with_reducible apply Fab.set_ok | with_reducible apply Fab.updMgmt_ok | with_reducible apply Fab.stepDone_ok
    | with_reducible apply Fab.bootFail_ok | with_reducible apply Fab.loadWords_ok
    | with_reducible refine Fab.ok_fst (by with_reducible assumption) ?_
    | with_reducible refine Fab.ok_snd (by with_reducible assumption) ?_
    | with_reducible refine Fab.ok_snd2 (by with_reducible assumption) ?_
    | with_reducible refine Fab.ok_snd4 (by with_reducible assumption) ?_ | intro _ | split
    | with_reducible apply Fab.ok_mk

theorem Fab.putSeeds_ok {f : Fab} (h : f.Ok) : (f.putSeeds).Ok := by
  unfold Fab.putSeeds
  repeat' first
    | with_reducible assumption | with_reducible apply Fab.vaultPut_ok | intro _

theorem Fab.logAll_ok {f : Fab} (h : f.Ok) (l : List LogEv) : (f.logAll l).Ok := by
  unfold Fab.logAll
  repeat' first
    | with_reducible assumption | with_reducible apply Fab.ok_foldl | with_reducible apply Fab.logEvent_ok | intro _

theorem Fab.configure_ok {f : Fab} (h : f.Ok) : (f.configure).Ok := by
  unfold Fab.configure
  repeat' first
    | with_reducible assumption | with_reducible apply Fab.ok_ite | with_reducible apply Fab.set_ok
    | with_reducible apply Fab.updMgmt_ok | intro _ | split | with_reducible apply Fab.ok_mk

theorem Fab.bootFirmware_ok {f : Fab} (h : f.Ok) (b : Boot) (evs : List LogEv) : (f.bootFirmware b evs).Ok := by
  unfold Fab.bootFirmware
  repeat' first
    | with_reducible assumption | with_reducible apply Fab.ok_ite | with_reducible apply Fab.ok_foldl
    | with_reducible apply Fab.sealLog_ok | with_reducible apply Fab.logEvent_ok
    | with_reducible apply Fab.deliverLatched_ok | with_reducible apply Fab.ddrTrain_ok
    | with_reducible apply Fab.updMgmt_ok | with_reducible apply Fab.updPwr_ok | with_reducible apply Fab.blockSet_ok
    | with_reducible apply Fab.sleepStatus_ok | with_reducible apply Fab.newKey_ok
    | with_reducible apply Fab.stepDone_ok | with_reducible apply Fab.hostLinks_ok | with_reducible apply Fab.attest_ok
    | with_reducible apply Fab.putSeeds_ok | with_reducible apply Fab.logAll_ok | with_reducible apply Fab.configure_ok
    | intro _ | split | with_reducible apply Fab.ok_mk

theorem Fab.bootCore_ok {f : Fab} (h : f.Ok) (b : Boot) (evs : List LogEv) : (f.bootCore b evs).Ok := by
  unfold Fab.bootCore
  repeat' first
    | with_reducible assumption | with_reducible apply Fab.ok_ite | with_reducible apply Fab.drivePin_ok
    | with_reducible apply Fab.updPwr_ok | with_reducible apply Fab.stepDone_ok
    | with_reducible apply Fab.damsonStart_ok | with_reducible apply Fab.bootImage_ok
    | with_reducible apply Fab.bootFirmware_ok | with_reducible refine Fab.ok_fst (by with_reducible assumption) ?_
    | with_reducible refine Fab.ok_snd (by with_reducible assumption) ?_
    | with_reducible refine Fab.ok_snd2 (by with_reducible assumption) ?_
    | with_reducible refine Fab.ok_snd4 (by with_reducible assumption) ?_ | intro _ | split
    | with_reducible apply Fab.ok_mk

theorem Fab.bootFrom3_ok {f : Fab} (h : f.Ok) (b : Boot) : (f.bootFrom3 b).Ok := by
  delta Fab.bootFrom3
  extract_lets f1 o trim tv vendor opt words evs f2 f3 f4 f5 f6 f7 f8 f9 f10 f11
  have h1 : f1.Ok := by with_reducible exact Fab.updPwr_ok h _
  have h2 : f2.Ok := by with_reducible exact Fab.updMgmt_ok h1 _
  have h3 : f3.Ok := by with_reducible exact Fab.set_ok (Fab.set_ok h2 _ _) _ _
  have h4 : f4.Ok := by with_reducible exact Fab.set_ok (Fab.set_ok h3 _ _) _ _
  have h5 : f5.Ok := by with_reducible exact Fab.ok_foldl (fun g i hg => Fab.set_ok hg _ _) h4
  have h6 : f6.Ok := by with_reducible exact Fab.set_ok (Fab.set_ok h5 _ _) _ _
  have h7 : f7.Ok := by with_reducible exact Fab.stepDone_ok (Fab.set_ok h6 _ _) _
  have h8 : f8.Ok := by with_reducible exact Fab.set_ok h7 _ _
  have h9 : f9.Ok := by with_reducible exact Fab.stepDone_ok h8 _
  clear_value f8 evs f9
  have h10 : f10.Ok := ⟨rfl, h9.2⟩
  clear_value f10
  have h11 : f11.Ok := by with_reducible exact Fab.umxStart_ok (Fab.umxRestore_ok (Fab.stepDone_ok h10 _))
  clear_value f11
  with_reducible refine Fab.ok_ite (fun _ => Fab.bootFail_ok h1 _ _) (fun _ => ?_)
  split
  · with_reducible exact Fab.bootFail_ok (Fab.set_ok (Fab.set_ok (Fab.set_ok h8 _ _) _ _) _ _) _ _
  · with_reducible exact Fab.ok_ite (fun _ => Fab.bootFail_ok h9 _ _) (fun _ => Fab.bootCore_ok h11 _ _)

theorem Fab.openByState_ok {f : Fab} (h : f.Ok) : (f.openByState).Ok := by
  unfold Fab.openByState
  repeat' first
    | with_reducible assumption | with_reducible apply Fab.ok_ite | with_reducible apply Fab.setReg_ok | intro _ | split

theorem Fab.bootFrom1_ok {f : Fab} (h : f.Ok) (b : Boot) : (f.bootFrom1 b).Ok := by
  unfold Fab.bootFrom1
  repeat' first
    | with_reducible assumption | with_reducible apply Fab.ok_ite | with_reducible apply Fab.set_ok
    | with_reducible apply Fab.updPwr_ok | with_reducible apply Fab.thermTrip_ok | with_reducible apply Fab.stepDone_ok
    | with_reducible apply Fab.bootFrom3_ok | with_reducible apply Fab.openByState_ok | intro _ | split
    | with_reducible apply Fab.ok_mk

theorem Fab.startUp_ok {f : Fab} (h : f.Ok) (b : Boot) : (f.startUp b).Ok := by
  unfold Fab.startUp
  repeat' first
    | with_reducible assumption | with_reducible apply Fab.ok_ite | with_reducible apply Fab.bootCore_ok
    | with_reducible apply Fab.bootFrom1_ok | intro _ | split

theorem Fab.dormantWake_ok {f : Fab} (h : f.Ok) : (f.dormantWake).Ok := by
  unfold Fab.dormantWake
  repeat' first
    | with_reducible assumption | with_reducible apply Fab.set_ok | with_reducible apply Fab.coldFab_ok
    | with_reducible apply Fab.stepDone_ok | intro _ | with_reducible apply Fab.ok_mk

theorem Fab.railsOk_ok {f : Fab} (h : f.Ok) (b : Boot) : (f.railsOk b).Ok := by
  unfold Fab.railsOk
  repeat' first
    | with_reducible assumption | with_reducible apply Fab.ok_ite | with_reducible apply Fab.updPwr_ok
    | with_reducible apply Fab.bootFrom3_ok | with_reducible apply Fab.bootFrom1_ok
    | with_reducible apply Fab.dormantWake_ok | intro _ | split | with_reducible apply Fab.ok_mk

theorem Fab.dormantFail_ok {f : Fab} (h : f.Ok) : (f.dormantFail).Ok := by
  unfold Fab.dormantFail
  repeat' first
    | with_reducible assumption | with_reducible apply Fab.ok_ite | with_reducible apply Fab.bootFail_ok
    | with_reducible apply Fab.dormantWake_ok | intro _ | split

theorem Fab.mgmtReset_ok {f : Fab} (h : f.Ok) : (f.mgmtReset).Ok := by
  unfold Fab.mgmtReset
  repeat' first
    | with_reducible assumption | with_reducible apply Fab.ok_ite | with_reducible apply Fab.ok_foldl
    | with_reducible apply Fab.set_ok | with_reducible apply Fab.stick_ok | with_reducible apply Fab.logEvent_ok
    | with_reducible apply Fab.updMgmt_ok | with_reducible apply Fab.updMbx_ok | with_reducible apply Fab.stepDone_ok
    | with_reducible apply Fab.attest_ok | with_reducible apply Fab.damsonStart_ok
    | with_reducible apply Fab.bootImage_ok | with_reducible apply Fab.logAll_ok | intro _ | split
    | with_reducible apply Fab.ok_mk

theorem Fab.wdogExpire_ok {f : Fab} (h : f.Ok) (stage : Nat) : (f.wdogExpire stage).Ok := by
  unfold Fab.wdogExpire
  repeat' first
    | with_reducible assumption | with_reducible apply Fab.ok_ite | with_reducible apply Fab.set_ok
    | with_reducible apply Fab.raise_ok | with_reducible apply Fab.mgmtReset_ok | intro _ | split

theorem Fab.wdogExpiry_ok {f : Fab} (h : f.Ok) : (f.wdogExpiry).Ok := by
  unfold Fab.wdogExpiry
  repeat' first
    | with_reducible assumption | with_reducible apply Fab.ok_ite | with_reducible apply Fab.wdogExpire_ok | intro _
    | split

theorem Fab.wdogKick_ok {f : Fab} (h : f.Ok) (m : Master) (v : Nat) : (f.wdogKick m v).Ok := by
  unfold Fab.wdogKick
  repeat' first
    | with_reducible assumption | with_reducible apply Fab.ok_ite | with_reducible apply Fab.set_ok
    | with_reducible apply Fab.wdogExpire_ok | intro _ | split

theorem Fab.raiseTamper_ok {f : Fab} (h : f.Ok) : (f.raiseTamper).Ok := by
  unfold Fab.raiseTamper
  repeat' first
    | with_reducible assumption | with_reducible apply Fab.ok_ite | with_reducible apply Fab.raise_ok | intro _ | split
    | with_reducible apply Fab.ok_mk

theorem Fab.tamperTrip_ok {f : Fab} (h : f.Ok) : (f.tamperTrip).Ok := by
  unfold Fab.tamperTrip
  repeat' first
    | with_reducible assumption | with_reducible apply Fab.ok_ite | with_reducible apply Fab.vaultWipe_ok
    | with_reducible apply Fab.logEvent_ok | with_reducible apply Fab.updMgmt_ok | with_reducible apply Fab.updPwr_ok
    | with_reducible apply Fab.raiseTamper_ok | intro _ | split | with_reducible apply Fab.ok_mk

theorem Fab.vaultWiped_ok {f : Fab} (h : f.Ok) : (f.vaultWiped).Ok := by
  unfold Fab.vaultWiped
  repeat' first
    | with_reducible assumption | with_reducible apply Fab.ok_ite | with_reducible apply Fab.set_ok
    | with_reducible apply Fab.newKey_ok | with_reducible apply Fab.putSeeds_ok
    | with_reducible apply Fab.raiseTamper_ok | intro _ | split

end Sys2Proof.Machine
end

