-- ==== Sys2Proof/Laws/KeepI3c.lean ====
section
/-! SUPPORT. What the operations of Machine/I3c.lean keep. -/

namespace Sys2Proof.Machine

theorem Fab.i3cAnswer_ok {f : Fab} (h : f.Ok) (status : Nat) (data : List Nat) : (f.i3cAnswer status data).Ok := by
  unfold Fab.i3cAnswer
  repeat' first
    | with_reducible assumption | with_reducible apply Fab.emit_ok | intro _

theorem Fab.i3cServe_ok {f : Fab} (h : f.Ok) (img : Bool) (g : Fab → Fab) (hg : ∀ f : Fab, f.Ok → (g f).Ok) :
    (f.i3cServe img g).Ok := by
  unfold Fab.i3cServe
  repeat' first
    | with_reducible assumption | with_reducible apply hg | with_reducible apply Fab.ok_ite
    | with_reducible apply Fab.raise_ok | with_reducible apply Fab.i3cAnswer_ok | intro _ | split

theorem Fab.i3cChange_ok {f : Fab} (h : f.Ok) (img : Bool) (g : Fab → Fab) (hg : ∀ f : Fab, f.Ok → (g f).Ok) :
    (f.i3cChange img g).Ok := by
  unfold Fab.i3cChange
  repeat' first
    | with_reducible assumption | with_reducible apply hg | with_reducible apply Fab.ok_ite
    | with_reducible apply Fab.i3cAnswer_ok | with_reducible apply Fab.i3cServe_ok | intro _ | split

theorem Fab.i3cFlash_ok {f : Fab} (h : f.Ok) (g : Fab → Fab) (hg : ∀ f : Fab, f.Ok → (g f).Ok) : (f.i3cFlash g).Ok := by
  unfold Fab.i3cFlash
  repeat' first
    | with_reducible assumption | with_reducible apply hg | with_reducible apply Fab.ok_ite
    | with_reducible apply Fab.busy_ok | with_reducible apply Fab.i3cAnswer_ok | with_reducible apply Fab.i3cChange_ok
    | intro _ | split

theorem Fab.i3cStatus_ok {f : Fab} (h : f.Ok) : (f.i3cStatus).Ok := by
  unfold Fab.i3cStatus
  repeat' first
    | with_reducible assumption | with_reducible apply Fab.ok_ite | with_reducible apply Fab.i3cAnswer_ok
    | with_reducible apply Fab.i3cServe_ok | intro _ | split

theorem Fab.i3cSensors_ok {f : Fab} (h : f.Ok) (i : Nat) : (f.i3cSensors i).Ok := by
  unfold Fab.i3cSensors
  repeat' first
    | with_reducible assumption | with_reducible apply Fab.i3cAnswer_ok | with_reducible apply Fab.i3cServe_ok | intro _
    | split

theorem Fab.flashBusy_ok {f : Fab} (h : f.Ok) : (f.flashBusy).Ok := by
  unfold Fab.flashBusy
  repeat' first
    | with_reducible assumption | with_reducible apply Fab.busy_ok | with_reducible apply Fab.updMgmt_ok | intro _
    | with_reducible apply Fab.ok_mk

theorem Fab.imgErase_ok {f : Fab} (h : f.Ok) : (f.imgErase).Ok := by
  unfold Fab.imgErase
  repeat' first
    | with_reducible assumption | with_reducible apply Fab.updMgmt_ok | with_reducible apply Fab.i3cAnswer_ok
    | with_reducible apply Fab.i3cFlash_ok | with_reducible apply Fab.flashBusy_ok | intro _

theorem Fab.imgWrite_ok {f : Fab} (h : f.Ok) (off : Nat) (data : List Nat) : (f.imgWrite off data).Ok := by
  unfold Fab.imgWrite
  repeat' first
    | with_reducible assumption | with_reducible apply Fab.ok_ite | with_reducible apply Fab.updMgmt_ok
    | with_reducible apply Fab.i3cAnswer_ok | with_reducible apply Fab.i3cFlash_ok
    | with_reducible apply Fab.flashBusy_ok | intro _ | split

theorem Fab.imgActivate_ok {f : Fab} (h : f.Ok) : (f.imgActivate).Ok := by
  unfold Fab.imgActivate
  repeat' first
    | with_reducible assumption | with_reducible apply Fab.ok_ite | with_reducible apply Fab.set_ok
    | with_reducible apply Fab.free_ok | with_reducible apply Fab.logEvent_ok | with_reducible apply Fab.alert_ok
    | with_reducible apply Fab.updMgmt_ok | with_reducible apply Fab.stepDone_ok | with_reducible apply Fab.i3cAnswer_ok
    | with_reducible apply Fab.i3cFlash_ok | with_reducible apply Fab.flashBusy_ok | intro _ | split

theorem Fab.imgConfirm_ok {f : Fab} (h : f.Ok) : (f.imgConfirm).Ok := by
  unfold Fab.imgConfirm
  repeat' first
    | with_reducible assumption | with_reducible apply Fab.logEvent_ok | with_reducible apply Fab.updMgmt_ok
    | with_reducible apply Fab.i3cAnswer_ok | with_reducible apply Fab.i3cServe_ok | intro _

theorem Fab.svnCommit_ok {f : Fab} (h : f.Ok) : (f.svnCommit).Ok := by
  unfold Fab.svnCommit
  repeat' first
    | with_reducible assumption | with_reducible apply Fab.ok_ite | with_reducible apply Fab.ok_foldl
    | with_reducible apply Fab.logEvent_ok | with_reducible apply Fab.updMgmt_ok | with_reducible apply Fab.i3cAnswer_ok
    | with_reducible apply Fab.i3cChange_ok | intro _ | split | with_reducible apply Fab.ok_mk

theorem Fab.i3cAttest_ok {f : Fab} (h : f.Ok) (nonce : List Nat) : (f.i3cAttest nonce).Ok := by
  unfold Fab.i3cAttest
  repeat' first
    | with_reducible assumption | with_reducible apply Fab.ok_ite | with_reducible apply Fab.attest_ok
    | with_reducible apply Fab.i3cAnswer_ok | with_reducible apply Fab.i3cServe_ok | intro _ | split

theorem Fab.i3cCert_ok {f : Fab} (h : f.Ok) : (f.i3cCert).Ok := by
  unfold Fab.i3cCert
  repeat' first
    | with_reducible assumption | with_reducible apply Fab.i3cAnswer_ok | with_reducible apply Fab.i3cServe_ok | intro _

theorem Fab.logRead_ok {f : Fab} (h : f.Ok) (seq : Nat) : (f.logRead seq).Ok := by
  unfold Fab.logRead
  repeat' first
    | with_reducible assumption | with_reducible apply Fab.i3cAnswer_ok | with_reducible apply Fab.i3cServe_ok | intro _

theorem Fab.lcGo_ok {f : Fab} (h : f.Ok) (a : Nat) (b : Nat) : (f.lcGo a b).Ok := by
  unfold Fab.lcGo
  repeat' first
    | with_reducible assumption | with_reducible apply Fab.ok_foldl | with_reducible apply Fab.set_ok
    | with_reducible apply Fab.vaultWipe_ok | with_reducible apply Fab.sealWith_ok | with_reducible apply Fab.updMgmt_ok
    | with_reducible apply Fab.updPwr_ok | with_reducible apply Fab.porReset_ok | intro _
    | with_reducible apply Fab.ok_mk

theorem Fab.lcRequest_ok {f : Fab} (h : f.Ok) (t : List Nat) : (f.lcRequest t).Ok := by
  unfold Fab.lcRequest
  repeat' first
    | with_reducible assumption | with_reducible apply Fab.ok_ite | with_reducible apply Fab.i3cAnswer_ok
    | with_reducible apply Fab.i3cChange_ok | with_reducible apply Fab.lcGo_ok | intro _ | split

theorem Fab.optBurn_ok {f : Fab} (h : f.Ok) (t : List Nat) : (f.optBurn t).Ok := by
  unfold Fab.optBurn
  repeat' first
    | with_reducible assumption | with_reducible apply Fab.ok_ite | with_reducible apply Fab.updMgmt_ok
    | with_reducible apply Fab.i3cAnswer_ok | with_reducible apply Fab.i3cChange_ok | intro _ | split
    | with_reducible apply Fab.ok_mk

theorem Fab.flashDone_ok {f : Fab} (h : f.Ok) : (f.flashDone).Ok := by
  unfold Fab.flashDone
  repeat' first
    | with_reducible assumption | with_reducible apply Fab.ok_ite | with_reducible apply Fab.raise_ok
    | with_reducible apply Fab.busy_ok | with_reducible apply Fab.updMgmt_ok | intro _ | split
    | with_reducible apply Fab.ok_mk

end Sys2Proof.Machine
end

