-- ==== Sys2Proof/Laws/KeepDebug.lean ====
section
/-! SUPPORT. What the operations of Machine/Debug.lean keep. -/

namespace Sys2Proof.Machine

theorem Fab.haltNow_ok {f : Fab} (h : f.Ok) (e : Nat) (c : Nat) : (f.haltNow e c).Ok := by
  unfold Fab.haltNow
  repeat' first
    | with_reducible assumption | with_reducible apply Fab.set_ok | with_reducible apply Fab.updEng_ok
    | with_reducible apply Fab.perfHalt_ok | intro _

theorem Fab.ehalt_ok {f : Fab} (h : f.Ok) (e : Nat) : (f.ehalt e).Ok := by
  unfold Fab.ehalt
  repeat' first
    | with_reducible assumption | with_reducible apply Fab.ok_ite | with_reducible apply Fab.setEng_ok
    | with_reducible apply Fab.haltNow_ok | intro _ | split | with_reducible apply Fab.ok_mk

theorem Fab.engineHalt_ok {f : Fab} (h : f.Ok) (e : Nat) : (f.engineHalt e).Ok := by
  delta Fab.engineHalt
  extract_lets
  repeat' first
    | with_reducible assumption | with_reducible apply Fab.ok_ite | with_reducible apply Run.trap_ok
    | with_reducible apply Fab.haltNow_ok | with_reducible refine Fab.ok_fst (by with_reducible assumption) ?_
    | with_reducible refine Fab.ok_snd (by with_reducible assumption) ?_
    | with_reducible refine Fab.ok_snd2 (by with_reducible assumption) ?_
    | with_reducible refine Fab.ok_snd4 (by with_reducible assumption) ?_ | intro _ | split

theorem Fab.restart_ok {f : Fab} (h : f.Ok) (e : Nat) (now : Nat) (step : Bool) : (f.restart e now step).Ok := by
  delta Fab.restart
  extract_lets
  repeat' first
    | with_reducible assumption | with_reducible apply Fab.set_ok | with_reducible apply Fab.updEng_ok
    | with_reducible apply Fab.holdCheck_ok | with_reducible apply Fab.barrierTry_ok
    | with_reducible refine Fab.ok_fst (by with_reducible assumption) ?_
    | with_reducible refine Fab.ok_snd (by with_reducible assumption) ?_
    | with_reducible refine Fab.ok_snd2 (by with_reducible assumption) ?_
    | with_reducible refine Fab.ok_snd4 (by with_reducible assumption) ?_ | intro _ | split

theorem Fab.eresume_ok {f : Fab} (h : f.Ok) (e : Nat) (now : Nat) : (f.eresume e now).Ok := by
  unfold Fab.eresume
  repeat' first
    | with_reducible assumption | with_reducible apply Fab.ok_ite | with_reducible apply Fab.restart_ok | intro _
    | split

theorem Fab.estep_ok {f : Fab} (h : f.Ok) (e : Nat) (now : Nat) : (f.estep e now).Ok := by
  unfold Fab.estep
  repeat' first
    | with_reducible assumption | with_reducible apply Fab.ok_ite | with_reducible apply Fab.restart_ok | intro _
    | split

theorem Fab.onMask_ok {f : Fab} (h : f.Ok) (i : Nat) (mask : Nat) (n : Nat) (g : Fab → Nat → Fab) (hg : ∀ (f : Fab) (a : Nat), f.Ok → (g f a).Ok) :
    (f.onMask i mask n g).Ok := by
  unfold Fab.onMask
  repeat' first
    | with_reducible assumption | with_reducible apply hg | with_reducible apply Fab.ok_foldl | intro _

theorem Fab.byDbg_ok {f : Fab} (h : f.Ok) (m : Master) (a : Nat) (g : Fab → Fab) (hg : ∀ f : Fab, f.Ok → (g f).Ok) :
    (f.byDbg m a g).Ok := by
  unfold Fab.byDbg
  repeat' first
    | with_reducible assumption | with_reducible apply hg | with_reducible apply Fab.ok_ite
    | with_reducible apply Fab.errLog_ok | intro _ | split

theorem Fab.updDxw_ok {f : Fab} (h : f.Ok) (g : Dxw → Dxw) : (f.updDxw g).Ok := by
  unfold Fab.updDxw
  repeat' first
    | with_reducible assumption | intro _ | with_reducible apply Fab.ok_mk

theorem Fab.dxwAnswer_ok {f : Fab} (h : f.Ok) (status : Nat) (v : Word) : (f.dxwAnswer status v).Ok := by
  unfold Fab.dxwAnswer
  repeat' first
    | with_reducible assumption | with_reducible apply Fab.emit_ok | intro _

theorem Fab.dxwErr_ok {f : Fab} (h : f.Ok) (n : Nat) : (f.dxwErr n).Ok := by
  unfold Fab.dxwErr
  repeat' first
    | with_reducible assumption | with_reducible apply Fab.updDxw_ok | intro _ | with_reducible apply Fab.ok_mk

theorem Fab.packet_ok {f : Fab} (h : f.Ok) (r : Nat) (wr : Bool) (g : Fab → Fab) (hg : ∀ f : Fab, f.Ok → (g f).Ok) :
    (f.packet r wr g).Ok := by
  unfold Fab.packet
  repeat' first
    | with_reducible assumption | with_reducible apply hg | with_reducible apply Fab.ok_ite
    | with_reducible apply Fab.dxwAnswer_ok | with_reducible apply Fab.dxwErr_ok | intro _ | split

theorem Fab.packetWr_ok {f : Fab} (h : f.Ok) (r : Nat) (crc : Bool) (g : Fab → Fab) (hg : ∀ f : Fab, f.Ok → (g f).Ok) :
    (f.packetWr r crc g).Ok := by
  unfold Fab.packetWr
  repeat' first
    | with_reducible assumption | with_reducible apply hg | with_reducible apply Fab.ok_ite
    | with_reducible apply Fab.updDxw_ok | with_reducible apply Fab.dxwAnswer_ok | with_reducible apply Fab.packet_ok
    | intro _ | split | with_reducible apply Fab.ok_mk

theorem Fab.wdataRead_ok {f : Fab} (h : f.Ok) : (f.wdataRead).Ok := by
  unfold Fab.wdataRead
  repeat' first
    | with_reducible assumption | with_reducible apply Fab.updDxw_ok | with_reducible apply Fab.dxwAnswer_ok
    | with_reducible apply Fab.packet_ok | intro _ | split | with_reducible apply Fab.ok_mk

theorem Fab.wdataWrite_ok {f : Fab} (h : f.Ok) (v : Word) (crc : Bool) : (f.wdataWrite v crc).Ok := by
  unfold Fab.wdataWrite
  repeat' first
    | with_reducible assumption | with_reducible apply Fab.updDxw_ok | with_reducible apply Fab.packetWr_ok | intro _
    | with_reducible apply Fab.ok_mk

theorem Fab.wchalRead_ok {f : Fab} (h : f.Ok) : (f.wchalRead).Ok := by
  unfold Fab.wchalRead
  repeat' first
    | with_reducible assumption | with_reducible apply Fab.updDxw_ok | with_reducible apply Fab.dxwAnswer_ok
    | with_reducible apply Fab.packet_ok | intro _ | with_reducible apply Fab.ok_mk

theorem Fab.wunlockWrite_ok {f : Fab} (h : f.Ok) (v : Word) (crc : Bool) : (f.wunlockWrite v crc).Ok := by
  unfold Fab.wunlockWrite
  repeat' first
    | with_reducible assumption | with_reducible apply Fab.ok_ite | with_reducible apply Fab.updDxw_ok
    | with_reducible apply Fab.packetWr_ok | intro _ | split | with_reducible apply Fab.ok_mk

theorem Fab.newChal_ok {f : Fab} (h : f.Ok) : (f.newChal).Ok := by
  unfold Fab.newChal
  repeat' first
    | with_reducible assumption | with_reducible apply Fab.updDxw_ok | intro _ | with_reducible apply Fab.ok_mk

theorem Fab.unlock_ok {f : Fab} (h : f.Ok) (method : Nat) : (f.unlock method).Ok := by
  unfold Fab.unlock
  repeat' first
    | with_reducible assumption | with_reducible apply Fab.ok_ite | with_reducible apply Fab.updDxw_ok | intro _ | split
    | with_reducible apply Fab.ok_mk

theorem Fab.wcsrWrite_ok {f : Fab} (h : f.Ok) (v : Word) : (f.wcsrWrite v).Ok := by
  unfold Fab.wcsrWrite
  repeat' first
    | with_reducible assumption | with_reducible apply Fab.ok_ite | with_reducible apply Run.fail_ok
    | with_reducible apply Fab.updDxw_ok | with_reducible apply Fab.newChal_ok | with_reducible apply Fab.unlock_ok
    | intro _ | split | with_reducible apply Fab.ok_mk

theorem Fab.wireWrite_ok {f : Fab} (h : f.Ok) (r : Nat) (v : Word) (crc : Bool) : (f.wireWrite r v crc).Ok := by
  unfold Fab.wireWrite
  repeat' first
    | with_reducible assumption | with_reducible apply Fab.ok_ite | with_reducible apply Fab.updDxw_ok
    | with_reducible apply Fab.packetWr_ok | with_reducible apply Fab.wdataWrite_ok
    | with_reducible apply Fab.wunlockWrite_ok | with_reducible apply Fab.wcsrWrite_ok | intro _ | split
    | with_reducible apply Fab.ok_mk

theorem Fab.unlockDone_ok {f : Fab} (h : f.Ok) : (f.unlockDone).Ok := by
  unfold Fab.unlockDone
  repeat' first
    | with_reducible assumption | with_reducible apply Fab.ok_ite | with_reducible apply Fab.set_ok
    | with_reducible apply Run.fail_ok | with_reducible apply Fab.logEvent_ok | with_reducible apply Fab.updDxw_ok
    | with_reducible apply Fab.newChal_ok | intro _ | split | with_reducible apply Fab.ok_mk

theorem Fab.updDam_ok {f : Fab} (h : f.Ok) (g : Dam → Dam) : (f.updDam g).Ok := by
  unfold Fab.updDam
  repeat' first
    | with_reducible assumption | intro _ | with_reducible apply Fab.ok_mk

theorem Fab.damStop_ok {f : Fab} (h : f.Ok) : (f.damStop).Ok := by
  unfold Fab.damStop
  repeat' first
    | with_reducible assumption | with_reducible apply Fab.set_ok | with_reducible apply Fab.updDam_ok | intro _
    | with_reducible apply Fab.ok_mk

theorem Fab.damHaltTry_ok {f : Fab} (h : f.Ok) : (f.damHaltTry).Ok := by
  unfold Fab.damHaltTry
  repeat' first
    | with_reducible assumption | with_reducible apply Fab.ok_ite | with_reducible apply Fab.damStop_ok | intro _
    | split

theorem Fab.damHalt_ok {f : Fab} (h : f.Ok) (late : Bool) : (f.damHalt late).Ok := by
  unfold Fab.damHalt
  repeat' first
    | with_reducible assumption | with_reducible apply Fab.ok_ite | with_reducible apply Fab.set_ok
    | with_reducible apply Fab.updDam_ok | with_reducible apply Fab.damHaltTry_ok | intro _ | split
    | with_reducible apply Fab.ok_mk

theorem Fab.damResume_ok {f : Fab} (h : f.Ok) : (f.damResume).Ok := by
  unfold Fab.damResume
  repeat' first
    | with_reducible assumption | with_reducible apply Fab.ok_ite | with_reducible apply Fab.set_ok
    | with_reducible apply Fab.mbxDrain_ok | with_reducible apply Fab.mbxAdvance_ok | with_reducible apply Fab.updDam_ok
    | intro _ | split | with_reducible apply Fab.ok_mk

theorem Fab.damStep_ok {f : Fab} (h : f.Ok) : (f.damStep).Ok := by
  unfold Fab.damStep
  repeat' first
    | with_reducible assumption | with_reducible apply Fab.ok_ite | with_reducible apply Fab.updDam_ok | intro _ | split
    | with_reducible apply Fab.ok_mk

end Sys2Proof.Machine
end

