-- ==== Sys2Proof/Laws/KeepRegAccess.lean ====
section
/-! SUPPORT. What the operations of Machine/RegAccess.lean keep. -/

namespace Sys2Proof.Machine

theorem Fab.genWrite_ok {f : Fab} (h : f.Ok) (w : RegWr) : (f.genWrite w).Ok := by
  unfold Fab.genWrite
  repeat' first
    | with_reducible assumption | with_reducible apply Fab.ok_ite | with_reducible apply Fab.setReg_ok | intro _ | split
    | with_reducible apply Fab.ok_mk

theorem Fab.atLeast_ok {f : Fab} (h : f.Ok) (x : Fld) (lo : Nat) : (f.atLeast x lo).Ok := by
  unfold Fab.atLeast
  repeat' first
    | with_reducible assumption | with_reducible apply Fab.ok_ite | with_reducible apply Fab.set_ok | intro _ | split

theorem Fab.atMost_ok {f : Fab} (h : f.Ok) (x : Fld) (hi : Nat) : (f.atMost x hi).Ok := by
  unfold Fab.atMost
  repeat' first
    | with_reducible assumption | with_reducible apply Fab.ok_ite | with_reducible apply Fab.set_ok | intro _ | split

theorem Fab.featWrite_ok {f : Fab} (h : f.Ok) (n : Nat) (v : Word) : (f.featWrite n v).Ok := by
  unfold Fab.featWrite
  repeat' first
    | with_reducible assumption | with_reducible apply Fab.ok_ite | with_reducible apply Fab.setReg_ok
    | with_reducible apply Fab.refuseFeat_ok | intro _ | split

theorem Fab.wrDevUnit_ok {f : Fab} (h : f.Ok) (m : Master) (w : RegWr) : (f.wrDevUnit m w).Ok := by
  unfold Fab.wrDevUnit
  repeat' first
    | with_reducible assumption | with_reducible apply Fab.ok_ite | with_reducible apply Fab.wdogKick_ok
    | with_reducible apply Fab.genWrite_ok | with_reducible apply Fab.atLeast_ok | with_reducible apply Fab.featWrite_ok
    | intro _ | split

theorem Fab.wrIsc_ok {f : Fab} (h : f.Ok) (m : Master) (w : RegWr) : (f.wrIsc m w).Ok := by
  unfold Fab.wrIsc
  repeat' first
    | with_reducible assumption | with_reducible apply Fab.ok_ite | with_reducible apply Fab.complete_ok
    | with_reducible apply Fab.eoi_ok | with_reducible apply Fab.writeScfg_ok | with_reducible apply Fab.writeSmask_ok
    | with_reducible apply Fab.writeIscCtl_ok | with_reducible apply Fab.sraise_ok
    | with_reducible apply Fab.iscDoorbell_ok | with_reducible apply Fab.genWrite_ok | intro _ | split

theorem Fab.wrChan_ok {f : Fab} (h : f.Ok) (m : Master) (w : RegWr) (k : Nat) : (f.wrChan m w k).Ok := by
  unfold Fab.wrChan
  repeat' first
    | with_reducible assumption | with_reducible apply Fab.ok_ite | with_reducible apply Fab.set_ok
    | with_reducible apply Fab.dmaStart_ok | with_reducible apply Fab.dmaDisable_ok
    | with_reducible apply Fab.genWrite_ok | with_reducible apply Fab.atLeast_ok | intro _ | split

theorem Fab.wrDma_ok {f : Fab} (h : f.Ok) (m : Master) (w : RegWr) : (f.wrDma m w).Ok := by
  unfold Fab.wrDma
  repeat' first
    | with_reducible assumption | with_reducible apply Fab.ok_ite | with_reducible apply Fab.dmaCtl_ok
    | with_reducible apply Fab.wrChan_ok | intro _ | split

theorem Fab.wrMemUnit_ok {f : Fab} (h : f.Ok) (m : Master) (w : RegWr) : (f.wrMemUnit m w).Ok := by
  unfold Fab.wrMemUnit
  repeat' first
    | with_reducible assumption | with_reducible apply Fab.ok_ite | with_reducible apply Fab.ownErr_ok
    | with_reducible apply Fab.ownerWrite_ok | with_reducible apply Fab.bstateWrite_ok
    | with_reducible apply Fab.genWrite_ok | intro _ | split

theorem Fab.wrScrub_ok {f : Fab} (h : f.Ok) (m : Master) (w : RegWr) : (f.wrScrub m w).Ok := by
  unfold Fab.wrScrub
  repeat' first
    | with_reducible assumption | with_reducible apply Fab.ok_ite | with_reducible apply Fab.scrubInject_ok
    | with_reducible apply Fab.genWrite_ok | with_reducible apply Fab.atLeast_ok | with_reducible apply Fab.atMost_ok
    | intro _ | split

theorem Fab.wrTest_ok {f : Fab} (h : f.Ok) (m : Master) (w : RegWr) : (f.wrTest m w).Ok := by
  unfold Fab.wrTest
  repeat' first
    | with_reducible assumption | with_reducible apply Fab.ok_ite | with_reducible apply Fab.genWrite_ok | intro _
    | split

theorem Fab.wrLinkCtl_ok {f : Fab} (h : f.Ok) (w : RegWr) (c : Nat) : (f.wrLinkCtl w c).Ok := by
  unfold Fab.wrLinkCtl
  repeat' first
    | with_reducible assumption | with_reducible apply Fab.ok_ite | with_reducible apply Fab.set_ok
    | with_reducible apply Fab.linkEn_ok | with_reducible apply Fab.linkRetrain_ok
    | with_reducible apply Fab.genWrite_ok | intro _ | split

theorem Fab.wrLink_ok {f : Fab} (h : f.Ok) (m : Master) (w : RegWr) (now : Nat) : (f.wrLink m w now).Ok := by
  delta Fab.wrLink
  extract_lets
  repeat' first
    | with_reducible assumption | with_reducible apply Fab.ok_ite | with_reducible apply Fab.set_ok
    | with_reducible apply Fab.readyCheck_ok | with_reducible apply Fab.linkLat_ok
    | with_reducible apply Fab.genWrite_ok | with_reducible apply Fab.wrLinkCtl_ok
    | with_reducible refine Fab.ok_fst (by with_reducible assumption) ?_
    | with_reducible refine Fab.ok_snd (by with_reducible assumption) ?_
    | with_reducible refine Fab.ok_snd2 (by with_reducible assumption) ?_
    | with_reducible refine Fab.ok_snd4 (by with_reducible assumption) ?_ | intro _ | split

theorem Fab.wrHp_ok {f : Fab} (h : f.Ok) (m : Master) (w : RegWr) : (f.wrHp m w).Ok := by
  unfold Fab.wrHp
  repeat' first
    | with_reducible assumption | with_reducible apply Fab.ok_ite | with_reducible apply Fab.setReg_ok
    | with_reducible apply Fab.genWrite_ok | intro _ | split

theorem Fab.wrDdr_ok {f : Fab} (h : f.Ok) (m : Master) (w : RegWr) : (f.wrDdr m w).Ok := by
  unfold Fab.wrDdr
  repeat' first
    | with_reducible assumption | with_reducible apply Fab.ok_ite | with_reducible apply Fab.ddrRetrain_ok
    | with_reducible apply Fab.genWrite_ok | intro _ | split

theorem Fab.wrSqCtl_ok {f : Fab} (h : f.Ok) (m : Master) (w : RegWr) (p : Nat) (now : Nat) : (f.wrSqCtl m w p now).Ok := by
  unfold Fab.wrSqCtl
  repeat' first
    | with_reducible assumption | with_reducible apply Fab.ok_ite | with_reducible apply Fab.refuseFeat_ok
    | with_reducible apply Fab.sqGo_ok | with_reducible apply Fab.sqStop_ok | with_reducible apply Fab.sqHoldreq_ok
    | with_reducible apply Fab.sqClear_ok | with_reducible apply Fab.sqJreset_ok | with_reducible apply Fab.sqCapen_ok
    | with_reducible apply Fab.sqRunmode_ok | intro _ | split

theorem Fab.wrSqRest_ok {f : Fab} (h : f.Ok) (w : RegWr) (p : Nat) : (f.wrSqRest w p).Ok := by
  unfold Fab.wrSqRest
  repeat' first
    | with_reducible assumption | with_reducible apply Fab.ok_ite | with_reducible apply Fab.genWrite_ok
    | with_reducible apply Fab.atLeast_ok | with_reducible apply Fab.atMost_ok | intro _ | split

theorem Fab.cvClear_ok {f : Fab} (h : f.Ok) (valid : Fld) (mixed : Fld) (w : RegWr) : (f.cvClear valid mixed w).Ok := by
  unfold Fab.cvClear
  repeat' first
    | with_reducible assumption | with_reducible apply Fab.ok_ite | with_reducible apply Fab.set_ok | intro _ | split

theorem Fab.wrSqPart_ok {f : Fab} (h : f.Ok) (m : Master) (w : RegWr) (p : Nat) (now : Nat) : (f.wrSqPart m w p now).Ok := by
  unfold Fab.wrSqPart
  repeat' first
    | with_reducible assumption | with_reducible apply Fab.ok_ite | with_reducible apply Fab.refuseFeat_ok
    | with_reducible apply Fab.sqDcn_ok | with_reducible apply Fab.viewReq_ok | with_reducible apply Fab.ringPtr_ok
    | with_reducible apply Fab.genWrite_ok | with_reducible apply Fab.atLeast_ok | with_reducible apply Fab.atMost_ok
    | with_reducible apply Fab.wrSqCtl_ok | with_reducible apply Fab.wrSqRest_ok | with_reducible apply Fab.cvClear_ok
    | intro _ | split | with_reducible apply Fab.ok_mk

theorem Fab.wrSq_ok {f : Fab} (h : f.Ok) (m : Master) (w : RegWr) (now : Nat) : (f.wrSq m w now).Ok := by
  unfold Fab.wrSq
  repeat' first
    | with_reducible assumption | with_reducible apply Fab.ok_ite | with_reducible apply Fab.genWrite_ok
    | with_reducible apply Fab.cvClear_ok | with_reducible apply Fab.wrSqPart_ok | intro _ | split
    | with_reducible apply Fab.ok_mk

theorem Fab.avsWrite_ok {f : Fab} (h : f.Ok) (w : RegWr) : (f.avsWrite w).Ok := by
  unfold Fab.avsWrite
  repeat' first
    | with_reducible assumption | with_reducible apply Fab.ok_ite | with_reducible apply Fab.emit_ok
    | with_reducible apply Fab.genWrite_ok | with_reducible apply Fab.atLeast_ok | with_reducible apply Fab.atMost_ok
    | intro _ | split

theorem Fab.wrPwr_ok {f : Fab} (h : f.Ok) (m : Master) (w : RegWr) : (f.wrPwr m w).Ok := by
  unfold Fab.wrPwr
  repeat' first
    | with_reducible assumption | with_reducible apply Fab.ok_ite | with_reducible apply Fab.blockReq_ok
    | with_reducible apply Fab.eclkWrite_ok | with_reducible apply Fab.sleepReq_ok
    | with_reducible apply Fab.linkWake_ok | with_reducible apply Fab.genWrite_ok | with_reducible apply Fab.avsWrite_ok
    | intro _ | split

theorem Fab.wrMbx_ok {f : Fab} (h : f.Ok) (w : RegWr) : (f.wrMbx w).Ok := by
  unfold Fab.wrMbx
  repeat' first
    | with_reducible assumption | with_reducible apply Fab.ok_ite | with_reducible apply Fab.set_ok
    | with_reducible apply Fab.updMbx_ok | with_reducible apply Fab.doorbell_ok | with_reducible apply Fab.genWrite_ok
    | intro _ | split | with_reducible apply Fab.ok_mk

theorem Fab.wrUmx_ok {f : Fab} (h : f.Ok) (m : Master) (w : RegWr) : (f.wrUmx m w).Ok := by
  unfold Fab.wrUmx
  repeat' first
    | with_reducible assumption | with_reducible apply Fab.ok_ite | with_reducible apply Fab.umxReq_ok | intro _ | split

theorem Fab.wrDctl_ok {f : Fab} (h : f.Ok) (m : Master) (w : RegWr) : (f.wrDctl m w).Ok := by
  unfold Fab.wrDctl
  repeat' first
    | with_reducible assumption | with_reducible apply Fab.ok_ite | with_reducible apply Fab.damHalt_ok
    | with_reducible apply Fab.damResume_ok | with_reducible apply Fab.damStep_ok | intro _ | split

theorem Fab.wrDbg_ok {f : Fab} (h : f.Ok) (m : Master) (w : RegWr) (now : Nat) : (f.wrDbg m w now).Ok := by
  unfold Fab.wrDbg
  repeat' first
    | with_reducible assumption | with_reducible apply Fab.ok_ite | with_reducible apply Fab.ehalt_ok
    | with_reducible apply Fab.eresume_ok | with_reducible apply Fab.estep_ok | with_reducible apply Fab.onMask_ok
    | with_reducible apply Fab.byDbg_ok | with_reducible apply Fab.genWrite_ok | with_reducible apply Fab.wrDctl_ok
    | intro _ | split

theorem Fab.wrUnit_ok {f : Fab} (h : f.Ok) (m : Master) (w : RegWr) (now : Nat) : (f.wrUnit m w now).Ok := by
  unfold Fab.wrUnit
  repeat' first
    | with_reducible assumption | with_reducible apply Fab.ok_ite | with_reducible apply Fab.alarmSync_ok
    | with_reducible apply Fab.genWrite_ok | with_reducible apply Fab.wrDevUnit_ok | with_reducible apply Fab.wrIsc_ok
    | with_reducible apply Fab.wrDma_ok | with_reducible apply Fab.wrMemUnit_ok | with_reducible apply Fab.wrScrub_ok
    | with_reducible apply Fab.wrTest_ok | with_reducible apply Fab.wrLink_ok | with_reducible apply Fab.wrHp_ok
    | with_reducible apply Fab.wrDdr_ok | with_reducible apply Fab.wrSq_ok | with_reducible apply Fab.wrPwr_ok
    | with_reducible apply Fab.wrMbx_ok | with_reducible apply Fab.wrUmx_ok | with_reducible apply Fab.wrDbg_ok
    | intro _ | split

theorem Fab.regWrite_ok {f : Fab} (h : f.Ok) (m : Master) (a : Nat) (n : Nat) (v : Nat) (now : Nat) :
    (f.regWrite m a n v now).fab.Ok := by
  unfold Fab.regWrite
  repeat' first
    | with_reducible assumption | with_reducible apply Fab.ok_ite | with_reducible apply Fab.errLog_ok
    | with_reducible apply Fab.wrUnit_ok | intro _ | split

theorem Fab.claimRead_ok {f : Fab} (h : f.Ok) (m : Master) (r : Nat) : (f.claimRead m r).Ok := by
  unfold Fab.claimRead
  repeat' first
    | with_reducible assumption | with_reducible apply Fab.ok_ite | with_reducible apply Fab.claim_ok
    | with_reducible apply Fab.hostClaim_ok | intro _ | split

theorem Fab.regRead_ok {f : Fab} (h : f.Ok) (m : Master) (a : Nat) (n : Nat) (live : Bool) :
    (f.regRead m a n live).fab.Ok := by
  unfold Fab.regRead
  repeat' first
    | with_reducible assumption | with_reducible apply Fab.ok_ite | with_reducible apply Fab.errLog_ok
    | with_reducible apply Fab.claimRead_ok | intro _ | split

theorem Fab.rdAny_ok {f : Fab} (h : f.Ok) (m : Master) (a : Nat) (n : Nat) (live : Bool) : (f.rdAny m a n live).fab.Ok := by
  unfold Fab.rdAny
  repeat' first
    | with_reducible assumption | with_reducible apply Fab.ok_ite | with_reducible apply Fab.rdDev_ok
    | with_reducible apply Fab.regRead_ok | intro _ | split

theorem Fab.wrAny_ok {f : Fab} (h : f.Ok) (m : Master) (a : Nat) (n : Nat) (v : Nat) (now : Nat) :
    (f.wrAny m a n v now).fab.Ok := by
  unfold Fab.wrAny
  repeat' first
    | with_reducible assumption | with_reducible apply Fab.ok_ite | with_reducible apply Fab.wrDev_ok
    | with_reducible apply Fab.regWrite_ok | intro _ | split

theorem Fab.dbgRead_ok {f : Fab} (h : f.Ok) (a : Nat) (live : Bool) (n0 : Nat) : (f.dbgRead a live n0).fab.Ok := by
  induction n0 generalizing f a live with
  | zero => exact h
  | succ _ ih =>
    unfold Fab.dbgRead
    repeat' first
    | with_reducible assumption | apply ih
    | with_reducible apply Fab.ok_ite
    | with_reducible apply Fab.rdAny_ok
    | intro _
    | split

theorem Fab.dbgWrite_ok {f : Fab} (h : f.Ok) (a : Nat) (v : Word) (now : Nat) (n0 : Nat) :
    (f.dbgWrite a v now n0).fab.Ok := by
  induction n0 generalizing f a v now with
  | zero => exact h
  | succ _ ih =>
    unfold Fab.dbgWrite
    repeat' first
    | with_reducible assumption | apply ih
    | with_reducible apply Fab.ok_ite
    | with_reducible apply Fab.wrAny_ok
    | intro _
    | split

theorem Fab.accErr_ok {f : Fab} (h : f.Ok) (r : Acc) : (f.accErr r).Ok := by
  unfold Fab.accErr
  repeat' first
    | with_reducible assumption | with_reducible apply Fab.ok_ite | with_reducible apply Fab.dxwErr_ok | intro _ | split

theorem Fab.mdataRead_ok {f : Fab} (h : f.Ok) : (f.mdataRead).fab.Ok := by
  unfold Fab.mdataRead
  repeat' first
    | with_reducible assumption | with_reducible apply Fab.dbgRead_ok | with_reducible apply Fab.accErr_ok | intro _
    | with_reducible apply Fab.ok_mk

theorem Fab.mdataWrite_ok {f : Fab} (h : f.Ok) (v : Word) (now : Nat) : (f.mdataWrite v now).fab.Ok := by
  unfold Fab.mdataWrite
  repeat' first
    | with_reducible assumption | with_reducible apply Fab.dbgWrite_ok | with_reducible apply Fab.accErr_ok | intro _
    | with_reducible apply Fab.ok_mk

theorem Fab.debugDone_ok {f : Fab} (h : f.Ok) (late : Bool) (now : Nat) : (f.debugDone late now).Ok := by
  unfold Fab.debugDone
  repeat' first
    | with_reducible assumption | with_reducible apply Fab.ok_ite | with_reducible apply Fab.updDxw_ok
    | with_reducible apply Fab.dxwErr_ok | with_reducible apply Fab.dbgRead_ok | with_reducible apply Fab.dbgWrite_ok
    | with_reducible apply Fab.accErr_ok | intro _ | split | with_reducible apply Fab.ok_mk

end Sys2Proof.Machine
end

