-- ==== Sys2Proof/Laws/KeepDamson.lean ====
section
/-! SUPPORT. What the operations of Machine/Damson.lean keep. -/

namespace Sys2Proof.Machine

theorem Fab.setG_ok {f : Fab} (h : f.Ok) (n : Nat) (v : BitVec 32) : (f.setG n v).Ok := by
  unfold Fab.setG
  repeat' first
    | with_reducible assumption | with_reducible apply Fab.ok_ite | with_reducible apply Fab.set_ok | intro _ | split

theorem Fab.setPc_ok {f : Fab} (h : f.Ok) (v : Nat) : (f.setPc v).Ok := by
  unfold Fab.setPc
  repeat' first
    | with_reducible assumption | with_reducible apply Fab.set_ok | intro _

theorem Fab.setSr_ok {f : Fab} (h : f.Ok) (v : BitVec 32) : (f.setSr v).Ok := by
  unfold Fab.setSr
  repeat' first
    | with_reducible assumption | with_reducible apply Fab.set_ok | intro _

theorem Fab.damEnter_ok {f : Fab} (h : f.Ok) (code : Nat) (epc : Nat) : (f.damEnter code epc).Ok := by
  unfold Fab.damEnter
  repeat' first
    | with_reducible assumption | with_reducible apply Fab.abandon_ok | with_reducible apply Fab.updDam_ok
    | with_reducible apply Fab.setPc_ok | with_reducible apply Fab.setSr_ok | intro _ | with_reducible apply Fab.ok_mk

theorem Fab.damExc_ok {f : Fab} (h : f.Ok) (code : Nat) : (f.damExc code).Ok := by
  unfold Fab.damExc
  repeat' first
    | with_reducible assumption | with_reducible apply Fab.ok_ite | with_reducible apply Fab.free_ok
    | with_reducible apply Fab.damEnter_ok | intro _ | split

theorem Fab.damSyscall_ok {f : Fab} (h : f.Ok) : (f.damSyscall).Ok := by
  unfold Fab.damSyscall
  repeat' first
    | with_reducible assumption | with_reducible apply Fab.ok_ite | with_reducible apply Fab.free_ok
    | with_reducible apply Fab.damEnter_ok | with_reducible apply Fab.damExc_ok | intro _ | split

theorem Fab.damRetire_ok {f : Fab} (h : f.Ok) (next : Nat) : (f.damRetire next).Ok := by
  unfold Fab.damRetire
  repeat' first
    | with_reducible assumption | with_reducible apply Fab.ok_ite | with_reducible apply Fab.ok_foldl
    | with_reducible apply Fab.updDam_ok | with_reducible apply Fab.damHaltTry_ok | with_reducible apply Fab.setPc_ok
    | with_reducible apply Fab.setSr_ok | intro _ | split | with_reducible apply Fab.ok_mk

theorem Fab.damDone_ok {f : Fab} (h : f.Ok) : (f.damDone).Ok := by
  unfold Fab.damDone
  repeat' first
    | with_reducible assumption | with_reducible apply Fab.updDam_ok | with_reducible apply Fab.damRetire_ok | intro _
    | with_reducible apply Fab.ok_mk

theorem Fab.damRead_ok {f : Fab} (h : f.Ok) (a : Nat) (n : Nat) : (f.damRead a n).fab.Ok := by
  unfold Fab.damRead
  repeat' first
    | with_reducible assumption | with_reducible apply Fab.ok_ite | with_reducible apply Fab.free_ok
    | with_reducible apply Fab.errLog_ok | with_reducible apply Fab.rdAny_ok | with_reducible apply Fab.mdataRead_ok
    | intro _ | split | with_reducible apply Fab.ok_mk

theorem Fab.moveWindow_ok {f : Fab} (h : f.Ok) : (f.moveWindow).Ok := by
  unfold Fab.moveWindow
  repeat' first
    | with_reducible assumption | with_reducible apply Fab.free_ok | with_reducible apply Fab.updMgmt_ok | intro _
    | with_reducible apply Fab.ok_mk

theorem Fab.damWrite_ok {f : Fab} (h : f.Ok) (a : Nat) (n : Nat) (v : Nat) (now : Nat) : (f.damWrite a n v now).fab.Ok := by
  unfold Fab.damWrite
  repeat' first
    | with_reducible assumption | with_reducible apply Fab.ok_ite | with_reducible apply Fab.errLog_ok
    | with_reducible apply Fab.wrAny_ok | with_reducible apply Fab.mdataWrite_ok
    | with_reducible apply Fab.moveWindow_ok | intro _ | split

theorem Fab.damLoadDone_ok {f : Fab} (h : f.Ok) (x : DamLd) (fail : Bool) : (f.damLoadDone x fail).Ok := by
  unfold Fab.damLoadDone
  repeat' first
    | with_reducible assumption | with_reducible apply Fab.ok_ite | with_reducible apply Run.fail_ok
    | with_reducible apply Fab.updDam_ok | with_reducible apply Fab.setG_ok | with_reducible apply Fab.damExc_ok
    | with_reducible apply Fab.damDone_ok | with_reducible apply Fab.damRead_ok | intro _ | split
    | with_reducible apply Fab.ok_mk

theorem Fab.damLoad_ok {f : Fab} (h : f.Ok) (x : DamLd) : (f.damLoad x).Ok := by
  delta Fab.damLoad
  extract_lets f1
  have h1 : f1.Ok := by with_reducible exact Fab.ok_ite (fun _ => Fab.updDam_ok h _) (fun _ => h)
  clear_value f1
  with_reducible exact Fab.ok_ite (fun _ => Fab.damExc_ok h _) (fun _ => Fab.ok_ite (fun _ => Fab.damLoadDone_ok h1 _ _)
    (fun _ => Fab.updDam_ok h1 _))

theorem Fab.damStore_ok {f : Fab} (h : f.Ok) (a : Nat) (n : Nat) (v : Nat) (now : Nat) (done : Fab → Fab) (hg : ∀ f : Fab, f.Ok → (done f).Ok) :
    (f.damStore a n v now done).Ok := by
  delta Fab.damStore
  extract_lets r
  have h1 : r.fab.Ok := by with_reducible exact Fab.damWrite_ok h _ _ _ _
  clear_value r
  with_reducible exact Fab.ok_ite (fun _ => Fab.damExc_ok h _) (fun _ => Fab.ok_ite (fun _ => h) (fun _ => Fab.damDone_ok (hg _ h1)))

theorem Fab.damRfe_ok {f : Fab} (h : f.Ok) : (f.damRfe).Ok := by
  unfold Fab.damRfe
  repeat' first
    | with_reducible assumption | with_reducible apply Fab.ok_ite | with_reducible apply Fab.updDam_ok
    | with_reducible apply Fab.setSr_ok | with_reducible apply Fab.damRetire_ok | intro _ | split
    | with_reducible apply Fab.ok_mk

theorem Fab.damLineOf_ok {f : Fab} (h : f.Ok) (l : Nat) : (f.damLineOf l).2.2.Ok := by
  delta Fab.damLineOf
  extract_lets a r unit data brk
  have h1 : r.fab.Ok := by with_reducible exact Fab.ok_iterd (fun _ => Fab.ok_rd h) (fun _ => Fab.read_ok (Fab.bankTurn_ok h _ _) _ _ _)
  clear_value r
  exact h1

theorem Fab.damFetch_ok {f : Fab} (h : f.Ok) : (f.damFetch).fab.Ok := by
  delta Fab.damFetch
  extract_lets a l brkOf r r2
  have h1 : r.fab.Ok := by with_reducible exact Fab.rdAny_ok h _ _ _ _
  have h2 : r2.2.2.Ok := by with_reducible exact Fab.damLineOf_ok h _
  clear_value r r2 brkOf
  split
  · with_reducible exact Fab.ok_df (Fab.ok_ite (fun _ => h) (fun _ => h1))
  · split
    · with_reducible exact Fab.ok_df h
    · split
      · with_reducible exact Fab.ok_df (Fab.updDam_ok h _)
      · split
        · with_reducible exact Fab.ok_df h2
        · with_reducible exact Fab.ok_df (Fab.updDam_ok (Fab.free_ok h2 _) _)

theorem Fab.wrongPath_ok {f : Fab} (h : f.Ok) : (f.wrongPath).Ok := by
  unfold Fab.wrongPath
  repeat' first
    | with_reducible assumption | with_reducible apply Fab.ok_ite | with_reducible apply Fab.free_ok
    | with_reducible apply Fab.updDam_ok | with_reducible apply Fab.damLineOf_ok | intro _ | split
    | with_reducible apply Fab.ok_mk

theorem Fab.damOp_ok {f : Fab} (h : f.Ok) (op : DamOp) (now : Nat) : (f.damOp op now).Ok := by
  delta Fab.damOp
  dsimp only
  split
  all_goals repeat' first
    | with_reducible refine Fab.damLoad_ok h _
    | with_reducible refine Fab.damStore_ok h _ _ _ _ _ (fun f h => ?_)
    | with_reducible assumption | with_reducible apply Fab.setG_ok | with_reducible apply Fab.damDone_ok
    | with_reducible apply Fab.updDam_ok | with_reducible apply Fab.damExc_ok | with_reducible apply Fab.damRetire_ok
    | with_reducible apply Fab.wrongPath_ok | with_reducible apply Fab.damSyscall_ok | with_reducible apply Fab.damRfe_ok | split

theorem Fab.damRun_ok {f : Fab} (h : f.Ok) (op : DamOp) (now : Nat) : (f.damRun op now).Ok := by
  delta Fab.damRun
  extract_lets a r
  have h1 : r.fab.Ok := by with_reducible exact Fab.damFetch_ok h
  clear_value r
  with_reducible exact Fab.ok_ite (fun _ => Fab.damExc_ok h _) (fun _ => Fab.ok_ite (fun _ => Fab.damExc_ok h _)
    (fun _ => Fab.ok_ite (fun _ => h) (fun _ => Fab.ok_ite (fun _ => Fab.set_ok (Fab.damStop_ok h1) _ _)
    (fun _ => Fab.ok_ite (fun _ => Fab.damExc_ok h1 _) (fun _ => Fab.ok_ite (fun _ => h1) (fun _ => Fab.damOp_ok h1 _ _))))))

theorem Fab.damInstr_ok {f : Fab} (h : f.Ok) (op : DamOp) (now : Nat) : (f.damInstr op now).Ok := by
  delta Fab.damInstr
  extract_lets f1
  have h1 : f1.Ok := by with_reducible exact Fab.ok_ite (fun _ => h) (fun _ => Fab.damHaltTry_ok h)
  clear_value f1
  with_reducible exact Fab.ok_ite (fun _ => h) (fun _ => Fab.ok_ite (fun _ => h) (fun _ => Fab.ok_ite (fun _ => h1)
    (fun _ => Fab.damRun_ok h1 _ _)))

theorem Fab.damResponse_ok {f : Fab} (h : f.Ok) (fail : Bool) : (f.damResponse fail).Ok := by
  unfold Fab.damResponse
  repeat' first
    | with_reducible assumption | with_reducible apply Run.fail_ok | with_reducible apply Fab.damLoadDone_ok | intro _
    | split

theorem Fab.damTimeout_ok {f : Fab} (h : f.Ok) : (f.damTimeout).Ok := by
  unfold Fab.damTimeout
  repeat' first
    | with_reducible assumption | with_reducible apply Fab.ok_ite | with_reducible apply Fab.damExc_ok | intro _ | split

theorem Fab.damDivide_ok {f : Fab} (h : f.Ok) : (f.damDivide).Ok := by
  unfold Fab.damDivide
  repeat' first
    | with_reducible assumption | with_reducible apply Fab.updDam_ok | with_reducible apply Fab.setG_ok | intro _
    | split | with_reducible apply Fab.ok_mk

theorem Fab.damInterrupt_ok {f : Fab} (h : f.Ok) (inTime : Bool) : (f.damInterrupt inTime).Ok := by
  unfold Fab.damInterrupt
  repeat' first
    | with_reducible assumption | with_reducible apply Fab.ok_ite | with_reducible apply Fab.damEnter_ok
    | with_reducible apply Fab.damResponse_ok | intro _ | split

end Sys2Proof.Machine
end

