-- ==== Sys2Proof/Laws/KeepHost.lean ====
section
/-! SUPPORT. What the operations of Machine/Host.lean keep. -/

namespace Sys2Proof.Machine

theorem Fab.msixFlush_ok {f : Fab} (h : f.Ok) (n : Nat) : (f.msixFlush n).Ok := by
  unfold Fab.msixFlush
  repeat' first
    | with_reducible assumption | with_reducible apply Fab.ok_foldl | with_reducible apply Fab.emit_ok | intro _
    | with_reducible apply Fab.ok_mk

theorem Fab.msixWrite_ok {f : Fab} (h : f.Ok) (n : Nat) (o : Nat) (len : Nat) (v : Nat) : (f.msixWrite n o len v).Ok := by
  unfold Fab.msixWrite
  repeat' first
    | with_reducible assumption | with_reducible apply Fab.ok_ite | with_reducible apply Fab.set_ok
    | with_reducible apply Fab.msixFlush_ok | intro _ | split | with_reducible apply Fab.ok_mk

theorem Fab.portReset_ok {f : Fab} (h : f.Ok) (n : Nat) : (f.portReset n).Ok := by
  delta Fab.portReset
  extract_lets f1 f2 f3 ch f4 f5
  have h1 : f1.Ok := by
    have h0 := Fab.ok_regs h (fun c => !(Reg.MGMT_MBX_CTL n ≤ c.1 && c.1 < Reg.MGMT_MBX_CTL n + 0x1000))
    with_reducible exact Fab.ok_mk h0 ..
  have h2 : f2.Ok := by with_reducible exact Fab.updMbx_ok h1 _
  have h3 : f3.Ok := by with_reducible exact Fab.set_ok h2 _ _
  have h4 : f4.Ok := by with_reducible exact Fab.ok_foldl (fun g k hg => Fab.dmaDisable_ok hg _) h3
  have h5 : f5.Ok := by with_reducible exact Fab.ok_ite (fun _ => Fab.setReg_ok h4 _ _) (fun _ => h4)
  clear_value f5
  with_reducible exact Fab.set_ok h5 _ _

theorem Fab.cfgPut_ok {f : Fab} (h : f.Ok) (n : Nat) (i : Nat) (v : BitVec 32) (mask : BitVec 32) :
    (f.cfgPut n i v mask).Ok := by
  unfold Fab.cfgPut
  repeat' first
    | with_reducible assumption | with_reducible apply Fab.ok_ite | with_reducible apply Fab.set_ok
    | with_reducible apply Fab.msixFlush_ok | with_reducible apply Fab.portReset_ok | intro _ | split
    | with_reducible apply Fab.ok_mk

theorem Fab.cfgWrite_ok {f : Fab} (h : f.Ok) (n : Nat) (o : Nat) (len : Nat) (v : Nat) : (f.cfgWrite n o len v).Ok := by
  unfold Fab.cfgWrite
  repeat' first
    | with_reducible assumption | with_reducible apply Fab.ok_ite | with_reducible apply Fab.ok_foldl
    | with_reducible apply Fab.cfgPut_ok | intro _ | split

theorem Fab.cfgPoisoned_ok {f : Fab} (h : f.Ok) (n : Nat) : (f.cfgPoisoned n).Ok := by
  unfold Fab.cfgPoisoned
  repeat' first
    | with_reducible assumption | with_reducible apply Fab.ok_foldl | with_reducible apply Fab.set_ok | intro _
    | with_reducible apply Fab.ok_mk

theorem Fab.notOwned_ok {f : Fab} (h : f.Ok) (m : Master) (a : Nat) (n : Nat) : (f.notOwned m a n).fab.Ok := by
  unfold Fab.notOwned
  repeat' first
    | with_reducible assumption | with_reducible apply Fab.hostRefuse_ok | intro _

theorem Fab.hostHole_ok {f : Fab} (h : f.Ok) (m : Master) (bar : Nat) (o : Nat) (n : Nat) :
    (f.hostHole m bar o n).fab.Ok := by
  unfold Fab.hostHole
  repeat' first
    | with_reducible assumption | with_reducible apply Fab.errLog_ok | intro _

theorem Fab.hostView_ok {f : Fab} (h : f.Ok) (n : Nat) (p : Nat) (o : Nat) (len : Nat) (n0 : Nat) :
    (f.hostView n p o len n0).fab.Ok := by
  induction n0 generalizing f p o len with
  | zero =>
    unfold Fab.hostView
    with_reducible exact Fab.ok_acc (Fab.hostHole_ok h _ _ _ _)
  | succ _ ih =>
    unfold Fab.hostView
    extract_lets m k r t
    have h1 : r.fab.Ok := by
      with_reducible exact Fab.ok_iteacc (fun _ => Fab.notOwned_ok h _ _ _) (fun _ => Fab.ok_iteacc (fun _ => Fab.ok_acc (Fab.errLog_ok h _ _ _ _))
        (fun _ => Fab.cvRead_ok h _ _ _ _))
    have h2 : t.fab.Ok := by with_reducible exact ih h1 _ _ _
    clear_value t r
    with_reducible refine Fab.ok_iteacc (fun _ => h1) fun _ => Fab.ok_acc h2

theorem Fab.hostAcc_ok {f : Fab} (h : f.Ok) (n : Nat) (bar : Nat) (o : Nat) (len : Nat) : (f.hostAcc n bar o len).fab.Ok := by
  unfold Fab.hostAcc
  repeat' first
    | with_reducible assumption | with_reducible apply Fab.ok_ite | with_reducible apply Fab.rdDev_ok
    | with_reducible apply Fab.hostCount_ok | with_reducible apply Fab.regRead_ok | with_reducible apply Fab.notOwned_ok
    | with_reducible apply Fab.hostHole_ok | with_reducible apply Fab.hostView_ok
    | with_reducible refine Fab.ok_fst (by with_reducible assumption) ?_
    | with_reducible refine Fab.ok_snd (by with_reducible assumption) ?_
    | with_reducible refine Fab.ok_snd2 (by with_reducible assumption) ?_
    | with_reducible refine Fab.ok_snd4 (by with_reducible assumption) ?_ | intro _ | dsimp only | split
    | with_reducible apply Fab.ok_mk

theorem Fab.hostPut_ok {f : Fab} (h : f.Ok) (n : Nat) (bar : Nat) (o : Nat) (len : Nat) (v : Nat) (now : Nat) :
    (f.hostPut n bar o len v now).fab.Ok := by
  unfold Fab.hostPut
  repeat' first
    | with_reducible assumption | with_reducible apply Fab.ok_ite | with_reducible apply Fab.errLog_ok
    | with_reducible apply Fab.cvWrite_ok | with_reducible apply Fab.wrDev_ok | with_reducible apply Fab.hostCount_ok
    | with_reducible apply Fab.regWrite_ok | with_reducible apply Fab.msixWrite_ok
    | with_reducible apply Fab.notOwned_ok | with_reducible apply Fab.hostHole_ok
    | with_reducible refine Fab.ok_fst (by with_reducible assumption) ?_
    | with_reducible refine Fab.ok_snd (by with_reducible assumption) ?_
    | with_reducible refine Fab.ok_snd2 (by with_reducible assumption) ?_
    | with_reducible refine Fab.ok_snd4 (by with_reducible assumption) ?_ | intro _ | dsimp only | split
    | with_reducible apply Fab.ok_mk

theorem Fab.hostReach_ok {f : Fab} (h : f.Ok) (n : Nat) (g : Fab → Fab) (hg : ∀ f : Fab, f.Ok → (g f).Ok) :
    (f.hostReach n g).Ok := by
  unfold Fab.hostReach
  repeat' first
    | with_reducible assumption | with_reducible apply hg | with_reducible apply Fab.ok_ite
    | with_reducible apply Fab.whenLive_ok | with_reducible apply Fab.wakeEvent_ok | intro _ | split

theorem Fab.hostRead_ok {f : Fab} (h : f.Ok) (n : Nat) (bar : Nat) (o : Nat) (len : Nat) : (f.hostRead n bar o len).Ok := by
  unfold Fab.hostRead
  repeat' first
    | with_reducible assumption | with_reducible apply Fab.ok_ite | with_reducible apply Fab.emit_ok
    | with_reducible apply Fab.hostCount_ok | with_reducible apply Fab.hostAcc_ok
    | with_reducible refine Fab.ok_fst (by with_reducible assumption) ?_
    | with_reducible refine Fab.ok_snd (by with_reducible assumption) ?_
    | with_reducible refine Fab.ok_snd2 (by with_reducible assumption) ?_
    | with_reducible refine Fab.ok_snd4 (by with_reducible assumption) ?_ | intro _ | split

theorem Fab.hostWrite_ok {f : Fab} (h : f.Ok) (n : Nat) (bar : Nat) (o : Nat) (len : Nat) (v : Nat) (bad : Bool) (now : Nat) :
    (f.hostWrite n bar o len v bad now).Ok := by
  unfold Fab.hostWrite
  repeat' first
    | with_reducible assumption | with_reducible apply Fab.ok_ite | with_reducible apply Fab.emit_ok
    | with_reducible apply Fab.hostCount_ok | with_reducible apply Fab.cfgWrite_ok
    | with_reducible apply Fab.cfgPoisoned_ok | with_reducible apply Fab.hostPut_ok
    | with_reducible refine Fab.ok_fst (by with_reducible assumption) ?_
    | with_reducible refine Fab.ok_snd (by with_reducible assumption) ?_
    | with_reducible refine Fab.ok_snd2 (by with_reducible assumption) ?_
    | with_reducible refine Fab.ok_snd4 (by with_reducible assumption) ?_ | intro _ | split

theorem Fab.perst_ok {f : Fab} (h : f.Ok) (n : Nat) (asserted : Bool) (speed : Nat) (width : Nat) :
    (f.perst n asserted speed width).Ok := by
  unfold Fab.perst
  repeat' first
    | with_reducible assumption | with_reducible apply Fab.ok_ite | with_reducible apply Fab.set_ok
    | with_reducible apply Fab.whenLive_ok | with_reducible apply Fab.updPwr_ok | with_reducible apply Fab.wakeEvent_ok
    | with_reducible apply Fab.portReset_ok | intro _ | split | with_reducible apply Fab.ok_mk

end Sys2Proof.Machine
end

