-- ==== Sys2Proof/Laws/KeepMonitor.lean ====
section
/-! SUPPORT. What the operations of Machine/Monitor.lean keep. -/

namespace Sys2Proof.Machine

theorem Fab.monStatus_ok {f : Fab} (h : f.Ok) (port : Option Nat) : ∀ x, f.monStatus port = some x → x.1.Ok := by
  exact Fab.ok_some1 h

theorem Fab.monEngines_ok {f : Fab} (h : f.Ok) (port : Option Nat) (r : Nat) (g : Fab → Nat → Fab) (hg : ∀ (f : Fab) (a : Nat), f.Ok → (g f a).Ok) :
    ∀ x, f.monEngines port r g = some x → x.1.Ok := by
  exact Fab.ok_some1 (Fab.ok_foldl hg h)

theorem Fab.monRdreg_ok {f : Fab} (h : f.Ok) (port : Option Nat) (r : Nat) : ∀ x, f.monRdreg port r = some x → x.1.Ok := by
  unfold Fab.monRdreg
  split
  · exact Fab.ok_some1 h
  · refine Fab.ok_some1 ?_
    exact foldl_keeps (fun (x : Fab × List Nat) => Fab.Ok x.1) (fun x i hx => by with_reducible exact Fab.ok_p1 (Fab.rdEcs_ok hx _ _ _)) h

theorem Fab.monWrreg_ok {f : Fab} (h : f.Ok) (port : Option Nat) (r : Nat) : ∀ x, f.monWrreg port r = some x → x.1.Ok := by
  unfold Fab.monWrreg
  split
  · exact Fab.ok_some1 h
  · refine Fab.ok_some1 (Fab.ok_p1 ?_)
    with_reducible exact Fab.ok_foldl (fun g i hg => Fab.wrEcs_ok hg _ _ _ _) h

theorem Fab.monAt_ok {f : Fab} (h : f.Ok) (a : Nat) (live : Bool) : (f.monAt a live).Ok := by
  unfold Fab.monAt
  repeat' first
    | with_reducible assumption | with_reducible apply Fab.set_ok | intro _

theorem Fab.monReads_ok {f : Fab} (h : f.Ok) (port : Option Nat) (a : Nat) (live : Bool) (n0 : Nat) :
    ∀ x, f.monReads port a live n0 = some x → x.1.Ok := by
  induction n0 generalizing f a with
  | zero => exact Fab.ok_some1 h
  | succ _ ih =>
    unfold Fab.monReads
    extract_lets x
    have h1 : x.fab.Ok := by
      dsimp only [x]
      split
      · with_reducible exact Fab.ok_acc (Fab.hostRefuse_ok h _ _ _ _)
      · with_reducible exact Fab.mdataRead_ok (Fab.monAt_ok h _ _)
    clear_value x
    split
    · intro y e; cases e
    · split
      · rename_i t e
        exact Fab.ok_some1 (Fab.ok_p1 (ih h1 _ _ e))
      · intro y e; cases e

theorem Fab.monWrites_ok {f : Fab} (h : f.Ok) (port : Option Nat) (a : Nat) (now : Nat) (n0 : List Nat) :
    ∀ x, f.monWrites port a now n0 = some x → x.1.Ok := by
  induction n0 generalizing f a with
  | nil => exact Fab.ok_some1 h
  | cons v l ih =>
    unfold Fab.monWrites
    extract_lets x
    have h1 : x.fab.Ok := by
      dsimp only [x]
      split
      · with_reducible exact Fab.ok_acc (Fab.hostRefuse_ok h _ _ _ _)
      · with_reducible exact Fab.mdataWrite_ok (Fab.monAt_ok h _ _) _ _
    clear_value x
    split
    · intro y e; cases e
    · exact ih h1 _

theorem Fab.monCheck_ok {f : Fab} (h : f.Ok) (port : Option Nat) (op : Nat) (r : Nat) (g : Fab → MonRes) (hg : ∀ (f : Fab) x, f.Ok → g f = some x → x.1.Ok) :
    ∀ x, f.monCheck port op r g = some x → x.1.Ok := by
  unfold Fab.monCheck
  split
  · exact Fab.ok_some1 h
  · split
    · split
      · exact Fab.ok_some1 h
      · split
        · exact Fab.ok_some1 h
        · exact fun x e => hg f x h e
    · exact fun x e => hg f x h e

theorem Fab.monitor_ok {f : Fab} (h : f.Ok) (src : MonSrc) (op : Nat) (g : Fab → Option Nat → Nat → MonRes) (hg : ∀ (f : Fab) a b, f.Ok → ∀ x, g f a b = some x → x.1.Ok) :
    (f.monitor src op g).Ok := by
  unfold Fab.monitor
  split
  · refine Fab.serve_ok h _ _ _ (fun f r h => ?_)
    split
    · exact Fab.respond_ok (Fab.monCheck_ok h _ _ _ _ (fun f x h e => hg f _ _ h x e) _ (by assumption)) _ _ _
    · exact h
  · dsimp only
    split
    · exact h
    · split
      · exact Fab.emit_ok h _
      · split
        · exact Fab.emit_ok (Fab.monCheck_ok h _ _ _ _ (fun f x h e => hg f _ _ h x e) _ (by assumption)) _
        · exact h

theorem Fab.tapIr_ok {f : Fab} (h : f.Ok) (code : Nat) (drive : Nat) : (f.tapIr code drive).Ok := by
  unfold Fab.tapIr
  repeat' first
    | with_reducible assumption | intro _ | with_reducible apply Fab.ok_mk

theorem Fab.tapBypass_ok {f : Fab} (h : f.Ok) (code : Nat) (n : Nat) (v : Nat) : (f.tapBypass code n v).Ok := by
  unfold Fab.tapBypass
  repeat' first
    | with_reducible assumption | with_reducible apply Fab.emit_ok | with_reducible apply Fab.tapIr_ok | intro _

theorem Fab.tapDrive_ok {f : Fab} (h : f.Ok) (code : Nat) (drive : Nat) (n : Nat) (v : Nat) :
    (f.tapDrive code drive n v).Ok := by
  unfold Fab.tapDrive
  repeat' first
    | with_reducible assumption | with_reducible apply Fab.ok_ite | with_reducible apply Fab.emit_ok
    | with_reducible apply Fab.tapIr_ok | with_reducible apply Fab.tapBypass_ok | intro _ | split

theorem Fab.tapBoundary_ok {f : Fab} (h : f.Ok) (code : Nat) (drive : Nat) (pins : Nat) (v : Nat) :
    (f.tapBoundary code drive pins v).Ok := by
  unfold Fab.tapBoundary
  repeat' first
    | with_reducible assumption | with_reducible apply Fab.emit_ok | with_reducible apply Fab.boundary_ok
    | with_reducible apply Fab.tapIr_ok | intro _ | with_reducible apply Fab.ok_mk

end Sys2Proof.Machine
end

