-- ==== Sys2Proof/Laws/KeepDmaCmds.lean ====
section
/-! SUPPORT. What the operations of Machine/DmaCmds.lean keep. -/

namespace Sys2Proof.Machine

theorem Fab.descFetch_ok {f : Fab} (h : f.Ok) (k : Nat) (ok : Bool) (data : BitVec 512) : (f.descFetch k ok data).Ok := by
  unfold Fab.descFetch
  repeat' first
    | with_reducible assumption | with_reducible apply Fab.ok_ite | with_reducible apply Fab.set_ok
    | with_reducible apply Fab.updCh_ok | with_reducible apply Plan.run_ok | with_reducible apply Fab.chHalt_ok
    | with_reducible apply Fab.dmaRun_ok | with_reducible apply Fab.rdAny_ok | intro _ | split
    | with_reducible apply Fab.ok_mk

theorem Fab.dmaRead_ok {f : Fab} (h : f.Ok) (k : Nat) (ok : Bool) (data : BitVec 2048) : (f.dmaRead k ok data).Ok := by
  unfold Fab.dmaRead
  repeat' first
    | with_reducible assumption | with_reducible apply Fab.ok_ite | with_reducible apply Fab.updCh_ok
    | with_reducible apply Plan.run_ok | with_reducible apply Fab.chunkPut_ok | with_reducible apply Fab.dmaStat_ok
    | with_reducible apply Fab.chFail_ok | with_reducible apply Fab.chSettle_ok | with_reducible apply Fab.dmaRun_ok
    | with_reducible apply Fab.rdAny_ok | intro _ | split | with_reducible apply Fab.ok_mk

theorem Fab.dmaWrite_ok {f : Fab} (h : f.Ok) (k : Nat) (ok : Bool) : (f.dmaWrite k ok).Ok := by
  unfold Fab.dmaWrite
  repeat' first
    | with_reducible assumption | with_reducible apply Fab.ok_ite | with_reducible apply Fab.updCh_ok
    | with_reducible apply Fab.free_ok | with_reducible apply Plan.run_ok | with_reducible apply Fab.dmaStat_ok
    | with_reducible apply Fab.chFail_ok | with_reducible apply Fab.chWriteFail_ok
    | with_reducible apply Fab.chSettle_ok | with_reducible apply Fab.dmaRun_ok | with_reducible apply Fab.wrAny_ok
    | intro _ | split | with_reducible apply Fab.ok_mk

theorem Fab.descDone_ok {f : Fab} (h : f.Ok) (k : Nat) (ok : Bool) : (f.descDone k ok).Ok := by
  unfold Fab.descDone
  repeat' first
    | with_reducible assumption | with_reducible apply Fab.ok_ite | with_reducible apply Fab.set_ok
    | with_reducible apply Fab.raise_ok | with_reducible apply Fab.emit_ok | with_reducible apply Fab.chHalt_ok
    | with_reducible apply Fab.undefined_ok | with_reducible apply Fab.chFetch_ok | with_reducible apply Fab.dmaRun_ok
    | with_reducible apply Fab.wrAny_ok | with_reducible apply Fab.hostWrite_ok | intro _ | split

theorem Fab.lateWrites_ok {f : Fab} (h : f.Ok) (m : Master) (n0 : List DmaWr) : (f.lateWrites m n0).Ok := by
  induction n0 generalizing f m with
  | nil => exact h
  | cons _ _ ih =>
    unfold Fab.lateWrites
    repeat' first
    | with_reducible assumption | apply ih
    | with_reducible apply Fab.ok_ite
    | with_reducible apply Fab.free_ok
    | with_reducible apply Fab.wrAny_ok
    | intro _
    | split

theorem Fab.dmaQuiesce_ok {f : Fab} (h : f.Ok) (k : Nat) : (f.dmaQuiesce k).Ok := by
  unfold Fab.dmaQuiesce
  repeat' first
    | with_reducible assumption | with_reducible apply Fab.ok_ite | with_reducible apply Fab.set_ok
    | with_reducible apply Fab.updCh_ok | with_reducible apply Fab.dmaStat_ok | with_reducible apply Fab.dmaRun_ok
    | with_reducible apply Fab.lateWrites_ok | intro _ | split

end Sys2Proof.Machine
end

