-- ==== Sys2Proof/Laws/KeepElder.lean ====
section
/-! SUPPORT. What the operations of Machine/Elder.lean keep. -/

namespace Sys2Proof.Machine

theorem Fab.etimeTick_ok {f : Fab} (h : f.Ok) : (f.etimeTick).Ok := by
  unfold Fab.etimeTick
  repeat' first
    | with_reducible assumption | with_reducible apply Fab.ok_ite | with_reducible apply Fab.setReg_ok
    | with_reducible apply Fab.wakeEvent_ok | intro _ | split

theorem Fab.wdogTick_ok {f : Fab} (h : f.Ok) : (f.wdogTick).Ok := by
  unfold Fab.wdogTick
  repeat' first
    | with_reducible assumption | with_reducible apply Fab.ok_ite | with_reducible apply Fab.set_ok | intro _ | split

theorem Fab.lockoutTick_ok {f : Fab} (h : f.Ok) : (f.lockoutTick).Ok := by
  unfold Fab.lockoutTick
  repeat' first
    | with_reducible assumption | with_reducible apply Fab.ok_ite | with_reducible apply Fab.updDxw_ok | intro _ | split
    | with_reducible apply Fab.ok_mk

theorem Fab.clkTick_ok {f : Fab} (h : f.Ok) : (f.clkTick).Ok := by
  unfold Fab.clkTick
  repeat' first
    | with_reducible assumption | with_reducible apply Fab.ok_ite | intro _ | split | with_reducible apply Fab.ok_mk

theorem Fab.xtalTick_ok {f : Fab} (h : f.Ok) : (f.xtalTick).Ok := by
  unfold Fab.xtalTick
  repeat' first
    | with_reducible assumption | with_reducible apply Fab.etimeTick_ok | with_reducible apply Fab.wdogTick_ok
    | with_reducible apply Fab.lockoutTick_ok | with_reducible apply Fab.clkTick_ok | intro _

end Sys2Proof.Machine
end

