-- ==== Sys2Proof/Certificates/Slice0/Obligations.lean ====
section
/-! DEFINITION. The statements for the provers: under `Sys2Proof.Claims` the parts, each about a few commands or one operation, and
as `Obligations.<Name>` the obligations that OBLIGATIONS.json lists. -/

open Sys2Proof Sys2Proof.Machine

/-- A step runs the command at the front of the queue. A step at a queue whose front is `c` is `exec c` on the state with the
rest of the queue. -/
def Obligations.StepRunsFront : Prop :=
  ∀ (c : Instr) (s : State), step { s with pending := c :: s.pending } = exec c s

/-- A step on an empty queue is one period of the XTAL32 clock (design choice, log 9): DESIGN CHOICE, log 9: on an empty queue
the step is one period of XTAL32, which the elapsed-time counter counts (R543). -/
def Obligations.IdleStepTicks : Prop :=
  ∀ s : State, s.pending = [] → ∃ t, step s = .next t ∧ t.pending = [] ∧
    t.fab.reg Reg.PWR_ETIME = s.fab.reg Reg.PWR_ETIME + 1 ∧ t.fab.sh = s.fab.sh ∧ t.fab.link = s.fab.link ∧
    t.fab.dma = s.fab.dma ∧ (s.fab.pwr.st ≠ 2 → t.fab.mem = s.fab.mem ∧ t.fab.eng = s.fab.eng)

/-- No command changes the queue of waiting commands. Every command acts on the fabric alone: the queue stands as it was. -/
def Obligations.ExecKeepsQueue : Prop :=
  ∀ (c : Instr) (s t : State), exec c s = .next t → t.pending = s.pending

/-- Every well-formed command answers a next state in every state. No command stops on ordinary data: only operands that name no
unit of the block are refused (log 1). -/
def Obligations.OnlyIllFormedRefused : Prop :=
  ∀ (c : Instr) (s : State),
    (c.wf = false → exec c s = .refused .noSuchUnit) ∧
    (c.wf = true → Runs c s)

/-- Every step keeps memory and the device registers in canonical form. Every command, every state: the canonical form of memory
and of the device registers is an invariant of the step. -/
def Obligations.StepKeepsInv : Prop :=
  ∀ s t : State, s.Inv → step s = .next t → t.Inv

/-- The machine right after reset. The values that reset leaves, as R42 and the register tables give them; the general registers
and memory at 0 are the model's (logs 3 and 5). -/
def Obligations.ResetState : Prop :=
  State.reset.Inv ∧ State.reset.pending = [] ∧ State.reset.fab.mem = [] ∧
  (∀ e i, (State.reset.fab.engine e).rA i = 0 ∧ (State.reset.fab.engine e).rN i = 0 ∧
    (State.reset.fab.engine e).rP i = (i == 0) ∧ (State.reset.fab.engine e).x = [] ∧ (State.reset.fab.engine e).acc = [] ∧
    (State.reset.fab.engine e).k = 0 ∧ (State.reset.fab.engine e).shA = [] ∧ (State.reset.fab.engine e).halted = false) ∧
  (∀ p, p < 8 → State.reset.fab.st p = 0 ∧ State.reset.fab.get (Reg.SQ_DCN_DCN p) = 0 ∧
    State.reset.fab.get (Reg.HP_PCFG_VALID p) = 0) ∧
  (∀ c, c < 16 → State.reset.fab.lst c = 0) ∧ (∀ u, u < 48 → State.reset.fab.get (Reg.MEM_OWNER_OWN u) = 8) ∧
  (∀ g, g < 2048 → State.reset.fab.get (Reg.MEM_DOWNER_OWN g) = 8) ∧
  (∀ k, k < 255 → isSource k = true → State.reset.fab.get (Reg.ISC_SCFG_EN k) = 1 ∧
    State.reset.fab.get (Reg.ISC_SSTAT_STATE k) = 0) ∧
  ∀ a, State.reset.fab.reg a = regReset a

/-- A field of a device register after a write of it, and every other field (R8). -/
def Sys2Proof.Claims.RegisterFields : Prop :=
  ∀ (f : Fab) (x y : Fld) (v : Nat), x.lo + x.w ≤ 64 → y.lo + y.w ≤ 64 →
    (f.set x v).get x = v % 2 ^ x.w ∧
    (y.addr ≠ x.addr ∨ y.lo + y.w ≤ x.lo ∨ x.lo + x.w ≤ y.lo → (f.set x v).get y = f.get y) ∧
    OnlyRegs [x.addr] f (f.set x v)

/-- A range of memory with whole code words, after a write of it: byte order, what is read back, and every other byte. -/
def Sys2Proof.Claims.MemoryReadAfterWrite : Prop :=
  ∀ (f : Fab) (src rdr a n v : Nat), f.err = [] → 0 < n → a + n ≤ ddrBase →
    (f.write src a n v).dropped = false ∧
    ((f.write src a n v).fab.read rdr a n).data = v % 2 ^ (8 * n) ∧ ((f.write src a n v).fab.read rdr a n).bad = none ∧
    (∀ i, i < n → byteAt (f.write src a n v).fab.mem (a + i) = BitVec.ofNat 8 (v / 2 ^ (8 * i))) ∧
    (∀ x, x < a ∨ a + n ≤ x → byteAt (f.write src a n v).fab.mem x = byteAt f.mem x) ∧
    (f.write src a n v).fab.regs = f.regs ∧
    (Memory.wf f.mem = true → Memory.wf (f.write src a n v).fab.mem = true)

/-- A code word of external memory after a write of it (R394, R451, R275): it reads as written under the key that wrote it, and as
the decryption of its ciphertext under another; every other code word decodes as before. -/
def Sys2Proof.Claims.EncryptedWords : Prop :=
  ∀ (f : Fab) (wa v : Nat), isDdr (16 * wa) = true → f.lost.contains ((16 * wa - ddrBase) / 0x10000000) = false →
    v < 2 ^ 128 → ∀ g : Fab, g = f.putWord wa v →
    g.decodeWord wa = ⟨.clean, v, 0, 0⟩ ∧ (∀ b, b ≠ wa → g.decodeWord b = f.decodeWord b) ∧
    ∀ (k : Store Nat) (h : Fab), h = { g with keys := k } → h.keyTag (16 * wa) ≠ f.keyTag (16 * wa) →
      h.decodeWord wa = ⟨.clean, xtsDec (f.keyPair (h.keyTag (16 * wa))) (16 * wa - ddrBase)
        (xtsEnc (f.keyPair (f.keyTag (16 * wa))) (16 * wa - ddrBase) v), 0, 0⟩

/-- A register field, a range of memory and a code word of external memory read as they were last written, and everything else as
before. -/
def Obligations.ReadAfterWrite : Prop :=
  Sys2Proof.Claims.RegisterFields ∧ Sys2Proof.Claims.MemoryReadAfterWrite ∧ Sys2Proof.Claims.EncryptedWords

/-- An engine that runs, with nothing that holds it, issues the bundle at its pc at the time that its plan gives. BUNDLE_ISSUE
(R45): the pipeline's own order of arrival and issue; accesses to the Avenue of one ECLK act in the order of the engines (R246),
and a bundle that needs a bank lent to the memory tester waits (R247). -/
def Obligations.BundleIssue : Prop :=
  ∀ (s : State) (e t : Nat), e < 192 → s.fab.engOn e = true → (s.fab.engine e).phase = .running →
    (s.fab.engine e).halted = false → (s.fab.engine e).trap = none → (s.fab.engine e).haltReq = none →
    s.fab.lockStep e = false → (s.fab.engine e).brkHit = none → (s.fab.engine e).firstErr = none →
    (s.fab.plan e).t = some t → ∀ g : Fab, g = (s.fab.plan e).arrive e t → (g.engine e).phase = .running →
    ((s.fab.plan e).avenue (g.engine e) = true → s.fab.avenueTurn e t = true) →
    (((s.fab.plan e).meets g e ((s.fab.plan e).reads (g.engine e) t)).1 = true →
      Becomes (.bundleIssue e) s (s.fab.holdYield e t
        ((s.fab.plan e).meets g e ((s.fab.plan e).reads (g.engine e) t)).2 |>.issued e)) ∧
    (((s.fab.plan e).meets g e ((s.fab.plan e).reads (g.engine e) t)).1 = false →
      Becomes (.bundleIssue e) s (((s.fab.plan e).issue g e t false).issued e))

/-- TLOG applies its truth table at each bit position: R92. -/
def Obligations.TlogTruthTable : Prop :=
  (∀ (n0 : Bool) (w : Nat), w < 2 ^ 32 → w.testBit 31 = true →
    decodeN n0 w = some (.tlog (natBits w 24 7 * 2 + natBits w 0 1) (natBits w 13 6) (natBits w 7 6) (natBits w 1 6))) ∧
  (∀ tt d a b, NOp.lat (.tlog tt d a b) = 1) ∧
  (∀ (r : Run) (c : Ctx) (slot tt d a b : Nat),
    r.execN c slot (.tlog tt d a b) = r.put c slot 1 (.n d) (tlog tt (c.e0.rN a) (c.e0.rN b) (c.e0.rN d))) ∧
  (∀ (tt : Nat) (a b c : NetWord) (i : Nat), i < 256 →
    (tlog tt a b c).getLsbD i =
      tt.testBit (4 * (a.getLsbD i).toNat + 2 * (b.getLsbD i).toNat + (c.getLsbD i).toNat))

/-- TLX gives a known bit only where every completion of the unknown inputs gives it: R93. -/
def Obligations.TlxCompletions : Prop :=
  (∀ (n0 : Bool) (w : Nat), w < 2 ^ 32 → w.testBit 31 = false → w.testBit 30 = true → w.testBit 7 = false → w.testBit 1 = false →
    ∃ tt d a b, tt < 256 ∧ decodeN n0 w = some (.tlx tt d a b)) ∧
  (∀ tt d a b, NOp.lat (.tlx tt d a b) = 2) ∧
  (∀ (r : Run) (c : Ctx) (slot tt d a b : Nat), ∀ v : Four,
    v = tlx tt ⟨c.e0.rN a, c.e0.rN (a + 1)⟩ ⟨c.e0.rN b, c.e0.rN (b + 1)⟩ ⟨c.e0.rN d, c.e0.rN (d + 1)⟩ →
    r.execN c slot (.tlx tt d a b) = (r.put c slot 2 (.n d) v.v).put c slot 2 (.n (d + 1)) v.u) ∧
  ∀ (tt : Nat) (a b c : Four) (i : Nat), i < 256 →
    let agrees (x : Four) (v : Bool) : Bool := x.u.getLsbD i || x.v.getLsbD i == v
    let all (v : Bool) : Prop := ∀ p q r : Bool, agrees a p = true → agrees b q = true → agrees c r = true →
      tt.testBit (4 * p.toNat + 2 * q.toNat + r.toNat) = v
    (all true → (tlx tt a b c).v.getLsbD i = true ∧ (tlx tt a b c).u.getLsbD i = false) ∧
    (all false → (tlx tt a b c).v.getLsbD i = false ∧ (tlx tt a b c).u.getLsbD i = false) ∧
    (¬ all true → ¬ all false → (tlx tt a b c).v.getLsbD i = false ∧ (tlx tt a b c).u.getLsbD i = true)

/-- P0 reads as 1 and discards writes: R42. -/
def Obligations.PredicateZero : Prop :=
  (∀ e : Engine, e.rP 0 = true) ∧ (∀ (e : Engine) (v : Bool), e.wP 0 v = e) ∧
  ∀ (e : Engine) (v : NetWord), e.wDst (.p 0) v = e

/-- The carry chains of the arithmetic slots (R128). -/
def Sys2Proof.Claims.CarryChain : Prop :=
  (∀ (x y : Word) (pc : Bool),
    (chain false x y pc).1 = x + y + BitVec.ofNat 64 pc.toNat ∧
    ((chain false x y pc).2 = true ↔ 2 ^ 64 ≤ x.toNat + y.toNat + pc.toNat) ∧
    (chain true x y pc).1 = x - y - BitVec.ofNat 64 pc.toNat ∧
    ((chain true x y pc).2 = true ↔ x.toNat < y.toNat + pc.toNat)) ∧
  (∀ (r : Run) (c : Ctx) (slot d s1 s2 : Nat) (sub start : Bool), slot = 2 ∨ slot = 3 →
    let pcar := if slot = 2 then 14 else 15
    let v := chain sub (c.e0.rA s1) (c.e0.rA s2) (!start && c.e0.rP pcar)
    r.execA c slot (.chain sub start d s1 s2) = (r.putA c slot 1 d v.1).putP c slot 1 pcar v.2)

/-- Wrapping and saturating results (R121, R122). -/
def Sys2Proof.Claims.SaturatingResults : Prop :=
  ∀ (w : Nat) (r : Int), 1 ≤ w →
    (fitS false w r).1 = BitVec.ofInt w r ∧ (fitS false w r).2 = false ∧
    (fitU false w r).1 = BitVec.ofInt w r ∧ (fitU false w r).2 = false ∧
    (fitS true w r).1.toInt = max (-(2 ^ (w - 1))) (min (2 ^ (w - 1) - 1) r) ∧
    ((fitS true w r).2 = true ↔ r < -(2 ^ (w - 1)) ∨ 2 ^ (w - 1) - 1 < r) ∧
    ((fitU true w r).1.toNat : Int) = max 0 (min (2 ^ w - 1) r) ∧
    ((fitU true w r).2 = true ↔ r < 0 ∨ 2 ^ w - 1 < r)

/-- Carry chains and saturating results of the arithmetic slots. -/
def Obligations.ArithmeticSlots : Prop :=
  Sys2Proof.Claims.CarryChain ∧ Sys2Proof.Claims.SaturatingResults

/-- QUINCE_RESULT (R137) with a result that does not trap. -/
def Sys2Proof.Claims.QuinceWrites : Prop :=
  ∀ (s : State) (e : Nat) (q : QOp), e < 192 → s.fab.engOn e = true → (s.fab.engine e).quince = some q → q.trap = none →
    exec (.quinceResult e) s =
      .next { s with fab := s.fab.setEng e { (s.fab.engine e).retire q.due with quince := none } }

/-- FAR_LOAD_RESULT (R308) and FAR_STORE_PERFORMED (R309) with no access of the engine before them in order. -/
def Sys2Proof.Claims.FarAccesses : Prop :=
  (∀ (s : State) (e idx at_ : Nat) (l : FarLd), e < 192 → s.fab.engOn e = true → (s.fab.engine e).far[idx]? = some l →
    l.doneAt = none → l.iss < at_ → s.fab.farBefore e l.dev l.iss = false → s.fab.borrowed l.dev = false →
    (s.fab.read 1 l.dev l.size).bad = none →
    let w := (s.fab.engine e).portFree ((s.fab.engine e).pend.length + 1) at_
    exec (.farLoadResult e idx at_) s = .next { s with fab := (s.fab.read 1 l.dev l.size).fab.updEng e (fun x =>
      { x with far := x.far.set idx { l with doneAt := some w } }.addPend
        ⟨w, l.iss, 8, l.dst, BitVec.ofNat 256 (s.fab.read 1 l.dev l.size).data⟩) }) ∧
  (∀ (s : State) (idx at_ p : Nat) (x : FarSt), s.fab.active = true → s.fab.farSt[idx]? = some x → x.iss < at_ →
    s.fab.farBefore x.eng x.dev x.iss = false → s.fab.borrowed x.dev = false →
    let f : Fab := { s.fab with farSt := s.fab.farSt.eraseIdx idx }
    let g := (f.engWrite x.eng x.dev x.size x.data.toNat).fab
    g.engPart x.eng = some p →
    exec (.farStorePerformed ⟨idx, at_⟩) s = .next { s with fab := (g.journalEvents p at_).barrierTry p (at_ + 1) })

/-- PUT_VISIBLE (R300): the put that is next at its target, where no read of a link port comes first (R301). -/
def Sys2Proof.Claims.PutLands : Prop :=
  ∀ (s : State) (idx p : Nat) (u : Put), s.fab.active = true → s.fab.puts[idx]? = some u → u.lost = none → u.tgt < 192 →
    s.fab.puts.any (fun v => v.tgt == u.tgt && v.lost.isNone &&
      (v.vis < u.vis || (v.vis == u.vis && v.rank < u.rank))) = false → s.fab.readFirst u.tgt u.vis = false →
    s.fab.borrowed (arcBase u.tgt) = false → Store.get 0 s.fab.pbT u.tgt ≤ u.vis → s.fab.putOk u = true →
    (u.off < 0x1800 ∨ u.vis < (s.fab.engine u.tgt).bnd.1 ∨ (s.fab.engine u.tgt).bnd.2 ≤ u.vis) →
    (s.fab.engine u.tgt).portA = [] →
    let f : Fab := { s.fab with
      puts := s.fab.puts.eraseIdx idx
      past := s.fab.past ++ [u]
      pbT := Store.set 0 s.fab.pbT u.tgt (u.vis + 1) }
    let g := (f.putData u).updEng u.tgt (fun e => e.markWritten u.off u.size)
    g.putPart u = some p →
    exec (.putVisible idx) s = .next { s with fab := g.barrierTry p (u.vis + 1) }

/-- PERF_COUNTER_WRAP (R85). -/
def Sys2Proof.Claims.CounterWrap : Prop :=
  ∀ (s : State) (e k n : Nat), e < 192 → k < 4 → n ≤ 8 → s.fab.engOn e = true → (s.fab.engine e).perfWraps k n = true →
    Answers (.perfCounterWrap e k n) s (fun g =>
      (g.engine e).get (Ecs.PERF_COUNT k) = (s.fab.engine e).get (Ecs.PERF_COUNT k) + n - 2 ^ 48 ∧
      ((g.engine e).ecsReg Ecs.PERFCTL).getLsbD (4 + k) = true ∧
      (∀ i, i ≠ e → g.engine i = s.fab.engine i) ∧
      g.inbox = s.fab.inbox ++ (match s.fab.engPart e with
        | some p => if ((s.fab.engine e).get Ecs.PERFCTL_OVFIRQ).testBit k then [(73 + p, true, true)] else []
        | none => []) ∧
      { g with eng := s.fab.eng, inbox := s.fab.inbox } = s.fab)

/-- Results that reach an engine or memory later: Quince, far accesses, puts, performance counters. -/
def Obligations.DelayedAccesses : Prop :=
  Sys2Proof.Claims.QuinceWrites ∧ Sys2Proof.Claims.FarAccesses ∧ Sys2Proof.Claims.PutLands ∧ Sys2Proof.Claims.CounterWrap

/-- TRAP_ENTRY and INTERRUPT_ENTRY (R218, R222) and the registers of trap entry (R218, R219). -/
def Sys2Proof.Claims.TrapEntry : Prop :=
  (∀ (s : State) (e : Nat) (x : Trap), e < 192 → s.fab.engOn e = true → (s.fab.engine e).halted = false →
    (s.fab.engine e).phase ≠ .returning → (s.fab.engine e).trap = some x → Becomes (.trapEntry e) s (s.fab.enter e x)) ∧
  (∀ (s : State) (e b : Nat), e < 192 → s.fab.engOn e = true → (s.fab.engine e).phase = .running →
    (s.fab.engine e).halted = false → (s.fab.engine e).trap = none → (s.fab.engine e).haltReq = none →
    (s.fab.engine e).stepReq = false → s.fab.lockStep e = false → (s.fab.engine e).bit Ecs.INTSTAT_PEND = true →
    (s.fab.engine e).pendAt < b →
    ((s.fab.applyEcs e b (fun w => w.seq ≤ (s.fab.engine e).seq + 1)).engine e).bit Ecs.MODE_IE = true →
    ((s.fab.applyEcs e b (fun w => w.seq ≤ (s.fab.engine e).seq + 1)).engine e).bit Ecs.TRAPSTAT_BUSY = false →
    s.fab.intBoundary e b = true →
    Becomes (.interruptEntry e b) s
      (s.fab.enter e ⟨0x0F, 0, false, (s.fab.engine e).pc, false, (s.fab.engine e).pc, 0, 0, false, b, none⟩)) ∧
  (∀ (f : Fab) (e : Nat) (x : Trap), (f.engine e).pend = [] → (f.engine e).ecsPend = [] → (f.engine e).quince = none →
    (f.engine e).derr = [] → (f.engine e).stepReq = false → x.fp = none → x.ret < 0x20000 → x.bpc < 0x20000 → x.addr < 2 ^ 32 →
    (f.engine e).bit Ecs.TRAPSTAT_BUSY = false → (f.engine e).phase ≠ .unreleased → (f.engine e).phase ≠ .stopped →
    let o := f.engine e
    let n := (f.enter e x).engine e
    n.ecsReg Ecs.TRAPPC = w64 x.ret ∧ n.ecsReg Ecs.TRAPBPC = w64 x.bpc ∧ n.ecsReg Ecs.TRAPADDR = w64 x.addr ∧
    n.ecsReg Ecs.TRAPCAUSE = w64 (x.code + x.slots * 2 ^ 8 + x.svc * 2 ^ 16 + x.sysp.toNat * 2 ^ 24 + x.exe.toNat * 2 ^ 25) ∧
    n.get Ecs.TRAPSTAT_PPRIV = o.get Ecs.MODE_PRIV ∧ n.get Ecs.TRAPSTAT_PIE = o.get Ecs.MODE_IE ∧
    n.get Ecs.TRAPSTAT_PSH = o.get Ecs.TRAPSTAT_SH ∧ n.get Ecs.TRAPSTAT_QP = 0 ∧ n.get Ecs.TRAPSTAT_BUSY = 1 ∧
    n.get Ecs.TRAPSTAT_SH = 1 ∧ n.get Ecs.MODE_PRIV = 1 ∧ n.get Ecs.MODE_IE = 0 ∧
    n.pc = o.get Ecs.TVEC_BASE * 512 + 32 * x.code ∧ n.issueAt = x.b + 8 ∧ n.phase = .running ∧ n.trap = none ∧
    n.btb = [] ∧ n.rc = none ∧ n.bit Ecs.RESV_VALID = false ∧ n.n = o.n ∧ n.acc = o.acc ∧ n.x = o.x ∧ n.inc = o.inc ∧
    (∀ i, i < 16 → n.rA i = if o.bit Ecs.TRAPSTAT_SH then o.rA i else Store.get 0 o.shA i) ∧
    (∀ i, 16 ≤ i → n.rA i = o.rA i) ∧
    (∀ i, i ≠ e → (f.enter e x).engine i = f.engine i) ∧ (f.enter e x).mem = f.mem)

/-- RTE_RETURN (R226). -/
def Sys2Proof.Claims.ReturnFromHandler : Prop :=
  ∀ (s : State) (e : Nat), e < 192 → s.fab.engOn e = true → (s.fab.engine e).phase = .returning →
    (s.fab.engine e).pend = [] → (s.fab.engine e).ecsPend = [] → (s.fab.engine e).parked = none →
    (s.fab.engine e).stepReq = false → (∀ p, s.fab.engPart e = some p → s.fab.st p ≠ 3) →
    Answers (.rteReturn e) s (fun g =>
      let o := s.fab.engine e
      let n := g.engine e
      n.pc = o.get Ecs.TRAPPC_PC * 4 ∧ n.issueAt = o.rteAt + 8 ∧ n.get Ecs.MODE_PRIV = o.get Ecs.TRAPSTAT_PPRIV ∧
      n.get Ecs.MODE_IE = o.get Ecs.TRAPSTAT_PIE ∧ n.get Ecs.TRAPSTAT_SH = o.get Ecs.TRAPSTAT_PSH ∧
      n.get Ecs.TRAPSTAT_BUSY = 0 ∧ n.btb = [] ∧ n.rc = none ∧ n.n = o.n ∧ n.acc = o.acc ∧ n.x = o.x ∧ n.inc = o.inc ∧
      (∀ i, i < 16 → n.rA i = if o.get Ecs.TRAPSTAT_PSH = o.get Ecs.TRAPSTAT_SH then o.rA i else Store.get 0 o.shA i) ∧
      (∀ i, 16 ≤ i → n.rA i = o.rA i) ∧
      (∀ i, i ≠ e → g.engine i = s.fab.engine i) ∧ g.mem = s.fab.mem)

/-- Trap entry, interrupt entry and return from a handler: what is saved, what changes, where the pc goes. -/
def Obligations.TrapAndReturn : Prop :=
  Sys2Proof.Claims.TrapEntry ∧ Sys2Proof.Claims.ReturnFromHandler

/-- ENGINE_RELEASE (R588), of a share that has no command waiting in its ring and no signal forced. An engine that a double
fault stopped stays so where the share resumes from a hold (R221). -/
def Sys2Proof.Claims.EngineRelease : Prop :=
  ∀ (s : State) (p t : Nat) (restored : Bool) (k : RelKind), p < 8 → s.fab.active = true →
    (s.fab.share p).relT = some (k, t) → s.fab.tblErr p = false →
    (s.fab.st p = 1 ∨ s.fab.st p = 3 ∨ s.fab.st p = 4) → (k = .rollback → restored = true) →
    (s.fab.share p).failAtResume = none → (s.fab.share p).cmdRedo = false → (s.fab.share p).force = [] →
    (k ≠ .rollback → s.fab.ringDist p 1 (s.fab.cons p 1) (s.fab.prod p 1) = 0) →
    (s.fab.share p).jOver = none → (s.fab.share p).jHigh = false → (s.fab.share p).sBad = false →
    Answers (.engineRelease p t restored) s (fun g =>
      g.st p = 2 ∧ g.get (Reg.SQ_STAT_WAITING p) = 0 ∧ (g.share p).relT = none ∧
      (g.share p).iStart = s.fab.get (Reg.SQ_DCN_DCN p) + 1 ∧
      (g.share p).nextB = t + s.fab.get (Reg.SQ_SCHED_FIRST p) ∧ (∀ q, q ≠ p → g.share q = s.fab.share q) ∧
      g.mem = s.fab.mem ∧ (∀ a, a ≠ (Reg.SQ_STAT_STATE p).addr → g.reg a = s.fab.reg a) ∧
      (∀ e, s.fab.activeIn p e = false → g.engine e = s.fab.engine e) ∧
      ∀ e, e < 192 → s.fab.activeIn p e = true → (k = .hold → (s.fab.engine e).phase ≠ .stopped) →
        (g.engine e).phase = .running ∧ (g.engine e).issueAt = t ∧ (g.engine e).written = 0 ∧ (g.engine e).btb = [] ∧
        (g.engine e).rc = none ∧
        (g.engine e).pc = 4 * (if k = .start then (s.fab.engine e).drain.get Ecs.TRAPPC_PC
          else (s.fab.engine e).drain.get Ecs.DCFG_ENTRY))

/-- STIMULUS_WRITE (R359). -/
def Sys2Proof.Claims.StimulusWrite : Prop :=
  (∀ (s : State) (p : Nat), p < 8 → s.fab.active = true → s.fab.st p ≠ 0 → s.fab.st p ≠ 5 →
    32 ≤ s.fab.ringDist p 0 (s.fab.share p).stRd (s.fab.prod p 0) →
    let r := s.fab.ringRead p 0 (s.fab.share p).stRd 32
    let h := s.fab.stimHdr p r.data (s.fab.share p).lastSt
    h.size ≤ r.fab.ringDist p 0 (s.fab.share p).stRd (r.fab.prod p 0) → h.ok = true → h.mark = false →
    h.dcn ≤ r.fab.stimMax p →
    let w := r.fab.stimRows p (s.fab.share p).stRd h
    let l := w.ringRead p 0 (s.fab.share p).stRd h.size
    Becomes (.stimulusWrite p) s ((l.fab.ilogAppend p h.dcn h.size l.data).updSh p (fun x =>
      { x with stRd := r.fab.ringAdv p 0 (s.fab.share p).stRd h.size, lastSt := h.dcn }))) ∧
  ∀ (f : Fab) (p off : Nat) (h : StimHdr),
    let r := f.ringRead p 0 (f.ringAdv p 0 off 32) (32 * h.nrows)
    r.bad = none → f.stimRows p off h =
      (r.fab.write 2 (arcBase h.eng + 0x1000 + 0x400 * (h.dcn % 2) + 32 * h.row) (32 * h.nrows) r.data).fab

/-- Releasing the engines of a share at its start, after a hold and after a rollback; writing one stimulus entry. -/
def Obligations.ReleaseAndStimulus : Prop :=
  Sys2Proof.Claims.EngineRelease ∧ Sys2Proof.Claims.StimulusWrite

/-- DESIGN_CYCLE_BOUNDARY (R114) inside an interval, with no capture, no late store to a next-state buffer and no bank lent to
the memory tester. -/
def Sys2Proof.Claims.DesignCycleBoundary : Prop :=
  ∀ (s : State) (p b : Nat), p < 8 → s.fab.active = true → s.fab.st p = 2 → (s.fab.share p).waitStop = false →
    s.fab.boundaryOk p (s.fab.curDc p) b = .begins → s.fab.endsAt p (s.fab.curDc p) = false →
    s.fab.stimDone p (s.fab.curDc p + 1) = true → s.fab.get (Reg.SQ_CTL_CAPEN p) = 0 →
    s.fab.get Reg.TEST_STAT_ACTIVE = 0 →
    (∀ e, e < 192 → s.fab.activeIn p e = true → (s.fab.engine e).phase = .waitBoundary ∧ (s.fab.engine e).lastT < b ∧
      (s.fab.engine e).derr = [] ∧ (∀ x ∈ (s.fab.engine e).nextSt, x.at_ < b) ∧ (s.fab.engine e).get Ecs.DCFG_WORDS ≤ 64) →
    s.fab.err = [] → (s.fab.share p).jOver = none → (s.fab.share p).jHigh = false → (s.fab.share p).sBad = false →
    (s.fab.share p).ownRep = none →
    (s.fab.share p).live < 4 → (∀ x ∈ (s.fab.share p).force, s.fab.stateOk p x.addr = true) →
    s.fab.curDc p < 2 ^ 64 →
    Answers (.designCycleBoundary p b) s (fun g =>
      g.get (Reg.SQ_DCN_DCN p) = s.fab.curDc p ∧ g.get (Reg.SQ_STAT_WAITING p) = 0 ∧ g.st p = 2 ∧
      (g.share p).nextB = b + s.fab.get (Reg.SQ_SCHED_L p) ∧ (∀ q, q ≠ p → g.share q = s.fab.share q) ∧
      (∀ e, s.fab.activeIn p e = false → g.engine e = s.fab.engine e) ∧
      (∀ e, e < 192 → s.fab.activeIn p e = true →
        (g.engine e).phase = .running ∧ (g.engine e).written = 0 ∧
        (g.engine e).issueAt = b + 2 + ((s.fab.engine e).get Ecs.DCFG_WORDS + 3) / 4 ∧
        (g.engine e).pc = 4 * (s.fab.engine e).get Ecs.DCFG_ENTRY) ∧
      ∀ a, (∀ e, e < 192 → s.fab.activeIn p e = true → a < slotBase e (s.fab.share p).live ∨
          slotBase e (s.fab.share p).live + 32 * (s.fab.engine e).get Ecs.DCFG_WORDS ≤ a) →
        byteAt g.mem a = byteAt s.fab.mem a)

/-- The copy of the next-state buffer into the live slot (R114). -/
def Sys2Proof.Claims.LiveTakesWrittenBytes : Prop :=
  ∀ (f : Fab) (e k : Nat), e < 192 → k < 4 → f.err = [] → (f.engine e).get Ecs.DCFG_WORDS ≤ 64 →
    let g := (f.copyNext e k).1
    (f.copyNext e k).2 = false ∧
    (∀ i, i < 32 * (f.engine e).get Ecs.DCFG_WORDS → byteAt g.mem (slotBase e k + i) =
      if (f.engine e).written.getLsbD i then byteAt f.mem (arcBase e + 0x1800 + i) else byteAt f.mem (slotBase e k + i)) ∧
    (∀ a, a < slotBase e k ∨ slotBase e k + 32 * (f.engine e).get Ecs.DCFG_WORDS ≤ a → byteAt g.mem a = byteAt f.mem a)

/-- A design cycle boundary advances the design cycle and the live state takes exactly the written bytes. -/
def Obligations.DesignCycles : Prop :=
  Sys2Proof.Claims.DesignCycleBoundary ∧ Sys2Proof.Claims.LiveTakesWrittenBytes

/-- REPORT, READY, BARRIER and EARLY (R341, R342, R344, R349, R350). `f` is the fabric once the flit is accepted. -/
def Sys2Proof.Claims.MessagesTowardsRoot : Prop :=
  ∀ (s : State) (f : Fab) (c now p : Nat) (w : Flit) (m : SqMsg), c < 16 → s.fab.active = true → f.fromChild p c = true →
    (s.fab.rxSquare c now w 0x20 = (some (p, m), f) → m.flags.testBit 0 = true → f.isRoot p = false →
      Becomes (.report c now w) s (f.sendUp p 0x20 m.dcn (m.t % 256) 1)) ∧
    (s.fab.rxSquare c now w 0x20 = (some (p, m), f) → m.flags.testBit 0 = true → f.isRoot p = true →
      f.st p = 2 → f.get (Reg.SQ_CDCN_DCN p) < m.dcn →
      Becomes (.report c now w) s ((f.updSh p (fun x => { x with lastFail := m.t % 256, failDcn := m.dcn })).rootFail p
        (m.t % 256) m.dcn now)) ∧
    (s.fab.rxSquare c now w 0x20 = (some (p, m), f) → m.flags.testBit 0 = false → f.st p = 2 →
      ∀ r : Rep, r = ⟨m.dcn, false, 0, m.flags.testBit 1, m.flags.testBit 2, m.flags.testBit 3⟩ →
        Becomes (.report c now w) s
          (((f.updSh p (fun x => { x with childRep := x.childRep.put c r })).combine p now).holdCheck p now)) ∧
    (s.fab.rxSquare c now w 0x22 = (some (p, m), f) → f.st p ≠ 5 →
      (m.dcn = f.get (Reg.SQ_DCN_DCN p) + 1 → f.st p = 3 ∨ (f.share p).waitStop = true →
        (f.share p).holdChild.contains c = false → Becomes (.ready c now w) s
          ((f.updSh p (fun x => { x with holdChild := c :: x.holdChild })).holdCheck p now)) ∧
      (m.dcn ≠ f.get (Reg.SQ_DCN_DCN p) + 1 ∨ f.st p ≠ 3 ∧ (f.share p).waitStop = false → (f.share p).sentUp = true →
        (f.share p).readyChild.contains c = false → Becomes (.ready c now w) s
          ((f.updSh p (fun x => { x with readyChild := c :: x.readyChild })).combineReady p m.dcn now))) ∧
    (s.fab.rxSquare c now w 0x24 = (some (p, m), f) → f.st p = 2 →
      Becomes (.barrier c now w) s ((f.updSh p (fun x => { x with barChild := x.barChild.put c m.dcn })).barrierTry p now)) ∧
    (s.fab.rxSquare c now w 0x26 = (some (p, m), f) → f.isRoot p = false →
      Becomes (.early c now w) s (f.sendUp p 0x26 m.dcn 0 0)) ∧
    (s.fab.rxSquare c now w 0x26 = (some (p, m), f) → f.isRoot p = true → f.st p = 2 → ∀ e,
      e = f.get (Reg.SQ_DCN_DCN p) + f.get (Reg.SQ_INTERVAL_EARLY p) →
      (e < (f.share p).iEnd → (f.share p).endSent = false → Becomes (.early c now w) s
        ((((f.updSh p (fun x => { x with endSent := true })).sendDown p 0x27 e 0 0).takeEnd p e).1)) ∧
      ((f.share p).iEnd ≤ e ∨ (f.share p).endSent = true → Becomes (.early c now w) s f))

/-- Reception of a control flit and of a flit of the Square (R313, R331, R348): it stands at the next position of the frame that no
scheduled flit has. -/
def Sys2Proof.Claims.FlitReception : Prop :=
  ∀ (f : Fab) (c now : Nat) (w : Flit) (ty : Nat), f.portActive c = true →
    let r := rsDecode false w
    let pay := natBits r.word.toNat 32 128
    (f.nextPos c false = none → f.rxCtl c now w ty = (none, f) ∧ f.rxSquare c now w ty = (none, f)) ∧
    (∀ i, f.nextPos c false = some i → (f.port c).mapBad = false → ctlType ty = true → natBits pay 0 8 = ty →
      (r.out = .clean → f.rxCtl c now w ty = (some pay, f.atPos c i)) ∧
      (r.out = .corrected → f.rxCtl c now w ty = (some pay, (f.atPos c i).stick (Reg.LINK_ERRCNT_CE c) 1))) ∧
    (∀ i p, f.nextPos c false = some i → f.portPart c = some p →
      ((f.port c).mapBad = false → r.out = .clean → ctlType ty = true → natBits pay 0 8 = ty →
        natBits pay 8 16 = f.get (Reg.SQ_TREE_SQID p) →
        f.rxSquare c now w ty =
          (some (p, ⟨natBits pay 24 64, natBits pay 88 32, natBits pay 120 8⟩), (f.atPos c i).seen p now)) ∧
      (∀ g : Fab, g = (f.atPos c i).stick (Reg.LINK_ERRCNT_UE c) 1 →
        (f.port c).mapBad = true ∨ r.out = .uncorrectable ∨ r.out = .poison ∨ (r.out = .clean ∧ natBits pay 0 8 = ty ∧
          ctlType ty = true ∧ natBits pay 8 16 ≠ f.get (Reg.SQ_TREE_SQID p)) →
        f.rxSquare c now w ty = (none, g.failInterval p 1 (g.curDc p) now)))

/-- REPORT, READY, BARRIER and EARLY from a child port, and which flits of the Square are accepted. -/
def Obligations.MessagesTowardsRoot : Prop :=
  Sys2Proof.Claims.MessagesTowardsRoot ∧ Sys2Proof.Claims.FlitReception

/-- DECIDE, GO, RELEASE, END and HALT (R343, R337, R349, R350, R344). `f` is the fabric once the flit is accepted. -/
def Sys2Proof.Claims.MessagesFromRoot : Prop :=
  ∀ (s : State) (f : Fab) (c now p : Nat) (w : Flit) (m : SqMsg), c < 16 → s.fab.active = true → f.fromParent p c = true →
    (s.fab.rxSquare c now w 0x21 = (some (p, m), f) → (f.st p = 2 ∨ f.st p = 4) →
      Becomes (.decide c now w) s
        (((f.sendDown p 0x21 m.dcn m.t m.flags).applyDecide p m.dcn m.t m.flags now).readyCheck p now)) ∧
    (s.fab.rxSquare c now w 0x23 = (some (p, m), f) →
      Becomes (.go c now w) s ((f.sendDown p 0x23 m.dcn m.t 0).takeGo p m.dcn m.t now)) ∧
    (s.fab.rxSquare c now w 0x25 = (some (p, m), f) →
      Becomes (.squareRelease c now w) s ((f.sendDown p 0x25 m.dcn 0 0).updSh p (fun x =>
        { x with relDcn := some m.dcn, relAt := now }))) ∧
    (s.fab.rxSquare c now w 0x27 = (some (p, m), f) → (f.st p = 2 ∨ f.st p = 4) → f.get (Reg.SQ_DCN_DCN p) < m.dcn →
      Answers (.sqEnd c now w) s (fun g => g = ((f.sendDown p 0x27 m.dcn 0 0).takeEnd p m.dcn).1 ∧
        (p < 8 → (g.share p).iEnd = min (f.share p).iEnd m.dcn ∧ (g.share p).forcedEnd.contains m.dcn = true))) ∧
    (s.fab.rxSquare c now w 0x28 = (some (p, m), f) → f.st p ≠ 0 → f.st p ≠ 5 →
      Becomes (.halt c now w) s (f.halt p (m.t % 16)))

/-- What a share does with a GO for ECLK `x` of its own time (R337, R344): a start, a resumption from a hold, or the next
interval. -/
def Sys2Proof.Claims.GoTaken : Prop :=
  ∀ (f : Fab) (p dcn t now x : Nat), x = f.eclkOf p now t →
    (f.goVoid p = true → f.takeGo p dcn t now = f) ∧
    (f.goVoid p = false →
      (f.st p = 1 → f.takeGo p dcn t now = f.updSh p (fun s => { s with relT := some (.start, x), goNext := some x })) ∧
      (f.st p = 3 → dcn = f.get (Reg.SQ_DCN_DCN p) + 1 →
        f.takeGo p dcn t now = f.updSh p (fun s => { s with relT := some (.hold, x) })) ∧
      (f.st p = 2 ∨ f.st p = 3 ∨ f.st p = 4 → dcn ≠ f.get (Reg.SQ_DCN_DCN p) + 1 ∨ (f.st p ≠ 3 ∧ (f.share p).waitStop = false) →
        f.takeGo p dcn t now = f.updSh p (fun s => { s with goNext := some x })) ∧
      (f.st p = 0 ∨ f.st p = 5 → (f.share p).waitStop = false → f.takeGo p dcn t now = f))

/-- DECIDE, GO, RELEASE, END and HALT from the parent port. -/
def Obligations.MessagesFromRoot : Prop :=
  Sys2Proof.Claims.MessagesFromRoot ∧ Sys2Proof.Claims.GoTaken

/-- A commit (R336). -/
def Sys2Proof.Claims.Commit : Prop :=
  ∀ (f : Fab) (p k : Nat), p < 8 → (f.share p).pendS = some k →
    let g := f.commit p
    g.get (Reg.SQ_CDCN_DCN p) = (f.share p).pendDcn % 2 ^ 64 ∧ (g.share p).comm = k ∧ (g.share p).pendS = none ∧
    (g.share p).live = (f.share p).live ∧ g.get (Reg.SQ_DCN_DCN p) = f.get (Reg.SQ_DCN_DCN p) ∧
    g.get (Reg.SQ_STAT_RETRY p) = 0 ∧ g.st p = f.st p ∧ (g.share p).forceCom = (f.share p).forcePend ∧
    ((f.share p).held = none ∨ (f.share p).held = some (f.share p).comm → g.get (Reg.SQ_STAT_PRIORV p) = 1 ∧
      (g.share p).prior = some (f.share p).comm ∧ g.get (Reg.SQ_PRIOR_DCN p) = f.get (Reg.SQ_CDCN_DCN p)) ∧
    (∀ h, (f.share p).held = some h → h ≠ (f.share p).comm →
      g.get (Reg.SQ_STAT_PRIORV p) = 0 ∧ (g.share p).prior = none) ∧
    g.mem = f.mem ∧ g.eng = f.eng ∧ (∀ q, q ≠ p → g.share q = f.share q)

/-- A failure of an interval at the root (R341, R342, R344, R346, R351). `g` is the fabric with the failure recorded. -/
def Sys2Proof.Claims.FailureAtRoot : Prop :=
  (∀ (f : Fab) (p cause dcn now : Nat), p < 8 → f.isRoot p = true → f.st p = 2 → (f.share p).failSent = false → cause < 16 →
    ∃ g : Fab, f.failInterval p cause dcn now = g.rootFail p cause dcn now ∧ g.get (Reg.SQ_STAT_FAILCAUSE p) = cause ∧
      (g.share p).lastFail = cause ∧ (g.share p).failDcn = dcn ∧ g.st p = 2 ∧ g.mem = f.mem ∧ g.eng = f.eng ∧
      g.inbox = f.inbox ∧ RegsBut [(Reg.SQ_STAT_FAILCAUSE p).addr] f g ∧ ∀ q, q ≠ p → g.share q = f.share q) ∧
  ∀ (g : Fab) (p cause dcn now : Nat),
    let r := g.get (Reg.SQ_STAT_RETRY p) + (if cause = 7 ∨ cause = 8 then 0 else 1)
    let t := (g.tbAt p now + g.get (Reg.SQ_TIMING_LEAD p)) % 2 ^ 32
    let stop := (g.share p).repFlags.1
    let hold := (g.share p).repFlags.2
    (cause ≠ 6 → r ≤ g.get (Reg.SQ_TIMING_RETRYMAX p) →
      ∀ h : Fab, h = ((g.set (Reg.SQ_STAT_RETRY p) r).sendDown p 0x21 (g.get (Reg.SQ_CDCN_DCN p)) t (flags4 true false stop hold)).updSh
        p (fun s => { s with dStop := s.dStop || stop, dHold := s.dHold || hold }) →
      g.rootFail p cause dcn now = h.rollback p (h.eclkOf p now t)) ∧
    (cause ≠ 6 → g.get (Reg.SQ_TIMING_RETRYMAX p) < r → g.rootFail p cause dcn now = g.halt p 1) ∧
    (cause = 6 → dcn = g.get (Reg.SQ_CDCN_DCN p) + 1 ∨ dcn = (g.share p).iStart → g.rootFail p cause dcn now = g.halt p 7) ∧
    (cause = 6 → dcn ≠ g.get (Reg.SQ_CDCN_DCN p) + 1 → dcn ≠ (g.share p).iStart → ∀ h : Fab, h = g.rootRollback p 6 now →
      h.st p = 4 → g.rootFail p cause dcn now = ((h.sendDown p 0x27 (dcn - 1) 0 0).takeEnd p (dcn - 1)).1)

/-- A commit makes the pending snapshot the committed one; a failed interval at the root is retried or halts. -/
def Obligations.CommitAndFailure : Prop :=
  Sys2Proof.Claims.Commit ∧ Sys2Proof.Claims.FailureAtRoot

/-- A rollback whose restore reads whole code words (R344, R352; order of its parts log 76). -/
def Sys2Proof.Claims.Rollback : Prop :=
  ∀ (f : Fab) (p t : Nat), p < 8 → (f.restore p).2 = none → f.err = [] → (f.share p).comm < 4 → (f.share p).live < 4 →
    (f.share p).comm ≠ (f.share p).live → (∀ e, e < 192 → (f.engine e).get Ecs.DCFG_WORDS ≤ 64) →
    let g := f.rollback p t
    g.st p = 4 ∧ g.get (Reg.SQ_DCN_DCN p) = f.get (Reg.SQ_CDCN_DCN p) ∧
    g.get (Reg.SQ_CDCN_DCN p) = f.get (Reg.SQ_CDCN_DCN p) ∧ (g.share p).relT = some (.rollback, t) ∧
    (g.share p).pendS = none ∧ (g.share p).force = (f.share p).forceCom ∧
    (∀ e, e < 192 → f.activeIn p e = true →
      (g.engine e).phase = .unreleased ∧ (g.engine e).pend = [] ∧ (g.engine e).far = [] ∧ (g.engine e).quince = none ∧
      (g.engine e).written = 0 ∧ (g.engine e).btb = [] ∧ (g.engine e).rc = none ∧ (g.engine e).get Ecs.TRAPSTAT_SH = 0 ∧
      (g.engine e).get Ecs.TRAPSTAT_BUSY = 0 ∧ (g.engine e).get Ecs.RESV_VALID = 0 ∧
      (g.engine e).halted = (f.engine e).halted) ∧
    (∀ e, f.activeIn p e = false → (g.engine e).phase = (f.engine e).phase ∧ (g.engine e).n = (f.engine e).n) ∧
    ∀ e i, e < 192 → f.activeIn p e = true → i < 32 * (f.engine e).get Ecs.DCFG_WORDS →
      byteAt g.mem (slotBase e (f.share p).live + i) = byteAt g.mem (slotBase e (f.share p).comm + i)

/-- A halt (R344, R345, R352). -/
def Sys2Proof.Claims.ShareHalts : Prop :=
  ∀ (f : Fab) (p cause : Nat), p < 8 → cause < 16 →
    (f.st p = 0 ∨ f.st p = 5 → f.halt p cause = f) ∧
    (f.st p ≠ 0 → f.st p ≠ 5 →
      (f.halt p cause).st p = 5 ∧
      (f.halt p cause).get (Reg.SQ_STAT_HALTCAUSE p) = (if (f.restore p).2.isSome then 2 else cause) ∧
      (f.halt p cause).get (Reg.SQ_DCN_DCN p) = f.get (Reg.SQ_CDCN_DCN p) ∧
      (f.halt p cause).get (Reg.SQ_CDCN_DCN p) = f.get (Reg.SQ_CDCN_DCN p) ∧
      ((f.halt p cause).share p).relT = none ∧ (25 + p, true, true) ∈ (f.halt p cause).inbox ∧
      ∀ e, e < 192 → f.activeIn p e = true → ((f.halt p cause).engine e).phase = .unreleased)

/-- A rollback puts the committed state back; a halt does too and stops the share. -/
def Obligations.RollbackAndHalt : Prop :=
  Sys2Proof.Claims.Rollback ∧ Sys2Proof.Claims.ShareHalts

/-- SQ_CTL_GO, _STOP, _HOLDREQ, _CLEAR, _CAPEN, _RUNMODE, _JRESET, SQ_DCN_WRITE and RING_PTR_WRITE (R27, R223, R344, R358, R367,
R368). -/
def Sys2Proof.Claims.SquareControl : Prop :=
  ∀ (s : State) (p : Nat), p < 8 → s.fab.active = true →
    (∀ now, s.fab.st p = 0 → s.fab.bit (Reg.HP_PCFG_VALID p) = true → s.fab.get (Reg.SQ_DCN_DCN p) < 2 ^ 64 - 1 →
      (s.fab.barrierMode p = true ∨ s.fab.partFeat p 1 = true) → s.fab.goVoid p = false →
      (∀ b b', b ∈ s.fab.blocks p → b' ∈ s.fab.blocks p →
        s.fab.get (Reg.PWR_ECLK_FREQ (eclkGroup b)) = s.fab.get (Reg.PWR_ECLK_FREQ (eclkGroup b'))) →
      Answers (.sqCtlGo p now) s (fun g =>
        g.st p = 1 ∧ g.mem = s.fab.mem ∧ g.eng = s.fab.eng ∧ (∀ q, q ≠ p → g.share q = s.fab.share q) ∧
        (∀ c, c < 16 → s.fab.portPart c = some p →
          g.get (Reg.LINK_STAT_TBLERR c) = if s.fab.tablesOk p c then s.fab.get (Reg.LINK_STAT_TBLERR c) else 1) ∧
        ∀ a, a ≠ (Reg.SQ_STAT_STATE p).addr → (∀ c, c < 16 → a ≠ (Reg.LINK_STAT_TBLERR c).addr) → g.reg a = s.fab.reg a)) ∧
    (1 ≤ s.fab.st p → s.fab.st p ≤ 4 → (s.fab.share p).stopSent = false →
      Becomes (.sqCtlStop p) s (s.fab.updSh p (fun x => { x with stopReq := true }))) ∧
    (∀ v now, s.fab.st p ≠ 3 → Becomes (.sqCtlHoldreq p v now) s (s.fab.set (Reg.SQ_CTL_HOLDREQ p) v.toNat)) ∧
    (s.fab.st p = 5 → Answers (.sqCtlClear p) s (fun g => g.st p = 0 ∧ g.inbox = s.fab.inbox ++ [(25 + p, false, true)] ∧
      g.mem = s.fab.mem ∧ g.eng = s.fab.eng ∧ (∀ a, a ≠ (Reg.SQ_STAT_STATE p).addr → g.reg a = s.fab.reg a))) ∧
    (∀ v, (v = true → s.fab.partFeat p 11 = true) →
      Becomes (.sqCtlCapen p v) s (s.fab.set (Reg.SQ_CTL_CAPEN p) v.toNat)) ∧
    (∀ v, s.fab.st p = 0 ∨ s.fab.st p = 5 → (v = true → s.fab.partFeat p 2 = true) →
      (v = false → s.fab.get (Reg.HP_PCFG_DX48 p) = 0) →
      Becomes (.sqCtlRunmode p v) s (s.fab.set (Reg.SQ_CTL_RUNMODE p) v.toNat)) ∧
    (∀ v : Word, s.fab.st p = 0 → Answers (.sqDcnWrite p v) s (fun g =>
      g.get (Reg.SQ_DCN_DCN p) = v.toNat ∧ g.get (Reg.SQ_CDCN_DCN p) = v.toNat ∧ g.mem = s.fab.mem ∧ g.eng = s.fab.eng ∧
      ∀ a, a ≠ (Reg.SQ_DCN_DCN p).addr → a ≠ (Reg.SQ_CDCN_DCN p).addr → g.reg a = s.fab.reg a)) ∧
    (s.fab.st p = 0 → Answers (.sqCtlJreset p) s (fun g =>
      (∀ q, q < 4 → g.prod p q = 0 ∧ g.cons p q = 0) ∧ (g.share p).bj = [] ∧ (g.share p).dj = [] ∧ (g.share p).force = [] ∧
      (g.share p).cmds = [] ∧ (g.share p).prior = none ∧ (g.share p).held = none ∧ g.get (Reg.SQ_STAT_PRIORV p) = 0 ∧
      g.get (Reg.SQ_VIEW_CTL_GRANTED p) = 0 ∧ (g.share p).live = (s.fab.share p).live ∧
      (g.share p).comm = (s.fab.share p).comm ∧ g.get (Reg.SQ_DCN_DCN p) = s.fab.get (Reg.SQ_DCN_DCN p) ∧
      g.mem = s.fab.mem ∧ g.eng = s.fab.eng)) ∧
    (∀ q (v : BitVec 32) now, q < 4 → s.fab.st p = 0 → Becomes (.ringPtrWrite p q v now) s
      (if q < 2 then s.fab.set (Reg.SQ_PTR_PROD p q) v.toNat else s.fab.set (Reg.SQ_PTR_CONS p q) v.toNat))

/-- DECISION_TIMEOUT and STEP_TIMEOUT (R347). -/
def Sys2Proof.Claims.SquareTimeouts : Prop :=
  ∀ (s : State) (p : Nat), p < 8 → s.fab.active = true → s.fab.st p = 2 → s.fab.get (Reg.SQ_TIMING_TIMEOUT p) ≠ 0 →
    s.fab.anyHalted p = false →
    ((s.fab.share p).ownRep.isSome = true ∨ (s.fab.share p).failSent = true →
      Becomes (.decisionTimeout p) s (s.fab.halt p 5)) ∧
    (∀ now, s.fab.barrierMode p = true → (s.fab.share p).barSent = true →
      (s.fab.share p).relDcn ≠ some (s.fab.curDc p) →
      Becomes (.stepTimeout p now) s (s.fab.failInterval p 9 (s.fab.curDc p) now))

/-- The controls of a share: GO, STOP, HOLDREQ, CLEAR, CAPEN, RUNMODE, DCN, JRESET, ring pointers, and its two timeouts. -/
def Obligations.SquareControl : Prop :=
  Sys2Proof.Claims.SquareControl ∧ Sys2Proof.Claims.SquareTimeouts

/-- COMMITTED_VIEW_READ (R363, R364, R365; log 37). -/
def Sys2Proof.Claims.CommittedViewRead : Prop :=
  ∀ (s : State) (m p off len : Nat), m < 6 → p < 8 → s.fab.live = true → s.fab.pwr.st ≠ 2 → s.fab.err = [] →
    ((s.fab.master m).all = true ∨ (s.fab.master m).parts.testBit p = true) → 0 < len → off % 16 + len ≤ 16 →
    off < 192 * 0x800 → s.fab.stateOk p off = true → (s.fab.share p).comm < 4 →
    (∀ k, (s.fab.share p).held = some k → k < 4) →
    s.fab.addrOn (slotBase (off / 0x800) (s.fab.share p).comm + off % 0x800) = true →
    Answers (.committedViewRead m p off len) s (fun g =>
      let held := s.fab.bit (Reg.SQ_VIEW_CTL_GRANTED p)
      let k := if held then (s.fab.share p).held.getD (s.fab.share p).comm else (s.fab.share p).comm
      let c := if held then (s.fab.share p).heldDcn else s.fab.get (Reg.SQ_CDCN_DCN p)
      let v := if m ≤ 1 then Reg.SQ_MCVFLAGS_VALID else Reg.SQ_CVFLAGS_VALID p
      let x := if m ≤ 1 then Reg.SQ_MCVFLAGS_MIXED else Reg.SQ_CVFLAGS_MIXED p
      let l := if m ≤ 1 then Reg.SQ_MCVLAT_DCN else Reg.SQ_CVLAT_DCN p
      g.out = s.fab.out ++
        [.answer m (readN s.fab.mem (slotBase (off / 0x800) k + off % 0x800) len) len false] ∧
      g.mem = s.fab.mem ∧ g.eng = s.fab.eng ∧ g.sh = s.fab.sh ∧ g.get v = 1 ∧
      (s.fab.get v = 0 → g.get l = c % 2 ^ 64 ∧ g.get x = s.fab.get x) ∧
      (s.fab.get v = 1 → g.get l = s.fab.get l ∧ (s.fab.get l ≠ c → g.get x = 1) ∧ (s.fab.get l = c → g.get x = s.fab.get x)) ∧
      ∀ a, a ≠ v.addr → a ≠ x.addr → a ≠ l.addr → g.reg a = s.fab.reg a)

/-- COMMITTED_VIEW_WRITE (R363). -/
def Sys2Proof.Claims.CommittedViewWrite : Prop :=
  ∀ (s : State) (m p off len data : Nat), m < 6 → p < 8 → s.fab.live = true → s.fab.pwr.st ≠ 2 →
    ((s.fab.master m).all = true ∨ (s.fab.master m).parts.testBit p = true) → 0 < len → off % 16 + len ≤ 16 →
    off < 192 * 0x800 →
    (s.fab.st p ≠ 0 → s.fab.st p ≠ 5 → Becomes (.committedViewWrite m p off len data) s s.fab) ∧
    (s.fab.stateOk p off = false → Becomes (.committedViewWrite m p off len data) s s.fab) ∧
    (s.fab.st p = 0 ∨ s.fab.st p = 5 → s.fab.stateOk p off = true → s.fab.err = [] → (s.fab.share p).live < 4 →
      (s.fab.share p).comm < 4 → s.fab.addrOn (slotBase (off / 0x800) (s.fab.share p).live + off % 0x800) = true →
      Answers (.committedViewWrite m p off len data) s (fun g =>
        (∀ i, i < len →
          byteAt g.mem (slotBase (off / 0x800) (s.fab.share p).live + off % 0x800 + i) = BitVec.ofNat 8 (data / 256 ^ i) ∧
          byteAt g.mem (slotBase (off / 0x800) (s.fab.share p).comm + off % 0x800 + i) = BitVec.ofNat 8 (data / 256 ^ i)) ∧
        (∀ a, (∀ k, k = (s.fab.share p).live ∨ k = (s.fab.share p).comm →
            a < slotBase (off / 0x800) k + off % 0x800 ∨ slotBase (off / 0x800) k + off % 0x800 + len ≤ a) →
          byteAt g.mem a = byteAt s.fab.mem a) ∧
        g.regs = s.fab.regs ∧ g.sh = s.fab.sh))

/-- VIEW_HOLD_REQUEST (R366). -/
def Sys2Proof.Claims.HeldViews : Prop :=
  ∀ (s : State) (p : Nat), p < 8 → s.fab.active = true →
    Answers (.viewHoldRequest p false) s (fun g => g.get (Reg.SQ_VIEW_CTL_REQ p) = 0 ∧
      g.get (Reg.SQ_VIEW_CTL_GRANTED p) = 0 ∧ g.get (Reg.SQ_VIEW_CTL_PEND p) = 0 ∧ (g.share p).held = none ∧
      g.mem = s.fab.mem ∧ g.eng = s.fab.eng) ∧
    (s.fab.partFeat p 10 = true → Answers (.viewHoldRequest p true) s (fun g =>
      let d := s.fab.get (Reg.SQ_VIEW_HOLD_DCN p)
      let isC := d = s.fab.get (Reg.SQ_CDCN_DCN p)
      let isP := (s.fab.share p).prior.isSome = true ∧ d = s.fab.get (Reg.SQ_PRIOR_DCN p)
      let isN := (s.fab.share p).pendS.isSome = true ∧ d = (s.fab.share p).pendDcn
      g.get (Reg.SQ_VIEW_CTL_REQ p) = 1 ∧ g.mem = s.fab.mem ∧ g.eng = s.fab.eng ∧
      (isC → g.get (Reg.SQ_VIEW_CTL_GRANTED p) = 1 ∧ (g.share p).held = some (s.fab.share p).comm ∧ (g.share p).heldDcn = d) ∧
      (¬ isC → isP → g.get (Reg.SQ_VIEW_CTL_GRANTED p) = 1 ∧ (g.share p).held = (s.fab.share p).prior ∧
        (g.share p).heldDcn = d) ∧
      (¬ isC → ¬ isP → isN → g.get (Reg.SQ_VIEW_CTL_GRANTED p) = 0 ∧ g.get (Reg.SQ_VIEW_CTL_PEND p) = 1) ∧
      (¬ isC → ¬ isP → ¬ isN → g.get (Reg.SQ_VIEW_CTL_GRANTED p) = 0 ∧ g.get (Reg.SQ_VIEW_CTL_PEND p) = 0 ∧
        g.get (Reg.SQ_VIEW_CTL_REFUSED p) = 1)))

/-- The committed view reads the committed or held slot, is written only at rest, and is held on request. -/
def Obligations.CommittedViews : Prop :=
  Sys2Proof.Claims.CommittedViewRead ∧ Sys2Proof.Claims.CommittedViewWrite ∧ Sys2Proof.Claims.HeldViews

/-- MEM_OWNER_WRITE (R257, R258, R266): a wipe takes the bank of the memory tester (R293). -/
def Sys2Proof.Claims.OwnershipTransitions : Prop :=
  ∀ (s : State) (isD : Bool) (i : Nat) (v : Word), i < (if isD then 2048 else 48) → s.fab.active = true →
    (∀ m, 1 ≤ m → m < 7 → Becomes (.memOwnerWrite m isD i v) s (s.fab.set Reg.MEM_OWNSTAT_OWNERR 1)) ∧
    (∀ w own, w = v.toNat % 16 → own = s.fab.get (ownFld isD i) →
      (own = 8 → w < 8 → (isD = true → s.fab.swept i = true) →
        Becomes (.memOwnerWrite 0 isD i v) s (s.fab.set (ownFld isD i) w)) ∧
      (own = 8 → w < 8 → isD = true → s.fab.swept i = false →
        Becomes (.memOwnerWrite 0 isD i v) s (s.fab.set Reg.MEM_OWNSTAT_OWNERR 1)) ∧
      (own = 8 → w = 8 → Becomes (.memOwnerWrite 0 isD i v) s s.fab) ∧
      (own = 8 → 9 ≤ w → Becomes (.memOwnerWrite 0 isD i v) s (s.fab.set Reg.MEM_OWNSTAT_OWNERR 1)) ∧
      (own < 8 → w = own → Becomes (.memOwnerWrite 0 isD i v) s s.fab) ∧
      (own < 8 → w = 8 → s.fab.runs own = false →
        Becomes (.memOwnerWrite 0 isD i v) s (((s.fab.abandon isD i).set (ownFld isD i) 9).set Reg.MEM_OWNSTAT_WIPING 1)) ∧
      (own < 8 → w = 8 → s.fab.runs own = true →
        Becomes (.memOwnerWrite 0 isD i v) s (s.fab.set Reg.MEM_OWNSTAT_OWNERR 1)) ∧
      (own < 8 → w ≠ own → w ≠ 8 → Becomes (.memOwnerWrite 0 isD i v) s (s.fab.set Reg.MEM_OWNSTAT_OWNERR 1)) ∧
      (own = 9 → Becomes (.memOwnerWrite 0 isD i v) s (s.fab.set Reg.MEM_OWNSTAT_OWNERR 1)))

/-- WIPE_COMPLETE (R259). -/
def Sys2Proof.Claims.WipesLeaveZeros : Prop :=
  ∀ (s : State) (i : Nat), s.fab.active = true → s.fab.mbx.job = none →
    (∀ isD, i < (if isD then 2048 else 48) → s.fab.get (ownFld isD i) = 9 →
      Answers (.wipeComplete isD i) s (fun g => g.get (ownFld isD i) = 8 ∧ g.inbox = s.fab.inbox ++ [(6, true, true)] ∧
        (∀ j, j < 48 → (isD = true ∨ j ≠ i) → g.get (ownFld false j) = s.fab.get (ownFld false j)) ∧
        ∀ a, byteAt g.mem a = if unitOf a = some (isD, i) then 0 else byteAt s.fab.mem a)) ∧
    (i < 24 → s.fab.get (ownFld false i) = 9 → Answers (.wipeComplete false i) s (fun g =>
      (∀ e, g.engine e = if e / 8 = i then Engine.reset else s.fab.engine e) ∧
      ∀ a, unitOf a = some (false, i) → ((g.decodeWord (a / 16)).out = .clean ∧ g.addrOn a = true) ∨ bankFld a = none))

/-- Ownership of a unit of memory: every transition the Damson core may make, and a unit that returns to free reads zeros. -/
def Obligations.Ownership : Prop :=
  Sys2Proof.Claims.OwnershipTransitions ∧ Sys2Proof.Claims.WipesLeaveZeros

/-- MEM_BSTATE_WRITE and BANK_TRANSITION_COMPLETE (R253, R254, R255). -/
def Sys2Proof.Claims.BankStates : Prop :=
  (∀ (s : State) (cb : Bool) (b r : Nat) (v : Word), s.fab.active = true → (cb = true ∨ (b < 24 ∧ r < 9)) →
    ((bstateFlds cb b r).any (fun x => s.fab.bankHeld cb b r x && s.fab.get x = 2 && fget v x.lo 2 < 2) = true →
      Becomes (.memBstateWrite cb b r v) s (s.fab.set Reg.MEM_OWNSTAT_OWNERR 1)) ∧
    ((bstateFlds cb b r).any (fun x => s.fab.bankHeld cb b r x && s.fab.get x = 2 && fget v x.lo 2 < 2) = false →
      Answers (.memBstateWrite cb b r v) s (fun g => { g with breq := s.fab.breq } = s.fab ∧
        (∀ x, x ∈ bstateFlds cb b r → Store.get 0 g.breq x.key =
          if fget v x.lo 2 = 3 ∨ (fget v x.lo 2 = s.fab.get x ∧ Store.get 0 s.fab.breq x.key = 0)
          then Store.get 0 s.fab.breq x.key else fget v x.lo 2 + 1) ∧
        ∀ k, (∀ x, x ∈ bstateFlds cb b r → k ≠ x.key) → Store.get 0 g.breq k = Store.get 0 s.fab.breq k))) ∧
  (∀ (s : State) (a q : Nat) (x : Fld), s.fab.active = true → bankFld a = some x → q < 3 → s.fab.borrowed a = false →
    Store.get 0 s.fab.breq x.key = q + 1 →
    Answers (.bankTransitionComplete a) s (fun g => g.get x = q ∧ Store.get 0 g.breq x.key = 0 ∧
      (∀ y, bankFld y = some x → g.addrOn y = (q == 2)) ∧ g.eng = s.fab.eng ∧
      (∀ y, y ≠ x.addr → g.reg y = s.fab.reg y) ∧
      ∀ y, byteAt g.mem y = if bankFld y = some x ∧ (q = 0 ∨ s.fab.get x = 0) then 0 else byteAt s.fab.mem y))

/-- REPAIR_WRITEBACK and POISON_REWRITE (R277, R278). -/
def Sys2Proof.Claims.Repairs : Prop :=
  ∀ (s : State) (a wa : Nat), a < 2 ^ 40 → s.fab.active = true →
    (∀ w, Store.get (⟨0, false⟩ : Repair) s.fab.repair (s.fab.repairKey a) = ⟨16 * wa + 1, false⟩ → isDdr (16 * wa) = false →
      rsDecode false (Store.get 0 s.fab.err wa) = w → w.out = .corrected →
      Becomes (.repairWriteback a) s { s.fab with
        repair := Store.set ⟨0, false⟩ s.fab.repair (s.fab.repairKey a) ⟨0, false⟩
        err := Store.set 0 s.fab.err wa w.word }) ∧
    (Store.get (⟨0, false⟩ : Repair) s.fab.repair (s.fab.repairKey a) = ⟨16 * wa + 1, true⟩ →
      Answers (.poisonRewrite a) s (fun g => (g.decodeWord wa).out = .poison ∧
        Store.get (⟨0, false⟩ : Repair) g.repair (s.fab.repairKey a) = ⟨0, false⟩ ∧
        (∀ b, b ≠ wa → Store.get 0 g.err b = Store.get 0 s.fab.err b) ∧ g.regs = s.fab.regs ∧ g.eng = s.fab.eng ∧
        ∀ b, b < 16 * wa ∨ 16 * wa + 16 ≤ b → byteAt g.mem b = byteAt s.fab.mem b))

/-- Bank states change when their transition completes, and repair buffers write back or poison their word. -/
def Obligations.BankStatesAndRepairs : Prop :=
  Sys2Proof.Claims.BankStates ∧ Sys2Proof.Claims.Repairs

/-- SCRUB_WORD and SCRUB_PASS_OVERRUN (R287, R288, R293); the walker's wait for a token counts in conflict counter 4 (log 98). -/
def Sys2Proof.Claims.Scrubber : Prop :=
  (∀ (s : State) (isD : Bool) (a : Nat), s.fab.active = true →
    s.fab.bit (if isD then Reg.SCRUB_CTL_DDR_EN else Reg.SCRUB_CTL_SRAM_EN) = true →
    Becomes (.scrubPassOverrun isD) s (s.fab.set (if isD then Reg.SCRUB_STAT_DDR_LAG else Reg.SCRUB_STAT_SRAM_LAG) 1) ∧
    (s.fab.scrubNext isD (s.fab.get (if isD then Reg.SCRUB_POS_DDR_ADDR else Reg.SCRUB_POS_SRAM_ADDR)) = some a →
      s.fab.unswept a = false →
      (s.fab.wipingAt a = true ∨ s.fab.borrowed a = true →
        Becomes (.scrubWord isD) s ((s.fab.confWait a 4 1).set Reg.MEM_MAINT_BUSY_SCRUB 1)) ∧
      (s.fab.wipingAt a = false → s.fab.borrowed a = false →
        Becomes (.scrubWord isD) s (((s.fab.confWait a 4 0).scrubAt a).scrubMove isD a)))) ∧
  (∀ (f : Fab) (a : Nat), a % 16 = 0 → a < 2 ^ 40 →
    ((f.decodeWord (a / 16)).out = .clean ∨ (f.decodeWord (a / 16)).out = .poison ∨ (f.decodeWord (a / 16)).out = .zero →
      f.scrubAt a = f) ∧
    ((f.decodeWord (a / 16)).out = .corrected →
      let ce := if isDdr a then Reg.SCRUB_ERRCNT_DDR_CE else Reg.SCRUB_ERRCNT_SRAM_CE
      (f.scrubAt a).get ce = min (f.get ce + 1) 0xFFFF ∧ (f.scrubAt a).mem = f.mem ∧
      (Store.get (⟨0, false⟩ : Repair) f.repair (f.repairKey a) = ⟨0, false⟩ →
        Store.get (⟨0, false⟩ : Repair) (f.scrubAt a).repair (f.repairKey a) = ⟨a + 1, false⟩)) ∧
    ((f.decodeWord (a / 16)).out = .uncorrectable → (∀ p, f.addrPart a = some p → f.designState p a = false) →
      let ue := if isDdr a then Reg.SCRUB_ERRCNT_DDR_UE else Reg.SCRUB_ERRCNT_SRAM_UE
      let g := f.scrubAt a
      g.get ue = min (f.get ue + 1) 0xFFFF ∧ (g.decodeWord (a / 16)).out = .poison ∧
      (f.get Reg.SCRUB_UE_LOG_VALID = 0 → g.get Reg.SCRUB_UE_LOG_VALID = 1 ∧ g.get Reg.SCRUB_UE_LOG_ADDR = a ∧
        g.get Reg.SCRUB_UE_LOG_SOURCE = 0) ∧
      g.inbox = f.inbox ++ [(match f.addrPart a with | some p => 41 + p | none => 2, true, true)]))

/-- TESTER_CHUNK (R290 to R293, R228; log 40): it begins the next chunk, or ends the chunk in progress. -/
def Sys2Proof.Claims.TesterChunks : Prop :=
  (∀ (s : State) (a : Nat) (x : MarchBad) (lost : BitVec 64), s.fab.active = true → s.fab.get Reg.TEST_STAT_ACTIVE = 0 →
    s.fab.bit Reg.TEST_CTL_EN = true → s.fab.testNext (s.fab.get Reg.TEST_POS_ADDR) 20000 = some a →
    (s.fab.wipingAt a = true →
      Becomes (.testerChunk false x lost) s ((s.fab.confWait a 5 1).set Reg.MEM_MAINT_BUSY_TEST 1)) ∧
    (s.fab.wipingAt a = false → Answers (.testerChunk false x lost) s (fun g => g = s.fab.testBegin a ∧
      g.get Reg.TEST_STAT_ACTIVE = 1 ∧ g.mem = s.fab.mem ∧ g.err = s.fab.err ∧
      (a < 2 ^ 40 → g.get Reg.TEST_POS_ADDR = a)))) ∧
  (∀ (s : State) (lost : BitVec 64) (fails : Bool) (bad : MarchBad) (a : Nat), s.fab.active = true →
    s.fab.get Reg.TEST_STAT_ACTIVE = 1 → a = s.fab.get Reg.TEST_POS_ADDR →
    (fails = true → bad.word < 64 ∧ bad.sym < 20 ∧ bad.elem < 6) →
    Answers (.testerChunk fails bad lost) s (fun g => g.get Reg.TEST_STAT_ACTIVE = 0 ∧
      (∀ b, s.fab.testNext (chunkNext a) 20000 = some b → b < 2 ^ 40 → g.get Reg.TEST_POS_ADDR = b) ∧
      (lost = 0 → s.fab.tBad = 0 → g.mem = s.fab.mem ∧ g.err = s.fab.err) ∧
      (∀ k wa, k < 64 → (chunkWords a)[k]? = some wa → (lost ||| s.fab.tBad).getLsbD k = true →
        (g.decodeWord wa).out = .poison) ∧
      (fails = true → g.get Reg.TEST_STAT_FAIL = 1 ∧ (4, true, true) ∈ g.inbox ∧
        (s.fab.get Reg.TEST_FAIL_LOG_VALID = 0 → g.get Reg.TEST_FAIL_LOG_VALID = 1 ∧ g.get Reg.TEST_FAIL_LOG_SYM = bad.sym ∧
          g.get Reg.TEST_FAIL_LOG_ELEM = bad.elem)) ∧
      (fails = false → g.inbox = s.fab.inbox))) ∧
  ∀ (f : Fab) (a : Nat), (f.borrowed a = false → f.yieldAt a = f) ∧
    (f.borrowed a = true → (f.yieldAt a).get Reg.TEST_STAT_ACTIVE = 0 ∧ (f.yieldAt a).borrowed a = false ∧
      (f.yieldAt a).get Reg.TEST_STAT_ABORTS = min (f.get Reg.TEST_STAT_ABORTS + 1) (2 ^ Reg.TEST_STAT_ABORTS.w - 1) ∧
      (f.yieldAt a).get Reg.TEST_POS_ADDR = f.get Reg.TEST_POS_ADDR ∧ (f.tBad = 0 → (f.yieldAt a).mem = f.mem))

/-- SCRUB_INJECT (R277, R284, R295). -/
def Sys2Proof.Claims.Injection : Prop :=
  ∀ (s : State) (v : Word), s.fab.live = true → s.fab.pwr.st ≠ 2 → v.getLsbD 63 = true →
    ∀ f : Fab, f = s.fab.setReg Reg.SCRUB_INJECT (v &&& 0x00FF7FFFFFFFFFFF) → f.injectRefused (f.get Reg.SCRUB_INJECT_ADDR) = none →
    (f.unswept (f.get Reg.SCRUB_INJECT_ADDR) = true → Becomes (.scrubInject 0 v) s { f with injWait := true }) ∧
    (f.unswept (f.get Reg.SCRUB_INJECT_ADDR) = false → f.borrowed (f.get Reg.SCRUB_INJECT_ADDR) = false →
      (f.get Reg.SCRUB_INJECT_KIND = 3 →
        Becomes (.scrubInject 0 v) s (({ f with injWait := false } : Fab).poison (f.get Reg.SCRUB_INJECT_ADDR / 16))) ∧
      (f.get Reg.SCRUB_INJECT_KIND = 0 → Answers (.scrubInject 0 v) s (fun g => g.regs = f.regs ∧ g.mem = s.fab.mem ∧
        Store.get 0 g.err (f.get Reg.SCRUB_INJECT_ADDR / 16) = Store.get 0 s.fab.err (f.get Reg.SCRUB_INJECT_ADDR / 16) ^^^
          BitVec.ofNat 160 (f.get Reg.SCRUB_INJECT_MASK * 2 ^ (8 * (f.get Reg.SCRUB_INJECT_SYM % 20))) ∧
        (∀ b, b ≠ f.get Reg.SCRUB_INJECT_ADDR / 16 → Store.get 0 g.err b = Store.get 0 s.fab.err b) ∧
        (Store.get (⟨0, false⟩ : Repair) g.repair (f.repairKey (f.get Reg.SCRUB_INJECT_ADDR))).addr ≠
          f.get Reg.SCRUB_INJECT_ADDR / 16 * 16 + 1)))

/-- DDR_SWEEP (R283) and CONFLICT_COUNTER_WRAP (R249). -/
def Sys2Proof.Claims.SweepAndConflicts : Prop :=
  (∀ (s : State) (n : Nat), s.fab.active = true → s.fab.get Reg.DDR_SWEEP_DONE = 0 → 0 < s.fab.ddrBytes →
    s.fab.injWait = false →
    ∀ w t, w = s.fab.get Reg.DDR_SWEEP_WM → t = min (w + n) (s.fab.ddrBytes / 16) →
    Answers (.ddrSweep n) s (fun g => g.get Reg.DDR_SWEEP_WM = t ∧
      g.get Reg.DDR_SWEEP_DONE = (if t = s.fab.ddrBytes / 16 then 1 else 0) ∧ g.eng = s.fab.eng ∧
      (∀ a, byteAt g.mem a = if ddrBase + 16 * w ≤ a ∧ a < ddrBase + 16 * t then 0 else byteAt s.fab.mem a) ∧
      ∀ a, a ≠ Reg.DDR_SWEEP_WM.addr → a ≠ Reg.DDR_SWEEP_DONE.addr → g.reg a = s.fab.reg a)) ∧
  (∀ (s : State) (b m n : Nat), b < 24 → m < 6 → s.fab.active = true → (s.fab.get (Reg.MEM_CONFCTL_EN b)).testBit m = true →
    2 ^ 48 ≤ s.fab.get (Reg.MEM_CONF_COUNT b m) + n → n < 2 ^ 48 →
    Answers (.conflictCounterWrap b m n) s (fun g =>
      g.get (Reg.MEM_CONF_COUNT b m) = s.fab.get (Reg.MEM_CONF_COUNT b m) + n - 2 ^ 48 ∧
      (g.get (Reg.MEM_CONFCTL_OVF b)).testBit m = true ∧
      g.inbox = s.fab.inbox ++ (if (s.fab.get (Reg.MEM_CONFCTL_OVFIRQ b)).testBit m then [(7, true, true)] else []) ∧
      (∀ a, a ≠ (Reg.MEM_CONF_COUNT b m).addr → a ≠ (Reg.MEM_CONFCTL_OVF b).addr → g.reg a = s.fab.reg a) ∧
      ({ g with regs := s.fab.regs, inbox := s.fab.inbox } : Fab) = s.fab))

/-- The scrubber, the tester, error injection, the DDR sweep and the conflict counters. -/
def Obligations.ScrubTestInject : Prop :=
  Sys2Proof.Claims.Scrubber ∧ Sys2Proof.Claims.TesterChunks ∧ Sys2Proof.Claims.Injection ∧ Sys2Proof.Claims.SweepAndConflicts

/-- The states of a link port from DISABLED to ACTIVE: enabling, retraining, latency, alignment, electrical idle and pinning.
LINK_CTL_EN, LINK_CTL_RETRAIN, LINK_LAT_WRITE, ELEC_DONE, ELEC_TIMEOUT, ALIGN_LOCK, ALIGN_FAIL and PIN_COMPLETE (R319,
R323). -/
def Obligations.PortTraining : Prop :=
  ∀ (s : State) (c : Nat), c < 16 → s.fab.active = true →
    (s.fab.lst c = 0 → Answers (.linkCtlEn c true) s (fun g => g.lst c = 1 ∧ g.get (Reg.LINK_CTL_EN c) = 1 ∧
      SameData s.fab g ∧ RegsBut [Reg.LINK_CTL c, Reg.LINK_STAT c] s.fab g)) ∧
    (s.fab.lst c = 0 → Becomes (.linkCtlEn c false) s (s.fab.set (Reg.LINK_CTL_EN c) 0)) ∧
    (1 ≤ s.fab.lst c → s.fab.lst c ≠ 6 → Answers (.linkCtlEn c false) s (fun g => g.lst c = 0 ∧
      g.get (Reg.LINK_CTL_EN c) = 0 ∧ g.out = s.fab.out ++ [.flit c (downFlit 0)] ∧ SameData s.fab g ∧
      RegsBut [Reg.LINK_CTL c, Reg.LINK_STAT c] s.fab g)) ∧
    (s.fab.lst c = 7 → Answers (.linkCtlRetrain c) s (fun g => g.lst c = 1 ∧ SameData s.fab g ∧
      RegsBut [Reg.LINK_STAT c] s.fab g)) ∧
    (∀ v : Word, (∀ p, s.fab.portPart c = some p → s.fab.runs p = false) → s.fab.lst c ≠ 6 →
      Becomes (.linkLatWrite c v) s (s.fab.set (Reg.LINK_LAT_LAT c) (max 16 (v.toNat % 4096)))) ∧
    (∀ v : Word, (∀ p, s.fab.portPart c = some p → s.fab.runs p = false) → s.fab.lst c = 6 →
      s.fab.get Reg.LINK_TBCTL_PARENT ≠ c → s.fab.DmaAtRest →
      Answers (.linkLatWrite c v) s (fun g => g.lst c = 5 ∧ (g.port c).held = [] ∧ (3, true, true) ∈ g.inbox ∧ g.get (Reg.LINK_LAT_LAT c) = max 16 (v.toNat % 4096) ∧
        g.reg (Reg.LINK_MEAS c) = 0 ∧ (g.port c).probes = 0 ∧ SameData s.fab g ∧
        RegsBut [Reg.LINK_STAT c, Reg.LINK_LAT c, Reg.LINK_MEAS c] s.fab g)) ∧
    (s.fab.lst c = 1 → Becomes (.elecDone c) s
      ((s.fab.set (Reg.LINK_STAT_STATE c) 2).emit (.flit c (frameFlitOf 0)))) ∧
    (s.fab.lst c = 1 → Answers (.elecTimeout c) s (fun g => g.lst c = 7 ∧ g.get (Reg.LINK_STAT_CAUSE c) = 1 ∧
      SameData s.fab g ∧ RegsBut [Reg.LINK_STAT c] s.fab g ∧ (3, true, true) ∈ g.inbox)) ∧
    (∀ lrev (lpol : BitVec 4), s.fab.lst c = 2 → (s.fab.port c).lock = true →
      Answers (.alignLock c lrev lpol) s (fun g => g.lst c = 3 ∧ g.get (Reg.LINK_STAT_LREV c) = lrev.toNat ∧
        g.get (Reg.LINK_STAT_LPOL c) = lpol.toNat ∧ SameData s.fab g ∧ RegsBut [Reg.LINK_STAT c] s.fab g ∧
        ∃ x, x < 2 ∧ g.out = s.fab.out ++ [.flit c (rsEncode (0x30 + s.fab.mgmt.did * 2 ^ 8 + c * 2 ^ 22 +
          s.fab.get (Reg.LINK_CTL_FEC c) * 2 ^ 26 + s.fab.get (Reg.LINK_LAT_LAT c) * 2 ^ 27 + x * 2 ^ 39))])) ∧
    (s.fab.lst c = 2 → Answers (.alignFail c) s (fun g => g.lst c = 7 ∧ g.get (Reg.LINK_STAT_CAUSE c) = 2 ∧
      SameData s.fab g ∧ RegsBut [Reg.LINK_STAT c] s.fab g ∧ (3, true, true) ∈ g.inbox)) ∧
    (∀ peerOk, s.fab.lst c = 5 → (s.fab.port c).probes = 64 → s.fab.get Reg.LINK_TBCTL_VALID = 1 →
      let meets := (s.fab.get (Reg.LINK_MEAS_MEAS c) + s.fab.get (Reg.LINK_CTL_MARGIN c)) * s.fab.portFreq c ≤
        s.fab.get (Reg.LINK_LAT_LAT c) * 160
      Answers (.pinComplete c peerOk) s (fun g => SameData s.fab g ∧ RegsBut [Reg.LINK_STAT c] s.fab g ∧
        (meets → peerOk = true → g.lst c = 6 ∧ (g.port c).credits = 32 ∧ (g.port c).replay = []) ∧
        (¬ meets ∨ peerOk = false → g.lst c = 7 ∧ g.get (Reg.LINK_STAT_CAUSE c) = 6)))

/-- What a port does with TRAIN, TIMESYNC, its echo, LATPROBE and TBLSYNC flits. TRAIN, TIMESYNC, TIMESYNC_ECHO, LATPROBE,
LATPROBE_SEND and TBLSYNC (R319, R322, R323, R324, R326). `f` is the fabric once the flit is accepted. -/
def Obligations.PeerExchange : Prop :=
  ∀ (s : State) (f : Fab) (c now pay : Nat) (w : Flit), c < 16 → s.fab.active = true →
    (s.fab.rxCtl c now w 0x30 = (some pay, f) → f.lst c = 3 →
      let fec := natBits pay 26 1
      let lat := natBits pay 27 12
      let did := natBits pay 8 14
      let named := did = f.get (Reg.LINK_EXPECT_DID c)
      let cabled := named ∧ natBits pay 22 4 = f.get (Reg.LINK_EXPECT_PORT c)
      let good := fec = f.get (Reg.LINK_CTL_FEC c) ∧ lat = f.get (Reg.LINK_LAT_LAT c)
      Answers (.train c now w) s (fun g => SameData f g ∧ RegsBut [Reg.LINK_STAT c, Reg.LINK_PEER c, Reg.LINK_MEAS c] f g ∧
        (fec ≠ f.get (Reg.LINK_CTL_FEC c) → g.lst c = 7 ∧ g.get (Reg.LINK_STAT_CAUSE c) = 4) ∧
        (fec = f.get (Reg.LINK_CTL_FEC c) → lat ≠ f.get (Reg.LINK_LAT_LAT c) →
          g.lst c = 7 ∧ g.get (Reg.LINK_STAT_CAUSE c) = 5) ∧
        (good → (f.get (Reg.LINK_EXPECT_CHECK c) = 1 ∧ ¬ cabled) ∨ (did = f.mgmt.did ∧ ¬ named) →
          g.lst c = 7 ∧ g.get (Reg.LINK_STAT_CAUSE c) = 3) ∧
        (good → cabled ∨ f.get (Reg.LINK_EXPECT_CHECK c) = 0 → named ∨ did ≠ f.mgmt.did →
          g.get (Reg.LINK_PEER_DID c) = did ∧ g.get (Reg.LINK_PEER_PORT c) = natBits pay 22 4 ∧
          g.get (Reg.LINK_PEER_FEC c) = fec ∧ g.get (Reg.LINK_PEER_LAT c) = lat ∧ g.get (Reg.LINK_PEER_VALID c) = 1 ∧
          (g.lst c = if f.get Reg.LINK_TBCTL_PARENT = c then 4 else 5) ∧
          g.out = f.out ++ (if f.get Reg.LINK_TBCTL_PARENT = c then [.flit c (stampFlit 0x10 f.tbNow)] else [])))) ∧
    (s.fab.rxCtl c now w 0x10 = (some pay, f) → 3 ≤ f.lst c → f.lst c ≤ 6 →
      Becomes (.timesync c now w) s ((f.seenTb now).emit (.flit c (stampFlit 0x11 now)))) ∧
    (∀ rtt, s.fab.rxCtl c now w 0x11 = (some pay, f) → f.lst c = 4 → f.get Reg.LINK_TBCTL_PARENT = c →
      Answers (.timesyncEcho c now rtt w) s (fun g => g.tbNow = (natBits pay 64 64 + rtt / 2) % 2 ^ 64 ∧
        g.get Reg.LINK_TBCTL_VALID = 1 ∧ g.get Reg.LINK_TBCTL_HOLDOVER = 0 ∧ g.lst c = 5 ∧ SameData f g ∧
        RegsBut [Reg.LINK_TBCTL, Reg.LINK_STAT c, Reg.LINK_MEAS c] f g)) ∧
    (s.fab.rxCtl c now w 0x12 = (some pay, f) → f.lst c = 5 → natBits pay 64 64 ≤ now → now - natBits pay 64 64 < 2 ^ 16 →
      Answers (.latprobe c now w) s (fun g =>
        g.get (Reg.LINK_MEAS_MEAS c) = max (f.get (Reg.LINK_MEAS_MEAS c)) (now - natBits pay 64 64) ∧
        (g.port c).probes = min ((f.port c).probes + 1) 64 ∧ SameData f g ∧ RegsBut [Reg.LINK_MEAS c] f g)) ∧
    (s.fab.rxCtl c now w 0x12 = (some pay, f) → f.lst c = 6 → natBits pay 64 64 ≤ now → now - natBits pay 64 64 < 2 ^ 16 →
      let v := now - natBits pay 64 64
      let warns := f.get (Reg.LINK_LAT_LAT c) * 160 < (v + f.get (Reg.LINK_CTL_MARGIN c)) * f.portFreq c
      Answers (.latprobe c now w) s (fun g =>
        g.get (Reg.LINK_MEAS_MAX c) = max (f.get (Reg.LINK_MEAS_MAX c)) v ∧
        g.get (Reg.LINK_STAT_LATWARN c) = (if warns then 1 else f.get (Reg.LINK_STAT_LATWARN c)) ∧
        g.inbox = f.inbox ++ (if warns then (5, true, true) :: (match f.portPart c with
          | some p => [(49 + p, true, true)]
          | none => []) else []) ∧ SameData f g ∧ RegsBut [Reg.LINK_MEAS c, Reg.LINK_STAT c] f g)) ∧
    (s.fab.lst c = 5 ∨ s.fab.lst c = 6 →
      Becomes (.latprobeSend c now) s ((s.fab.seenTb now).emit (.flit c (stampFlit 0x12 now)))) ∧
    (s.fab.rxCtl c now w 0x13 = (some pay, f) → f.lst c = 6 →
      Becomes (.tblsync c now w) s (if natBits pay 16 13 = f.get (Reg.LINK_TBL_RXCNT c) then f
        else f.set (Reg.LINK_STAT_TBLERR c) 1))

/-- LOSS_OF_SIGNAL, LOSS_OF_FRAME_LOCK, EB_OVERFLOW and DOWN of a port that is not the parent port (R314, R319, R321), while no DMA
channel is at work (ChannelsOfALostPort says what becomes of one that is). -/
def Sys2Proof.Claims.PortGoesDown : Prop :=
  ∀ (s : State) (c now pay k : Nat) (w : Flit) (m : Instr), c < 16 → s.fab.active = true → s.fab.lst c = 6 →
    s.fab.get Reg.LINK_TBCTL_PARENT ≠ c → s.fab.DmaAtRest →
    ((m = .lossOfSignal c ∧ k = 7) ∨ (m = .lossOfFrameLock c ∧ k = 8 ∧ (s.fab.port c).lock = true ∧ (s.fab.port c).miss = 4) ∨
      (m = .ebOverflow c ∧ k = 10) ∨ (m = .down c now w ∧ k = 11 ∧ ∃ f, s.fab.rxCtl c now w 0x3F = (some pay, f))) →
    Answers m s (fun g => g.lst c = 7 ∧ g.get (Reg.LINK_STAT_CAUSE c) = k ∧ (g.port c).held = [] ∧
      (3, true, true) ∈ g.inbox ∧ (.flit c (downFlit k)) ∈ g.out ∧
      (∀ x, x < 16 → x ≠ c → g.lst x = s.fab.lst x) ∧
      (∀ p, p < 8 → s.fab.portPart c = some p → (33 + p, true, true) ∈ g.inbox ∧
        (s.fab.st p ≠ 0 → s.fab.st p ≠ 5 → g.st p = 5 ∧
          (g.get (Reg.SQ_STAT_HALTCAUSE p) = 3 ∨ g.get (Reg.SQ_STAT_HALTCAUSE p) = 2))) ∧
      (∀ p, p < 8 → s.fab.portPart c ≠ some p → g.st p = s.fab.st p))

/-- Loss of the parent port (R322). -/
def Sys2Proof.Claims.ParentPortLost : Prop :=
  ∀ (s : State) (c : Nat), c < 16 → s.fab.active = true → s.fab.lst c = 6 → s.fab.get Reg.LINK_TBCTL_PARENT = c → s.fab.DmaAtRest →
    Answers (.lossOfSignal c) s (fun g => g.get Reg.LINK_TBCTL_HOLDOVER = 1 ∧ g.get Reg.LINK_TBCTL_VALID = 0 ∧
      (∀ x, x < 16 → g.lst x ≠ 6) ∧
      ∀ p x, p < 8 → x < 16 → s.fab.portPart x = some p → g.st p = 0 ∨ g.st p = 5)

/-- A descriptor that waits for an ACK on a port that leaves ACTIVE fails (R410). -/
def Sys2Proof.Claims.ChannelsOfALostPort : Prop :=
  ∀ (f : Fab) (c k : Nat) (w : DmaWr) (t : List DmaWr), k < 32 → (f.ch k).stage = .run → (f.ch k).dstSp = 2 →
    (f.ch k).cport = c → (f.ch k).wOut = w :: t → (f.ch k).status < 3 →
    (∀ j, j < 32 → j ≠ k → (f.ch j).wOut = [] ∨ (f.ch j).dstSp ≠ 2 ∨ (f.ch j).cport ≠ c) →
    ∃ h : Fab, f.dmaPortLost c = h.dmaRun ∧ (h.ch k).status = 3 ∧ (h.ch k).ended = true ∧ (h.ch k).wOut = [] ∧
      (h.ch k).fl = [] ∧ h.get (Reg.DMA_CH_ERRADDR_ADDR k) = w.addr % 2 ^ 64 ∧ (∀ j, j ≠ k → h.ch j = f.ch j) ∧
      h.mem = f.mem ∧ h.out = f.out

/-- An active port that loses its signal, frame lock, elastic buffer or peer goes DOWN and halts its share. -/
def Obligations.PortLoss : Prop :=
  Sys2Proof.Claims.PortGoesDown ∧ Sys2Proof.Claims.ParentPortLost ∧ Sys2Proof.Claims.ChannelsOfALostPort

/-- FRAME_FLIT (R314). -/
def Sys2Proof.Claims.FrameLock : Prop :=
  ∀ (s : State) (c now : Nat) (w : Flit), c < 16 → s.fab.active = true → 2 ≤ s.fab.lst c → s.fab.lst c ≠ 7 →
    let r := rsDecode false (w ^^^ framePattern)
    (r.out = .clean → Answers (.frameFlit c now w) s (fun g => g.regs = s.fab.regs ∧ SameData s.fab g ∧
      (∀ x, x ≠ c → g.port x = s.fab.port x) ∧ (g.port c).hits = min ((s.fab.port c).hits + 1) 4 ∧ (g.port c).miss = 0 ∧
      (g.port c).map = BitVec.ofNat 128 (natBits r.word.toNat 32 128) ∧ (g.port c).mapBad = false ∧ (g.port c).pos = 1 ∧
      ((g.port c).lock = true ↔ (s.fab.port c).lock = true ∨ 3 ≤ (s.fab.port c).hits) ∧
      (g.port c).held = (s.fab.port c).held)) ∧
    (r.out = .corrected → Answers (.frameFlit c now w) s (fun g => RegsBut [Reg.LINK_ERRCNT c] s.fab g ∧ SameData s.fab g ∧
      (g.port c).hits = 0 ∧ (g.port c).miss = min ((s.fab.port c).miss + 1) 4 ∧ (g.port c).lock = (s.fab.port c).lock ∧
      (g.port c).map = BitVec.ofNat 128 (natBits r.word.toNat 32 128) ∧ (g.port c).mapBad = false ∧ (g.port c).pos = 1 ∧
      g.get (Reg.LINK_ERRCNT_CE c) = if s.fab.lst c = 6 then
        min (s.fab.get (Reg.LINK_ERRCNT_CE c) + 1) (2 ^ (Reg.LINK_ERRCNT_CE c).w - 1) else s.fab.get (Reg.LINK_ERRCNT_CE c))) ∧
    (r.out = .uncorrectable → s.fab.lst c ≠ 6 → Answers (.frameFlit c now w) s (fun g => g.regs = s.fab.regs ∧
      SameData s.fab g ∧ (g.port c).pos = 1 ∧ (g.port c).hits = 0 ∧ (g.port c).miss = min ((s.fab.port c).miss + 1) 4 ∧
      (g.port c).lock = (s.fab.port c).lock ∧ (g.port c).mapBad = (s.fab.port c).lock ∧ (g.port c).map = (s.fab.port c).map))

/-- IDLE, WAKE, BG_HDR, ACK and CREDIT (R316, R318, R553; log 33). `f` is the fabric once the control flit is accepted. -/
def Sys2Proof.Claims.BackgroundPackets : Prop :=
  ∀ (s : State) (f : Fab) (c now pay : Nat) (w : Flit), c < 16 → s.fab.active = true → s.fab.lst c = 6 → f.lst c = 6 →
    (s.fab.rxCtl c now w 0x00 = (some pay, f) → Becomes (.idleFlit c now w) s f) ∧
    (s.fab.rxCtl c now w 0x3E = (some pay, f) → Becomes (.wake c now w) s
      (f.set Reg.PWR_WAKE_STAT_LINK (f.get Reg.PWR_WAKE_STAT_LINK ||| 2 ^ c))) ∧
    (∀ (data : List Flit) (d : Fab), s.fab.rxCtl c now w 0x01 = (some pay, f) →
      d = data.foldl (fun g x => g.dataFlit c now x) f → data.length = natBits pay 8 8 → 1 ≤ data.length → data.length ≤ 16 →
      (natBits pay 16 12 ≠ (s.fab.port c).rxSeq →
        Becomes (.bgHdr c now w data) s (d.sendAck c (s.fab.port c).rxSeq true)) ∧
      (natBits pay 16 12 = (s.fab.port c).rxSeq → (∃ x, x ∈ data ∧ (rsDecode false x).out = .uncorrectable) →
        Becomes (.bgHdr c now w data) s (d.sendAck c (s.fab.port c).rxSeq true)) ∧
      (natBits pay 16 12 = (s.fab.port c).rxSeq → (∀ x, x ∈ data → (rsDecode false x).out ≠ .uncorrectable) →
        (d.bgWords c (natBits pay 32 40) data).wait = false →
        Becomes (.bgHdr c now w data) s
          ((((d.bgWords c (natBits pay 32 40) data).fab.updPort c (fun l =>
            { l with rxSeq := ((s.fab.port c).rxSeq + 1) % 4096 })).sendAck c (s.fab.port c).rxSeq false).sendCredit c 1))) ∧
    (s.fab.rxCtl c now w 0x02 = (some pay, f) → natBits pay 28 1 = 1 → ∀ i, (f.port c).resend < 7 →
      (f.port c).replay.findIdx? (fun k => k.seq == natBits pay 16 12) = some i →
      Answers (.ackFlit c now w) s (fun g => SameData f g ∧ RegsBut [Reg.LINK_ERRCNT c] f g ∧
        (g.port c).replay = (f.port c).replay ∧ (g.port c).resend = (f.port c).resend + 1 ∧
        g.out = f.out ++ (((f.port c).replay.drop i).map (fun k => k.flits.map (fun x => Output.flit c x))).flatten)) ∧
    (s.fab.rxCtl c now w 0x02 = (some pay, f) → natBits pay 28 1 = 1 → ∀ i, 7 ≤ (f.port c).resend →
      (f.port c).replay.findIdx? (fun k => k.seq == natBits pay 16 12) = some i →
      Answers (.ackFlit c now w) s (fun g => g.lst c = 7 ∧
        (f.get Reg.LINK_TBCTL_PARENT ≠ c → g.get (Reg.LINK_STAT_CAUSE c) = 9))) ∧
    (s.fab.rxCtl c now w 0x02 = (some pay, f) → natBits pay 28 1 = 0 → (f.port c).txq = [] → ∀ i,
      (f.port c).replay.findIdx? (fun k => k.seq == natBits pay 16 12) = some i →
      (∀ k, k < 32 → (f.ch k).wOut = [] ∨ (f.ch k).dstSp ≠ 2 ∨ (f.ch k).cport ≠ c) →
      Becomes (.ackFlit c now w) s (f.updPort c (fun l => { l with replay := l.replay.drop (i + 1), resend := 0 }))) ∧
    (s.fab.rxCtl c now w 0x03 = (some pay, f) → (f.port c).txq = [] →
      Becomes (.credit c now w) s (f.updPort c (fun l => { l with credits := min 32 (l.credits + natBits pay 8 8) })))

/-- Frame lock, and the background packets of an active port. -/
def Obligations.FrameAndBackground : Prop :=
  Sys2Proof.Claims.FrameLock ∧ Sys2Proof.Claims.BackgroundPackets

/-- Scheduled flits take the positions that the map marks, are held to their slot, written at their time, and read at theirs.
SCHEDULED_FLIT, FLIT_RELEASE and LINK_READ (R314, R327, R328). -/
def Obligations.ScheduledFlits : Prop :=
  ∀ (s : State) (c now p : Nat) (w : Flit), c < 16 → s.fab.active = true → s.fab.lst c = 6 → s.fab.portPart c = some p →
    s.fab.st p = 2 →
    (s.fab.nextPos c true = none → Becomes (.scheduledFlit c now w) s s.fab) ∧
    (∀ i, s.fab.nextPos c true = some i → (s.fab.port c).mapBad = false →
      ∀ f : Fab, f = s.fab.atPos c i → ∀ g : Fab,
      ((rsDecode false w).out = .clean ∧ g = f) ∨ ((rsDecode false w).out = .corrected ∧ g = f.stick (Reg.LINK_ERRCNT_CE c) 1) →
      ((s.fab.port c).rel ≤ (s.fab.port c).k → Becomes (.scheduledFlit c now w) s
        (g.updPort c (fun l => { l with k := l.k + 1, held := l.held ++ [(rsDecode false w).word] }))) ∧
      ((s.fab.port c).k < (s.fab.port c).rel → Becomes (.scheduledFlit c now w) s
        (g.updPort c (fun l => { l with k := l.k + 1 })))) ∧
    (s.fab.get (Reg.LINK_TBL_RXCNT c) ≠ 0 → s.fab.barrierMode p = false →
      ∀ ent cyc, ent = s.fab.slotEntry c true ((s.fab.port c).rel % s.fab.get (Reg.LINK_TBL_RXCNT c)) →
      cyc = (s.fab.share p).relFirst + (s.fab.port c).rel / s.fab.get (Reg.LINK_TBL_RXCNT c) + (if entNxt ent then 1 else 0) →
      cyc = s.fab.curDc p → now = (s.fab.share p).openB + entOff ent →
      (∀ h t, (s.fab.port c).held = h :: t → (rsDecode false h).out ≠ .uncorrectable →
        Becomes (.flitRelease c now) s ((s.fab.updPort c (fun l => { l with rel := l.rel + 1, held := t })).linkWrite p c ent now h)) ∧
      ((s.fab.port c).held = [] → ∀ f : Fab, f = s.fab.updPort c (fun l => { l with rel := l.rel + 1, held := [] }) →
        Becomes (.flitRelease c now) s
          (((f.set (Reg.LINK_STAT_LATE c) 1).stick (Reg.LINK_ERRCNT_LATE c) 1).failInterval p 3 (s.fab.curDc p) now))) ∧
    (∀ idx ent en off q, idx = (if (s.fab.port c).txDcn = s.fab.curDc p then (s.fab.port c).txIdx else 0) →
      idx < s.fab.get (Reg.LINK_TBL_TXCNT c) → ent = s.fab.slotEntry c false idx → now = (s.fab.share p).openB + entOff ent →
      en = entEng ent → off = entByte ent → en < 192 → off + 16 ≤ 0x1000 → s.fab.err = [] → (s.fab.engine en).portA = [] →
      s.fab.borrowed (arcBase en) = false → Store.get 0 s.fab.pbT en ≤ now → q = hops (en / 8) (portRouter c) →
      Answers (.linkRead c now) s (fun g => (g.port c).txDcn = s.fab.curDc p ∧ (g.port c).txIdx = idx + 1 ∧
        g.mem = s.fab.mem ∧ g.eng = s.fab.eng ∧ g.regs = s.fab.regs ∧ g.sh = s.fab.sh ∧
        Store.get 0 g.pbT en = now + 1 ∧
        ∃ u, g.puts.getLast? = some u ∧ u.tgt = 192 + c ∧ u.vis = now + 2 + 2 * q ∧
          u.data = BitVec.ofNat 256 (rsEncode (readN s.fab.mem (arcBase en + off) 16)).toNat))

/-- A host read answers the bytes, all ones where it is refused, and all ones and a fence record behind a fence.
HOST_MEMORY_READ through BAR 2 (R234, R354, R376); its wait for a bank counts in conflict counter 3 (log 98). -/
def Obligations.HostReads : Prop :=
  ∀ (s : State) (n o len : Nat), n < 4 → s.fab.pwr.perst.contains n = false → s.fab.live = true → s.fab.pwr.st ≠ 2 →
    s.fab.pwr.req = none → s.fab.inD3 n = false → s.fab.get Reg.DEV_BOOTSTAT_FAILED = 0 → 0 < len → o % 16 + len ≤ 16 → o < 0x0200000000 → inEcs o = false →
    (s.fab.refusal (s.fab.host n) o false = none → s.fab.fencedBy o false = none → s.fab.err = [] →
      ∀ b : Fab, b = s.fab.bankTurn (s.fab.host n) o → Answers (.hostMemoryRead n 2 o len) s (fun g =>
        g.out = s.fab.out ++ [.answer (2 + n) (readN s.fab.mem o len) len false] ∧ { g with out := s.fab.out } = b)) ∧
    (s.fab.refusal (s.fab.host n) o false = some 2 → s.fab.get Reg.MEM_ERRLOG_VALID = 0 →
      Answers (.hostMemoryRead n 2 o len) s (fun g =>
        g.out = s.fab.out ++ [.answer (2 + n) (ones len) len false] ∧ SameData s.fab g ∧
        g.get (Reg.HP_ERRCNT_REFUSED n) = min (s.fab.get (Reg.HP_ERRCNT_REFUSED n) + 1) (2 ^ (Reg.HP_ERRCNT_REFUSED n).w - 1) ∧
        g.get Reg.MEM_ERRLOG_VALID = 1 ∧ g.get Reg.MEM_ERRLOG_ADDR = o ∧ g.get Reg.MEM_ERRLOG_KIND = 2 ∧
        g.get Reg.MEM_ERRLOG_MASTER = 2 + n ∧
        RegsBut [(Reg.HP_ERRCNT_REFUSED n).addr, Reg.MEM_ERRLOG] s.fab g)) ∧
    (∀ p, s.fab.refusal (s.fab.host n) o false = none → s.fab.fencedBy o false = some p → s.fab.get (Reg.SQ_FENCE_VALID p) = 0 →
      Answers (.hostMemoryRead n 2 o len) s (fun g =>
        g.out = s.fab.out ++ [.answer (2 + n) (ones len) len false] ∧ SameData s.fab g ∧
        g.get (Reg.SQ_FENCE_VALID p) = 1 ∧ g.get (Reg.SQ_FENCE_ADDR p) = o ∧ g.get (Reg.SQ_FENCE_MASTER p) = 2 + n))

/-- A host write stores its bytes, is dropped where it is refused, and is counted where it is poisoned. HOST_MEMORY_WRITE (R234,
R371, R372, R376). -/
def Obligations.HostWrites : Prop :=
  ∀ (s : State) (n o now : Nat) (data : List (BitVec 8)), n < 4 → s.fab.pwr.perst.contains n = false → s.fab.live = true →
    s.fab.pwr.st ≠ 2 → s.fab.pwr.req = none → 0 < data.length →
    (∀ bar, o + data.length ≤ barSize bar → data.length ≤ 512 → Answers (.hostMemoryWrite n bar o data true now) s (fun g =>
      { g with pcfg := s.fab.pcfg } = s.fab.stick (Reg.HP_ERRCNT_EPRX n) 1 ∧
      g.cfgWord n 65 = s.fab.cfgWord n 65 ||| 0x1000 ∧ g.cfgWord n 30 = s.fab.cfgWord n 30 ||| 0x20000 ∧
      g.cfgWord n 1 = s.fab.cfgWord n 1 ||| 0x80000000 ∧
      ∀ m i, i < 1024 → m ≠ n ∨ (i ≠ 65 ∧ i ≠ 30 ∧ i ≠ 1) → g.cfgWord m i = s.fab.cfgWord m i)) ∧
    (∀ bar, bar ≠ 6 → o + data.length ≤ barSize bar → data.length ≤ 512 → s.fab.inD3 n = true →
      Becomes (.hostMemoryWrite n bar o data false now) s s.fab) ∧
    (s.fab.get Reg.DEV_BOOTSTAT_FAILED = 0 → s.fab.inD3 n = false → o % 16 + data.length ≤ 16 → o < 0x0200000000 → inEcs o = false →
      s.fab.err = [] → s.fab.fencedBy o true = none → ¬ (o < 0x0C000000 ∧ o % 0x100000 < 0x30000) →
      (s.fab.refusal (s.fab.host n) o true = none → Answers (.hostMemoryWrite n 2 o data false now) s (fun g =>
        (∀ i, i < data.length → byteAt g.mem (o + i) = data.getD i 0) ∧
        (∀ a, a < o ∨ o + data.length ≤ a → byteAt g.mem a = byteAt s.fab.mem a) ∧
        g.regs = (s.fab.bankTurn (s.fab.host n) o).regs ∧ g.sh = s.fab.sh ∧ g.out = s.fab.out)) ∧
      (s.fab.refusal (s.fab.host n) o true = some 2 → Answers (.hostMemoryWrite n 2 o data false now) s (fun g =>
        g.mem = s.fab.mem ∧ g.out = s.fab.out ∧ g.get (Reg.HP_ERRCNT_REFUSED n) =
          min (s.fab.get (Reg.HP_ERRCNT_REFUSED n) + 1) (2 ^ (Reg.HP_ERRCNT_REFUSED n).w - 1))))

/-- COMPLETER_ABORT, FUNCTION_LEVEL_RESET and PERST_N (R371, R373, R374). -/
def Sys2Proof.Claims.HostPortResets : Prop :=
  ∀ (s : State) (n : Nat), n < 4 → s.fab.live = true →
    (∀ rd, Becomes (.completerAbort n rd) s
      (if rd then (s.fab.stick (Reg.HP_ERRCNT_CA n) 1).emit (.abort n) else s.fab.stick (Reg.HP_ERRCNT_CA n) 1)) ∧
    Answers (.functionLevelReset n) s (fun g => g.get (Reg.HP_STAT_FLR n) = 1 ∧ g.get (Reg.HP_STAT_BME n) = 0 ∧
      (∀ a, Reg.MGMT_MBX_CTL n ≤ a → a < Reg.MGMT_MBX_CTL n + 0x1000 → g.reg a = regReset a) ∧
      (∀ x, x < 256 → g.msixMasked n x = true) ∧
      (∀ q, q ∈ g.mbx.queue → q.1 = n → q.2.2 = true) ∧
      (∀ k p, k < 32 → s.fab.chanPart k = some p → (s.fab.get (Reg.HP_BIND_PARTS n)).testBit p = true →
        g.get (Reg.DMA_CH_STAT_STATE k) = 2 ∧ g.get (Reg.DMA_CH_STAT_STATUS k) = 8) ∧
      (∀ i, i < 1024 → g.cfgWord n i = cfgInit i) ∧
      (s.fab.get (Reg.HP_BIND_PARTS n) = 0 → g.reg (Reg.DEV_FEAT_ACCEPT n) = 0) ∧
      g.sh = s.fab.sh ∧ g.mem = s.fab.mem ∧ g.eng = s.fab.eng ∧ (∀ x, x ∈ g.msixPend → x.1 ≠ n) ∧
      ∀ m i, m ≠ n → i < 1024 → g.cfgWord m i = s.fab.cfgWord m i) ∧
    (∀ speed width, speed ≤ 5 → width = 1 ∨ width = 2 ∨ width = 4 ∨ width = 8 → s.fab.pwr.st = 3 → s.fab.pwr.req = none →
      (s.fab.pwr.perst.contains n = true → 1 ≤ speed → Answers (.perstN n false speed width) s (fun g =>
        g.pwr.perst.contains n = false ∧ g.get (Reg.HP_STAT_LINKUP n) = 1 ∧ g.get (Reg.HP_STAT_SPEED n) = speed ∧
        g.get (Reg.HP_STAT_WIDTH n) = width ∧ g.mem = s.fab.mem ∧ g.eng = s.fab.eng ∧
        RegsBut [(Reg.HP_STAT_LINKUP n).addr] s.fab g)) ∧
      (s.fab.pwr.perst.contains n = false → Answers (.perstN n true speed width) s (fun g =>
        g.pwr.perst.contains n = true ∧ g.get (Reg.HP_STAT_LINKUP n) = 0 ∧ g.get (Reg.HP_STAT_BME n) = 0 ∧
        g.get (Reg.HP_STAT_FLR n) = 1 ∧ g.sh = s.fab.sh ∧ g.mem = s.fab.mem ∧ ∀ x, x ∈ g.msixPend → x.1 ≠ n)))

/-- FEAT_ACCEPT_WRITE (R379). -/
def Sys2Proof.Claims.Features : Prop :=
  ∀ (s : State) (m n : Nat) (v : Word), n < 4 → (m = 0 ∨ m = 1 ∨ m = 2 + n) → s.fab.live = true →
    (s.fab.get (Reg.HP_BIND_PARTS n) = 0 → Becomes (.featAcceptWrite m n v) s
      (s.fab.setReg (Reg.DEV_FEAT_ACCEPT n) (v &&& s.fab.reg Reg.DEV_FEAT_OFFER))) ∧
    (s.fab.get (Reg.HP_BIND_PARTS n) ≠ 0 → Answers (.featAcceptWrite m n v) s (fun g =>
      g.get (Reg.HP_STAT_FEATERR n) = 1 ∧ g.get (Reg.HP_STAT_FEATBIT n) = 127 ∧ g.get (Reg.HP_EVENT_FEAT n) = 1 ∧
      SameData s.fab g ∧ RegsBut [(Reg.HP_STAT_FEATERR n).addr, (Reg.HP_EVENT_FEAT n).addr] s.fab g))

/-- Function level reset, PERST_N, completer aborts, and feature acceptance of a host port. -/
def Obligations.HostPortResets : Prop :=
  Sys2Proof.Claims.HostPortResets ∧ Sys2Proof.Claims.Features

/-- DOORBELL (R385, R467) and the answer to a request (R386, R387; log 53). -/
def Sys2Proof.Claims.MailboxRequests : Prop :=
  (∀ (s : State) (n : Nat) (v : Word), n < 4 → s.fab.live = true → v.getLsbD 0 = true →
    (s.fab.get (Reg.MGMT_MBX_STAT_BUSY n) = 1 ∨ s.fab.get Reg.DEV_BOOTSTAT_FAILED = 1 → Becomes (.doorbell n v) s
      (s.fab.set (Reg.MGMT_MBX_CTL_IRQEN n) (fget v 1 1))) ∧
    (s.fab.get (Reg.MGMT_MBX_STAT_BUSY n) = 0 → s.fab.get Reg.DEV_BOOTSTAT_FAILED = 0 → s.fab.mbx.queue = [] → rqKnown (rqOp (s.fab.reqBuf n)) = true →
      Answers (.doorbell n v) s (fun g => g.get (Reg.MGMT_MBX_STAT_BUSY n) = 1 ∧
        g.mbx = { s.fab.mbx with queue := [(n, s.fab.reqBuf n, false)] } ∧ g.mem = s.fab.mem ∧
        RegsBut [(Reg.MGMT_MBX_STAT_BUSY n).addr, (Reg.MGMT_MBX_CTL_IRQEN n).addr] s.fab g))) ∧
  (∀ (f : Fab) (n r status part : Nat) (pay : List Nat) (t : List (Nat × Nat × Bool)), n < 4 → f.AtHead n r t →
    status < 256 → part < 256 → pay.length ≤ 1016 → (∀ b, b ∈ pay → b < 256) →
    let g := f.respond status part pay
    g.get (Reg.MGMT_MBX_STAT_BUSY n) = 0 ∧ g.get (Reg.MGMT_MBX_STAT_DONE n) = 1 ∧
    g.get (Reg.MGMT_MBX_STAT_SEQ n) = rqSeq r ∧ g.mbx.queue = t ∧ g.mbx.job = none ∧
    Store.get 0 g.mbx.rsp (128 * n) =
      w64 (rqOp r + rqSeq r * 2 ^ 8 + status * 2 ^ 16 + part * 2 ^ 24 + pay.length * 2 ^ 32) ∧
    (∀ i, i < pay.length →
      natBits (Store.get 0 g.mbx.rsp (128 * n + 1 + i / 8)).toNat (8 * (i % 8)) 8 = pay.getD i 0) ∧
    g.mem = f.mem ∧ g.eng = f.eng ∧ g.sh = f.sh)

/-- QUERY (R388). -/
def Sys2Proof.Claims.Query : Prop :=
  ∀ (s : State) (n r : Nat) (t : List (Nat × Nat × Bool)), n < 4 → s.fab.live = true → s.fab.AtHead n r t → rqOp r = 1 →
    (rqForm r 0 = true → Becomes (.query n) s
      (s.fab.respond 0 0 ((s.fab.bound n).map (fun p => toBytes (s.fab.reg (Reg.HP_PCFG p)).toNat 8)).flatten)) ∧
    (rqForm r 0 = false → Becomes (.query n) s (s.fab.respond 1 0 []))

/-- A doorbell queues a request, management firmware answers it, and QUERY lists the partitions of the port. -/
def Obligations.MailboxRequests : Prop :=
  Sys2Proof.Claims.MailboxRequests ∧ Sys2Proof.Claims.Query

/-- CREATE (R391; log 53): it waits while the vault is wiped (R262). -/
def Sys2Proof.Claims.Create : Prop :=
  ∀ (s : State) (n r p : Nat) (t : List (Nat × Nat × Bool)), n < 4 → s.fab.live = true → s.fab.AtHead n r t → rqOp r = 2 →
    (s.fab.crStatus n r ≠ 0 → Becomes (.create n) s (s.fab.respond (s.fab.crStatus n r) 0 [])) ∧
    (s.fab.crStatus n r = 0 → s.fab.get Reg.MEM_VAULT_WIPING = 1 → Becomes (.create n) s s.fab) ∧
    (s.fab.crStatus n r = 0 → s.fab.get Reg.MEM_VAULT_WIPING = 0 → p < 8 → s.fab.get (Reg.HP_PCFG_VALID p) = 0 →
      (∀ q, q < p → s.fab.get (Reg.HP_PCFG_VALID q) = 1) → crDx48 r = false →
      Answers (.create n) s (fun g => g.get (Reg.HP_PCFG_VALID p) = 1 ∧ g.get (Reg.HP_PCFG_PORT p) = n ∧
        g.get (Reg.HP_PCFG_DX48 p) = 0 ∧ g.get (Reg.HP_PCFG_CT p) = (if crCt r then 1 else 0) ∧
        g.get (Reg.HP_PCFG_FEAT p) = s.fab.get (Reg.DEV_FEAT_ACCEPT_ACCEPT n) % 2 ^ 13 ∧
        (g.get (Reg.HP_BIND_PARTS n)).testBit p = true ∧ g.get (Reg.HP_PDMA_CH p) = rqBits r 8 32 ∧
        (∀ b, b < 24 → g.get (Reg.MEM_OWNER_OWN b) = if b ∈ crBlocks r then p else s.fab.get (Reg.MEM_OWNER_OWN b)) ∧
        (∀ b, b < 24 → b ∈ crBlocks r → g.get (Reg.PWR_BLOCK_STATE b) = 3) ∧
        (∀ e, e < 192 → e / 8 ∈ crBlocks r → g.engine e = Engine.reset) ∧
        (∀ e, e < 192 → e / 8 ∉ crBlocks r → g.engine e = s.fab.engine e) ∧
        (∀ i, i < 3 → g.reg (Reg.HP_PACTIVE p i) = w64 (rqBits r (12 + 8 * i) 64)) ∧
        g.share p = Share.reset ∧ (∀ q, q ≠ p → g.share q = s.fab.share q) ∧
        (∀ a, Reg.SQ_CTL p ≤ a → a < Reg.SQ_CTL p + 0x1000 → g.reg a = regReset a) ∧ Store.get 0 g.keys p ≠ 0 ∧
        Store.get 0 g.mbx.rsp (128 * n) = w64 (2 + rqSeq r * 2 ^ 8 + p * 2 ^ 24) ∧ g.mbx.queue = t))

/-- DESTROY (R393): it waits while the vault is wiped (R262). -/
def Sys2Proof.Claims.Destroy : Prop :=
  ∀ (s : State) (n r p : Nat) (t : List (Nat × Nat × Bool)), n < 4 → s.fab.live = true → s.fab.AtHead n r t → rqOp r = 3 →
    rqForm r 1 = true → p = rqBits r 0 8 → p < 8 →
    (s.fab.accepted n 0 = false → Becomes (.destroy n) s (s.fab.respond 2 p [])) ∧
    (s.fab.accepted n 0 = true → s.fab.boundTo n p = false → Becomes (.destroy n) s (s.fab.respond 7 p [])) ∧
    (s.fab.accepted n 0 = true → s.fab.boundTo n p = true → s.fab.atRest p = false →
      Becomes (.destroy n) s (s.fab.respond 5 p [])) ∧
    (s.fab.accepted n 0 = true → s.fab.boundTo n p = true → s.fab.atRest p = true → s.fab.get Reg.MEM_VAULT_WIPING = 1 →
      Becomes (.destroy n) s s.fab) ∧
    (s.fab.accepted n 0 = true → s.fab.boundTo n p = true → s.fab.atRest p = true → s.fab.get Reg.MEM_VAULT_WIPING = 0 →
      (∃ u, u < 40 ∧ s.fab.unitPart u = some p) →
      Answers (.destroy n) s (fun g => (g.get (Reg.HP_BIND_PARTS n)).testBit p = false ∧
        (∀ u, u < 40 → g.get (Reg.MEM_OWNER_OWN u) = if s.fab.unitPart u = some p then 9 else s.fab.get (Reg.MEM_OWNER_OWN u)) ∧
        Store.get 0 g.keys p = 0 ∧ g.mbx.job.isSome = true ∧ g.mbx.queue = (n, r, false) :: t ∧
        (∀ k, k < 32 → (s.fab.get (Reg.HP_PDMA_CH p)).testBit k = true → g.get (Reg.DMA_CH_STAT_STATE k) = 2)))

/-- CREATE and DESTROY of a partition. -/
def Obligations.PartitionLife : Prop :=
  Sys2Proof.Claims.Create ∧ Sys2Proof.Claims.Destroy

/-- DDR_ADD and DDR_RELEASE (R389). -/
def Sys2Proof.Claims.DdrGranules : Prop :=
  ∀ (s : State) (n r p : Nat) (t : List (Nat × Nat × Bool)), n < 4 → s.fab.live = true → s.fab.AtHead n r t →
    ddrForm r = true → p = rqBits r 0 8 → s.fab.boundTo n p = true →
    (rqOp r = 4 → s.fab.accepted n 0 = false → Becomes (.ddrAdd n) s (s.fab.respond 2 p [])) ∧
    (rqOp r = 4 → s.fab.accepted n 0 = true → (∀ x, x ∈ rqGrans r → s.fab.get (Reg.MEM_DOWNER_OWN x) = 8 ∧ s.fab.swept x = true) →
      Answers (.ddrAdd n) s (fun g => (∀ x, x ∈ rqGrans r → g.get (Reg.MEM_DOWNER_OWN x) = p) ∧
        (∀ x, x < 2048 → x ∉ rqGrans r → g.get (Reg.MEM_DOWNER_OWN x) = s.fab.get (Reg.MEM_DOWNER_OWN x)) ∧
        Store.get 0 g.mbx.rsp (128 * n) = w64 (4 + rqSeq r * 2 ^ 8 + p * 2 ^ 24) ∧ g.mem = s.fab.mem)) ∧
    (rqOp r = 5 → s.fab.accepted n 0 = true → s.fab.atRest p = false → Becomes (.ddrRelease n) s (s.fab.respond 5 p [])) ∧
    (rqOp r = 5 → s.fab.accepted n 0 = true → s.fab.atRest p = true → s.fab.runs p = false →
      (∀ x, x ∈ rqGrans r → s.fab.granPart x = some p) →
      Answers (.ddrRelease n) s (fun g => (∀ x, x ∈ rqGrans r → g.get (Reg.MEM_DOWNER_OWN x) = 9) ∧
        g.get Reg.MEM_OWNSTAT_WIPING = 1 ∧ g.mbx.job = some ⟨none, (rqGrans r).map (fun x => (true, x))⟩ ∧
        g.mbx.queue = (n, r, false) :: t ∧ g.mem = s.fab.mem))

/-- DECLARE (R389). -/
def Sys2Proof.Claims.Declare : Prop :=
  ∀ (s : State) (n r p b w : Nat) (t : List (Nat × Nat × Bool)), n < 4 → s.fab.live = true → s.fab.AtHead n r t → rqOp r = 6 →
    rqForm r 24 = true → rqBits r 1 56 = 0 → p = rqBits r 0 8 → p < 8 → dcForm (dcRec r 0) = true →
    natBits (dcRec r 0) 0 8 = 0 → b = natBits (dcRec r 0) 8 8 → w = natBits (dcRec r 0) 16 8 → s.fab.accepted n 0 = true →
    s.fab.boundTo n p = true →
    (s.fab.atRest p = false → Becomes (.declare n) s (s.fab.respond 5 p [])) ∧
    (s.fab.atRest p = true → s.fab.unitPart b ≠ some p → Becomes (.declare n) s (s.fab.respond 3 p [])) ∧
    (s.fab.atRest p = true → s.fab.unitPart b = some p → Answers (.declare n) s (fun g =>
      g.reg (if w = 0 then Reg.SQ_JMEM0 b else Reg.SQ_JMEM b (w - 1)) = w64 (natBits (dcRec r 0) 32 32) ∧
      g.reg (if w = 0 then Reg.TEST_ELIG0 b else Reg.TEST_ELIG b (w - 1)) = w64 (natBits (dcRec r 0) 64 32) ∧
      Store.get 0 g.mbx.rsp (128 * n) = w64 (6 + rqSeq r * 2 ^ 8 + p * 2 ^ 24) ∧ g.mem = s.fab.mem ∧ g.sh = s.fab.sh))

/-- DDR_ADD, DDR_RELEASE and DECLARE requests of a partition. -/
def Obligations.GranulesAndState : Prop :=
  Sys2Proof.Claims.DdrGranules ∧ Sys2Proof.Claims.Declare

/-- Starting, disabling and quiescing DMA channels. DMA_START, DMA_DISABLE, DMA_CTL_DISABLE and DMA_QUIESCE (R407, R411, R412,
R418). A channel that starts issues the fetch of its first descriptor when its turn comes (R401). -/
def Obligations.DmaStartAndStop : Prop :=
  ∀ (s : State) (m k : Nat), k < 32 → m < 6 → s.fab.active = true →
    (s.fab.get Reg.DMA_CTL_DISABLE = 0 →
      (∀ p, s.fab.chanPart k = some p → m = 0 ∨ m = 2 + s.fab.portOf p) → (s.fab.chanPart k = none → m = 0) →
      (s.fab.get (Reg.DMA_CH_STAT_STATE k) = 0 ∨
        (s.fab.get (Reg.DMA_CH_STAT_STATE k) = 2 ∧ s.fab.get (Reg.DMA_CH_STAT_QUIESCE k) = 1)) →
      ∀ host a, host = s.fab.bit (Reg.DMA_CH_CFG_HEADSP k) → a = s.fab.get (Reg.DMA_CH_HEAD_ADDR k) * 64 →
      (1 ≤ s.fab.get (Reg.DMA_CH_CFG_BUDGET k) → (host = true → s.fab.chanBme k = true) →
        Answers (.dmaStart m k) s (fun g => ∃ h : Fab, g = h.dmaRun ∧
          h.get (Reg.DMA_CH_STAT_STATE k) = 1 ∧ h.get (Reg.DMA_CH_STAT_QUIESCE k) = 0 ∧ h.get (Reg.DMA_CH_STAT_DONE k) = 0 ∧
          h.get (Reg.DMA_CH_CUR_ADDR k) = a % 2 ^ 64 ∧
          h.ch k = { DmaCh.reset with stage := .want, curHost := host, fetched := 1 } ∧
          (∀ j, j ≠ k → h.ch j = s.fab.ch j) ∧ h.mem = s.fab.mem ∧ h.inbox = s.fab.inbox ∧ h.out = s.fab.out ∧
          (s.fab.DmaOthersIdle k → (g.ch k).stage = .fetch ∧ g.mem = s.fab.mem ∧
            g.out = s.fab.out ++ (if host then [.hostRead ((s.fab.chanPort k).getD 0) (a % 2 ^ 64) 64] else [])))) ∧
      (1 ≤ s.fab.get (Reg.DMA_CH_CFG_BUDGET k) → host = true → s.fab.chanBme k = false →
        Answers (.dmaStart m k) s (fun g => ∃ h : Fab, g = h.dmaRun ∧ h.get (Reg.DMA_CH_STAT_STATE k) = 2 ∧
          h.get (Reg.DMA_CH_STAT_STATUS k) = 6 ∧ h.inbox = s.fab.inbox ++ [(81 + k, true, true)] ∧ h.out = s.fab.out)) ∧
      (s.fab.get (Reg.DMA_CH_CFG_BUDGET k) = 0 →
        Answers (.dmaStart m k) s (fun g => ∃ h : Fab, g = h.dmaRun ∧ h.get (Reg.DMA_CH_STAT_STATE k) = 2 ∧
          h.get (Reg.DMA_CH_STAT_STATUS k) = 7 ∧ h.inbox = s.fab.inbox ++ [(81 + k, true, true)] ∧ h.out = s.fab.out))) ∧
    (s.fab.get Reg.DMA_CTL_DISABLE = 1 ∨ s.fab.get (Reg.DMA_CH_STAT_STATE k) = 1 ∨
      (s.fab.chanPart k = none ∧ m ≠ 0) →
      Becomes (.dmaStart m k) s (s.fab.set (Reg.DMA_CH_STAT_STARTERR k) 1)) ∧
    Answers (.dmaDisable k) s (fun g => g.get (Reg.DMA_CH_STAT_STATE k) = 2 ∧ g.get (Reg.DMA_CH_STAT_STATUS k) = 8 ∧
      (g.get (Reg.DMA_CH_STAT_QUIESCE k) = 0 ↔ (s.fab.ch k).busy = true ∨
        ((s.fab.ch k).stage = .none ∧ s.fab.get (Reg.DMA_CH_STAT_QUIESCE k) = 0)) ∧
      (g.ch k).stage = .none ∧ (∀ j, j ≠ k → g.ch j = s.fab.ch j) ∧ g.mem = s.fab.mem ∧ g.inbox = s.fab.inbox ∧
      g.out = s.fab.out ∧ RegsBut [(Reg.DMA_CH_STAT_STATE k).addr, (Reg.DMA_CH_COUNT_COUNT k).addr,
        (Reg.DMA_CH_ERRADDR_ADDR k).addr, Reg.DMA_STAT] s.fab g) ∧
    Becomes (.dmaCtlDisable false) s (s.fab.set Reg.DMA_CTL_DISABLE 0) ∧
    Answers (.dmaCtlDisable true) s (fun g => g.get Reg.DMA_CTL_DISABLE = 1 ∧ g.mem = s.fab.mem ∧ g.inbox = s.fab.inbox ∧
      g.out = s.fab.out ∧
      ∀ j, j < 32 → g.get (Reg.DMA_CH_STAT_STATE j) = 2 ∧ g.get (Reg.DMA_CH_STAT_STATUS j) = 8 ∧ (g.ch j).stage = .none) ∧
    (s.fab.get (Reg.DMA_CH_STAT_STATE k) = 2 → s.fab.get (Reg.DMA_CH_STAT_QUIESCE k) = 0 →
      (∀ l : Fab, l = s.fab.lateWrites (s.fab.chan k) (s.fab.ch k).wOut → Becomes (.dmaQuiesce k) s
        ((((l.set (Reg.DMA_CH_STAT_QUIESCE k) 1).updCh k (fun _ => DmaCh.reset)).dmaStat).dmaRun.mbxAdvance)) ∧
      ((s.fab.ch k).wOut = [] → s.fab.mbx.job = none → s.fab.DmaOthersIdle k → Answers (.dmaQuiesce k) s (fun g =>
        g.get (Reg.DMA_CH_STAT_QUIESCE k) = 1 ∧ g.ch k = DmaCh.reset ∧ (∀ j, j ≠ k → g.ch j = s.fab.ch j) ∧
        g.mem = s.fab.mem ∧ g.inbox = s.fab.inbox ∧ g.out = s.fab.out ∧
        RegsBut [(Reg.DMA_CH_STAT_STATE k).addr, Reg.DMA_STAT] s.fab g))) ∧
    (s.fab.get (Reg.DMA_CH_STAT_STATE k) ≠ 2 ∨ s.fab.get (Reg.DMA_CH_STAT_QUIESCE k) = 1 → s.fab.mbx.job = none →
      Becomes (.dmaQuiesce k) s s.fab)

/-- DESCRIPTOR_FETCH and DESCRIPTOR_COMPLETE (R406, R410, R411, R412; log 38). What the engines issue then is `dmaRun`. -/
def Sys2Proof.Claims.Descriptors : Prop :=
  ∀ (s : State) (k : Nat) (data : BitVec 512), k < 32 → s.fab.active = true →
    ((s.fab.ch k).stage = .fetch → (s.fab.ch k).curHost = true →
      Answers (.descriptorFetch k false data) s (fun g => g.get (Reg.DMA_CH_STAT_STATE k) = 2 ∧
        g.get (Reg.DMA_CH_STAT_STATUS k) = 6 ∧ g.inbox = s.fab.inbox ++ [(81 + k, true, true)] ∧ g.mem = s.fab.mem) ∧
      ∀ (x : DmaCh) (f : Fab), x = { DmaCh.reset with
          stage := .run, desc := data, fetched := (s.fab.ch k).fetched, curHost := true } →
        f = s.fab.updCh k (fun _ => x) →
        (f.descOk k = false → Answers (.descriptorFetch k true data) s (fun g =>
          g.get (Reg.DMA_CH_STAT_STATE k) = 2 ∧ g.get (Reg.DMA_CH_STAT_STATUS k) = 6 ∧ g.mem = s.fab.mem)) ∧
        (f.descOk k = true → 1 ≤ x.dlen → Answers (.descriptorFetch k true data) s (fun g => ∃ h : Fab, g = h.dmaRun ∧
          h.ch k = { x with ovl := x.overlap } ∧ (∀ j, j ≠ k → h.ch j = s.fab.ch j) ∧
          h.get (Reg.DMA_CH_COUNT_COUNT k) = x.dlen ∧ h.mem = s.fab.mem ∧ h.inbox = s.fab.inbox ∧ h.out = s.fab.out)) ∧
        (f.descOk k = true → x.dlen = 0 → Answers (.descriptorFetch k true data) s (fun g =>
          (g.ch k).desc = data ∧ (g.ch k).stage = .done ∧ g.get (Reg.DMA_CH_COUNT_COUNT k) = 0 ∧ g.mem = s.fab.mem))) ∧
    (∀ ok, (s.fab.ch k).stage = .fetch → (s.fab.ch k).curHost = false → ∀ r : Acc,
      r = s.fab.rdAny (s.fab.chan k) (s.fab.get (Reg.DMA_CH_CUR_ADDR k)) 64 false →
      (r.wait = true → Becomes (.descriptorFetch k ok data) s s.fab) ∧
      (r.wait = false → r.bad = true ∨ r.refused = true →
        Becomes (.descriptorFetch k ok data) s (r.fab.chHalt k 6 false))) ∧
    (∀ ok, (s.fab.ch k).stage = .done → (s.fab.ch k).wb = false → (s.fab.ch k).status < 16 →
      (s.fab.ch k).stop = true ∨ (s.fab.ch k).status ≠ 1 →
      Answers (.descriptorComplete k ok) s (fun g => ∃ h : Fab, g = h.dmaRun ∧ h.get (Reg.DMA_CH_STAT_STATE k) = 2 ∧
        h.get (Reg.DMA_CH_STAT_STATUS k) = (s.fab.ch k).status ∧ h.get (Reg.DMA_CH_STAT_QUIESCE k) = 1 ∧
        h.get (Reg.DMA_CH_STAT_DONE k) = (s.fab.get (Reg.DMA_CH_STAT_DONE k) + 1) % 2 ^ (Reg.DMA_CH_STAT_DONE k).w ∧
        h.inbox = s.fab.inbox ++ [(81 + k, true, true)] ∧ h.mem = s.fab.mem ∧ h.out = s.fab.out)) ∧
    (∀ ok, (s.fab.ch k).stage = .done → (s.fab.ch k).wb = false → (s.fab.ch k).status = 1 → (s.fab.ch k).stop = false →
      ((s.fab.ch k).nxtSp = true → s.fab.chanBme k = true) →
      ((s.fab.ch k).fetched < s.fab.get (Reg.DMA_CH_CFG_BUDGET k) →
        Answers (.descriptorComplete k ok) s (fun g => ∃ h : Fab, g = h.dmaRun ∧
          h.get (Reg.DMA_CH_CUR_ADDR k) = (s.fab.ch k).next ∧ (h.ch k).stage = .want ∧
          (h.ch k).curHost = (s.fab.ch k).nxtSp ∧ (h.ch k).fetched = (s.fab.ch k).fetched + 1 ∧
          h.get (Reg.DMA_CH_STAT_STATE k) = s.fab.get (Reg.DMA_CH_STAT_STATE k) ∧
          h.inbox = s.fab.inbox ++ (if (s.fab.ch k).irq then [(81 + k, true, true)] else []) ∧ h.mem = s.fab.mem)) ∧
      (s.fab.get (Reg.DMA_CH_CFG_BUDGET k) ≤ (s.fab.ch k).fetched →
        Answers (.descriptorComplete k ok) s (fun g => ∃ h : Fab, g = h.dmaRun ∧ h.get (Reg.DMA_CH_STAT_STATE k) = 2 ∧
          h.get (Reg.DMA_CH_STAT_STATUS k) = 7 ∧ h.inbox = s.fab.inbox ++ [(81 + k, true, true)] ∧ h.mem = s.fab.mem))) ∧
    ((s.fab.ch k).stage = .done → (s.fab.ch k).wb = true → (s.fab.ch k).curHost = true → s.fab.chanBme k = true →
      ∀ o, o = Output.hostWrite ((s.fab.chanPort k).getD 0) (s.fab.get (Reg.DMA_CH_CUR_ADDR k) + 32) 8
        ((s.fab.ch k).status + s.fab.get (Reg.DMA_CH_COUNT_COUNT k) * 2 ^ 32) →
      Answers (.descriptorComplete k false) s (fun g => g.get (Reg.DMA_CH_STAT_STATE k) = 2 ∧
        g.get (Reg.DMA_CH_STAT_STATUS k) = 3 ∧ g.out = s.fab.out ++ [o] ∧ g.mem = s.fab.mem) ∧
      ((s.fab.ch k).stop = true → (s.fab.ch k).status = 1 → Answers (.descriptorComplete k true) s (fun g => ∃ h : Fab,
        g = h.dmaRun ∧ h.get (Reg.DMA_CH_STAT_STATE k) = 2 ∧ h.get (Reg.DMA_CH_STAT_STATUS k) = 1 ∧ h.out = s.fab.out ++ [o] ∧
        h.mem = s.fab.mem)))

/-- DMA_READ_RESPONSE, DMA_WRITE_RESPONSE and DMA_TIMEOUT (R402, R408, R410, R413, R415, R417; log 38). -/
def Sys2Proof.Claims.DmaResponses : Prop :=
  ∀ (s : State) (k : Nat) (data : BitVec 2048), k < 32 → s.fab.active = true →
    ∀ x : DmaCh, x = s.fab.ch k →
    (∀ q t, x.stage = .run → x.rq = q :: t → 0 < q.len → q.len ≤ 256 → q.chunk < 1024 → x.ended = false →
      (x.srcSp = 1 → Answers (.dmaReadResponse k true data) s (fun g => ∃ h : Fab, g = h.dmaRun ∧
        h.ch k = { x with rq := t, fl := x.fl ++ [⟨q.chunk, 0, q.len⟩] } ∧ (∀ j, j ≠ k → h.ch j = s.fab.ch j) ∧
        (∀ i, i < q.len → byteAt h.mem (chunkAt q.chunk i) = BitVec.ofNat 8 (data.toNat / 2 ^ (8 * i))) ∧
        (∀ a, a < chunkAt q.chunk 0 ∨ chunkAt q.chunk 256 ≤ a → byteAt h.mem a = byteAt s.fab.mem a) ∧
        h.out = s.fab.out ∧ RegsBut [Reg.DMA_STAT] s.fab h)) ∧
      (x.srcSp = 1 → x.status < 2 → Answers (.dmaReadResponse k false data) s (fun g => ∃ h : Fab, g = h.dmaRun ∧
        (h.ch k).rq = t ∧ (h.ch k).fl = x.fl ∧ (h.ch k).status = 2 ∧ (h.ch k).ended = true ∧
        h.get (Reg.DMA_CH_ERRADDR_ADDR k) = (x.src + q.off) % 2 ^ 64 ∧ h.mem = s.fab.mem ∧ h.out = s.fab.out)) ∧
      (∀ ok, x.srcSp = 0 → ∀ r : Acc, r = s.fab.rdAny (s.fab.chan k) (x.src + q.off) q.len false →
        (r.wait = true → Becomes (.dmaReadResponse k ok data) s s.fab) ∧
        (r.wait = false → r.bad = false → r.refused = false → r.fab.dma = s.fab.dma →
          Answers (.dmaReadResponse k ok data) s (fun g => ∃ h : Fab, g = h.dmaRun ∧
            h.ch k = { x with rq := t, fl := x.fl ++ [⟨q.chunk, 0, q.len⟩] } ∧
            (∀ i, i < q.len → byteAt h.mem (chunkAt q.chunk i) = BitVec.ofNat 8 (r.data / 2 ^ (8 * i))) ∧
            (∀ a, a < chunkAt q.chunk 0 ∨ chunkAt q.chunk 256 ≤ a → byteAt h.mem a = byteAt r.fab.mem a))))) ∧
    (∀ ok w t, x.stage = .run → x.dstSp = 0 → x.wOut = w :: t → x.ovl = false → ∀ r : Acc,
      r = s.fab.wrAny (s.fab.chan k) w.addr w.len w.data 0 → ∀ g : Fab, g = r.fab.updCh k (fun y => { y with wOut := t }) →
      (r.wait = true → Becomes (.dmaWriteResponse k ok) s s.fab) ∧
      (r.wait = false → r.bad = false → r.refused = false →
        Becomes (.dmaWriteResponse k ok) s ((g.dmaStat).chSettle k).dmaRun) ∧
      (r.wait = false → r.bad = true ∨ r.refused = true →
        Becomes (.dmaWriteResponse k ok) s (((g.chWriteFail k w.addr 3).dmaStat).chSettle k).dmaRun)) ∧
    (x.stage = .flush →
      Becomes (.dmaWriteResponse k true) s (s.fab.updCh k (fun y => { y with stage := .done })) ∧
      (x.status < 3 → Answers (.dmaWriteResponse k false) s (fun g => (g.ch k).stage = .done ∧ (g.ch k).status = 3 ∧
        g.get (Reg.DMA_CH_ERRADDR_ADDR k) = (x.dst + x.wOff - 1) % 2 ^ 64 ∧ g.mem = s.fab.mem ∧ g.out = s.fab.out))) ∧
    (∀ wr, s.fab.chUnswept k wr = true → Becomes (.dmaTimeout ⟨k, wr⟩) s s.fab.dmaRun) ∧
    (s.fab.chUnswept k false = false → x.stage = .fetch → Answers (.dmaTimeout ⟨k, false⟩) s (fun g => ∃ h : Fab, g = h.dmaRun ∧
      h.get (Reg.DMA_CH_STAT_STATE k) = 2 ∧ h.get (Reg.DMA_CH_STAT_STATUS k) = 5 ∧
      h.inbox = s.fab.inbox ++ [(81 + k, true, true)] ∧ h.mem = s.fab.mem)) ∧
    (∀ q t, s.fab.chUnswept k false = false → x.stage = .run → x.rq = q :: t → x.status < 4 →
      Answers (.dmaTimeout ⟨k, false⟩) s (fun g => ∃ h : Fab, g = h.dmaRun ∧ (h.ch k).rq = t ∧ (h.ch k).status = 4 ∧
        (h.ch k).ended = true ∧ h.get (Reg.DMA_CH_ERRADDR_ADDR k) = (x.src + q.off) % 2 ^ 64 ∧ h.mem = s.fab.mem)) ∧
    (∀ w t, s.fab.chUnswept k true = false → x.stage = .run → x.wOut = w :: t → x.status < 4 → s.fab.err = [] →
      (x.dstSp = 0 → x.dst + x.dlen ≤ ddrBase) →
      Answers (.dmaTimeout ⟨k, true⟩) s (fun g => ∃ h : Fab, g = h.dmaRun ∧ (h.ch k).wOut = t ∧ (h.ch k).fl = [] ∧
        (h.ch k).status = 4 ∧ (h.ch k).ended = true ∧ h.get (Reg.DMA_CH_ERRADDR_ADDR k) = w.addr % 2 ^ 64 ∧
        (t = [] → x.rq = [] → x.dstSp ≠ 1 → (h.ch k).stage = .done) ∧
        ∀ a, x.dstSp ≠ 0 ∨ a < w.addr ∨ x.dst + x.dlen ≤ a → byteAt h.mem a = byteAt s.fab.mem a))

/-- What the two DMA engines issue (R401, R402, R408): the channels in turn, and one request of a channel. -/
def Sys2Proof.Claims.DmaTurns : Prop :=
  (∀ (last : Nat) (can : Nat → Bool), last < 32 →
    (turnOf last can = none ↔ ∀ k, k < 32 → can k = false) ∧
    ∀ k, turnOf last can = some k → k < 32 ∧ can k = true ∧
      ∀ i, i < (k + 31 - last) % 32 → can ((last + 1 + i) % 32) = false) ∧
  (∀ f : Fab, (∀ k, k < 32 → f.canRead k = false ∧ f.canWrite k = false) → f.dmaRun = f) ∧
  (∀ (f : Fab) (k : Nat), k < 32 → f.canRead k = true → ∀ x : DmaCh, x = f.ch k →
    (x.stage = .want → ((f.readTurn k).ch k).stage = .fetch ∧ (f.readTurn k).out = f.out ++
      (if x.curHost then [.hostRead ((f.chanPort k).getD 0) (f.get (Reg.DMA_CH_CUR_ADDR k)) 64] else [])) ∧
    (x.stage = .run → ∀ n, n = f.rdLen k →
      0 < n ∧ n ≤ x.dlen - x.off ∧ (x.beat0 + x.off) % 256 + n ≤ 256 ∧
      (f.readTurn k).get (Reg.DMA_CH_COUNT_COUNT k) = x.dlen - x.off - n ∧
      (x.srcSp = 1 → f.chanBme k = false → x.status < 2 → ((f.readTurn k).ch k).ended = true ∧
        ((f.readTurn k).ch k).status = 2 ∧ (f.readTurn k).out = f.out ∧
        (f.readTurn k).get (Reg.DMA_CH_ERRADDR_ADDR k) = (x.src + x.off) % 2 ^ 64) ∧
      ((x.srcSp = 1 → f.chanBme k = true) → ∃ c, c < 1024 ∧ c ∉ f.dmaUsed ∧ (∀ d, d < c → d ∈ f.dmaUsed) ∧
        ((f.readTurn k).ch k).off = x.off + n ∧
        (x.srcSp ≠ 2 → ((f.readTurn k).ch k).rq = x.rq ++ [⟨x.off, n, c⟩] ∧ (f.readTurn k).mem = f.mem ∧
          (f.readTurn k).out = f.out ++
            (if x.srcSp = 1 then [.hostRead ((f.chanPort k).getD 0) (x.src + x.off) n] else [])) ∧
        (x.srcSp = 2 → ((f.readTurn k).ch k).fl = x.fl ++ [⟨c, 0, n⟩] ∧ (f.readTurn k).out = f.out ∧
          ∀ i, i < n → byteAt (f.readTurn k).mem (chunkAt c i) =
            BitVec.ofNat 8 (x.src / 2 ^ (8 * ((x.off + i) % 8))))))) ∧
  (∀ (f : Fab) (k : Nat) (q : DmaFill) (t : List DmaFill), k < 32 → f.err = [] → ∀ x : DmaCh, x = f.ch k → x.stage = .run →
    x.fl = q :: t → x.ovl = false → q.chunk < 1024 → 0 < q.len → q.pos + q.len ≤ 256 → ∀ n a d, n = f.wrLen k →
    a = x.dst + x.wOff → d = readN f.mem (chunkAt q.chunk q.pos) n →
    n ≤ q.len ∧ a % 256 + n ≤ 256 ∧
    (x.dstSp = 0 → (f.writeTurn k).ch k = { x with
        wOff := x.wOff + n
        wOut := x.wOut ++ [⟨a, n, d, 0⟩]
        fl := if q.len ≤ n then t else ⟨q.chunk, q.pos + n, q.len - n⟩ :: t } ∧
      (f.writeTurn k).mem = f.mem ∧ (f.writeTurn k).out = f.out) ∧
    (x.dstSp = 1 → f.chanBme k = true → n ≤ f.chanMax k 5 ∧
      (f.writeTurn k).out = f.out ++ [.hostWrite ((f.chanPort k).getD 0) a n d] ∧
      ((f.writeTurn k).ch k).wOff = x.wOff + n ∧ ((f.writeTurn k).ch k).wOut = x.wOut ∧ (f.writeTurn k).mem = f.mem) ∧
    (x.dstSp = 1 → f.chanBme k = false → x.status < 3 → ((f.writeTurn k).ch k).status = 3 ∧
      ((f.writeTurn k).ch k).ended = true ∧ ((f.writeTurn k).ch k).fl = [] ∧ (f.writeTurn k).out = f.out ∧
      (f.writeTurn k).get (Reg.DMA_CH_ERRADDR_ADDR k) = a % 2 ^ 64))

/-- Descriptors are fetched, checked, carried out in turns, completed or time out. -/
def Obligations.DmaTransfers : Prop :=
  Sys2Proof.Claims.Descriptors ∧ Sys2Proof.Claims.DmaResponses ∧ Sys2Proof.Claims.DmaTurns

/-- An interrupt message changes the state of its source by the table of source states. ISC_MESSAGE (R423, R428, R430, R432;
standby log 42). -/
def Obligations.IscMessages : Prop :=
  ∀ (s : State) (k : Nat) (lvl ok : Bool) (t : List (Nat × Bool × Bool)), s.fab.inbox = (k, lvl, ok) :: t →
    (s.fab.pwr.st = 3 →
      (ok = false ∨ isSource k = false → s.fab.pwr.req = none → Answers .iscMessage s (fun g =>
        g.get Reg.ISC_STAT_DBERR = 1 ∧ g.get Reg.ISC_STAT_DBSRC = k % 256 ∧ g.inbox = t ∧
        { g with inbox := s.fab.inbox, regs := s.fab.regs } = s.fab ∧ RegsBut [Reg.ISC_STAT] s.fab g)) ∧
      (ok = true → isSource k = true → s.fab.get (Reg.ISC_SCFG_KIND k) = 0 → s.fab.get (Reg.ISC_SCFG_EN k) = 1 → lvl = true →
        Answers .iscMessage s (fun g =>
          g.get (Reg.ISC_SSTAT_COUNT k) = (if s.fab.get (Reg.ISC_SSTAT_STATE k) = 0 then 1
            else min (s.fab.get (Reg.ISC_SSTAT_COUNT k) + 1) 255) ∧
          g.get (Reg.ISC_SSTAT_STATE k) = (if 2 ≤ s.fab.get (Reg.ISC_SSTAT_STATE k) then s.fab.get (Reg.ISC_SSTAT_STATE k)
            else if s.fab.get (Reg.ISC_SCFG_CCOUNT k) ≤ g.get (Reg.ISC_SSTAT_COUNT k) then 2 else 1) ∧
          (s.fab.get (Reg.ISC_SSTAT_STATE k) ≠ 2 → ∀ x, x < 197 → g.toPresent k x = true → g.pres.contains (k, x) = true))) ∧
      (ok = true → isSource k = true → s.fab.get (Reg.ISC_SCFG_KIND k) = 1 → Answers .iscMessage s (fun g =>
        g.get (Reg.ISC_SSTAT_LEVEL k) = b2n lvl ∧
        g.get (Reg.ISC_SSTAT_STATE k) = (if s.fab.get (Reg.ISC_SCFG_EN k) = 0 then s.fab.get (Reg.ISC_SSTAT_STATE k)
          else if s.fab.get (Reg.ISC_SSTAT_STATE k) = 0 ∧ lvl = true then 2
          else if s.fab.get (Reg.ISC_SSTAT_STATE k) = 2 ∧ lvl = false then 0 else s.fab.get (Reg.ISC_SSTAT_STATE k)) ∧
        (g.get (Reg.ISC_SSTAT_STATE k) = 0 → s.fab.get (Reg.ISC_SSTAT_STATE k) = 2 →
          ∀ x, g.pres.contains (k, x) = false)))) ∧
    (s.fab.pwr.st < 3 →
      (∀ e, ok = true → s.fab.wakeEntry k = some e → Answers .iscMessage s (fun g =>
        (g.get Reg.ISC_WAKECTL_PEND).testBit e = true ∧ g.get Reg.PWR_WAKE_STAT_ISC = 1 ∧
        g.latched = s.fab.latched ++ [(k, lvl)] ∧ g.inbox = t ∧
        RegsBut [Reg.ISC_WAKECTL, Reg.PWR_WAKE_STAT_ISC.addr] s.fab g)) ∧
      (s.fab.wakeEntry k = none → Becomes .iscMessage s { s.fab with inbox := t }))

/-- ISC_CLAIM (R432, R433, R434). -/
def Sys2Proof.Claims.IscClaims : Prop :=
  ∀ (s : State), s.fab.active = true →
    (∀ t x k, t < 193 → s.fab.lowest t = some x → isSource x = true → Answers (.iscClaim t k) s (fun g =>
      Output.answer (16 + t) x 8 false ∈ g.out ∧ g.get (Reg.ISC_SSTAT_STATE x) = 3 ∧ g.get (Reg.ISC_SSTAT_CLAIMER x) = t ∧
      g.get (Reg.ISC_SSTAT_LASTCNT x) = s.fab.get (Reg.ISC_SSTAT_COUNT x) ∧ g.get (Reg.ISC_SSTAT_COUNT x) = 0 ∧
      g.istack t = x :: s.fab.istack t ∧ (∀ u, g.pres.contains (x, u) = false) ∧ g.get (Reg.ISC_TSTAT_WITHDRAWN t) = 0 ∧
      (∀ u, u < 193 → u ≠ t → s.fab.pres.contains (x, u) = true → g.get (Reg.ISC_TSTAT_WITHDRAWN u) = 1) ∧
      (∀ u, 193 ≤ u → s.fab.pres.contains (x, u) = true → g.get (Reg.ISC_SSTAT_HWD x) = 1))) ∧
    (∀ t k, t < 193 → s.fab.lowest t = none → Answers (.iscClaim t k) s (fun g =>
      g.out = s.fab.out ++ [.answer (16 + t) (if s.fab.get (Reg.ISC_TSTAT_WITHDRAWN t) = 1 then 255 else 0) 8 false] ∧
      g.get (Reg.ISC_TSTAT_WITHDRAWN t) = 0 ∧ OnlyRegs [Reg.ISC_TSTAT t] s.fab { g with out := s.fab.out })) ∧
    (∀ n k, n < 4 → isSource k = true → s.fab.ownsSource (s.fab.host n) k = true →
      (s.fab.pres.contains (k, 193 + n) = true → Answers (.iscClaim (193 + n) k) s (fun g =>
        Output.answer (209 + n) k 8 false ∈ g.out ∧ g.get (Reg.ISC_SSTAT_STATE k) = 3 ∧
        g.get (Reg.ISC_SSTAT_CLAIMER k) = 193 + n ∧ g.get (Reg.ISC_SSTAT_LASTCNT k) = s.fab.get (Reg.ISC_SSTAT_COUNT k) ∧
        g.get (Reg.ISC_SSTAT_COUNT k) = 0 ∧ (∀ u, g.pres.contains (k, u) = false) ∧ g.get (Reg.ISC_SSTAT_HWD k) = 0 ∧
        g.istk = s.fab.istk)) ∧
      (s.fab.pres.contains (k, 193 + n) = false → Answers (.iscClaim (193 + n) k) s (fun g =>
        g.out = s.fab.out ++ [.answer (209 + n) (if s.fab.get (Reg.ISC_SSTAT_HWD k) = 1 then 255 else 0) 8 false] ∧
        g.get (Reg.ISC_SSTAT_HWD k) = 0 ∧ OnlyRegs [Reg.ISC_SSTAT k] s.fab { g with out := s.fab.out })))

/-- ISC_COMPLETE and ISC_EOI (R435, R437; log 8). -/
def Sys2Proof.Claims.IscCompletions : Prop :=
  ∀ (s : State) (t k : Nat), s.fab.active = true → t < 197 →
    (k < 256 → (isSource k = false ∨ (t < 193 ∧ s.fab.get Reg.ISC_CTL_MAINT = 1) ∨ s.fab.get (Reg.ISC_SSTAT_STATE k) ≠ 3 ∨
        s.fab.get (Reg.ISC_SSTAT_CLAIMER k) ≠ t) → Answers (.iscComplete t k) s (fun g =>
      g.get Reg.ISC_STAT_CERR = 1 ∧ g.get Reg.ISC_STAT_CSRC = k ∧ g.get Reg.ISC_STAT_CTGT = t ∧
      OnlyRegs [Reg.ISC_STAT] s.fab g)) ∧
    (∀ c, (c = .iscComplete t k ∧ (t < 193 → s.fab.get Reg.ISC_CTL_MAINT = 0) ∧ s.fab.get (Reg.ISC_SSTAT_STATE k) = 3 ∧
          s.fab.get (Reg.ISC_SSTAT_CLAIMER k) = t) ∨
        (c = .iscEoi t ∧ t < 193 ∧ s.fab.get Reg.ISC_CTL_MAINT = 1 ∧ (s.fab.istack t).head? = some k) →
      isSource k = true → Answers c s (fun g =>
        (t < 193 → g.istack t = (s.fab.istack t).filter (· ≠ k)) ∧
        (s.fab.get (Reg.ISC_SCFG_KIND k) = 1 → g.get (Reg.ISC_SSTAT_STATE k) =
          if s.fab.get (Reg.ISC_SSTAT_LEVEL k) = 1 ∧ s.fab.get (Reg.ISC_SCFG_EN k) = 1 then 2 else 0) ∧
        (s.fab.get (Reg.ISC_SCFG_KIND k) = 0 → g.get (Reg.ISC_SSTAT_STATE k) =
          if s.fab.get (Reg.ISC_SSTAT_COUNT k) = 0 ∨ s.fab.get (Reg.ISC_SCFG_EN k) = 0 then 0
          else if s.fab.get (Reg.ISC_SCFG_CCOUNT k) ≤ s.fab.get (Reg.ISC_SSTAT_COUNT k) then 2 else 1) ∧
        (t < 193 → ∀ y, isSource y = true → g.toPresent y t = true → g.pres.contains (y, t) = true))) ∧
    (t < 193 → (s.fab.get Reg.ISC_CTL_MAINT = 0 ∨ s.fab.istack t = []) → Answers (.iscEoi t) s (fun g =>
      g.get Reg.ISC_STAT_CERR = 1 ∧ g.get Reg.ISC_STAT_CTGT = t ∧ OnlyRegs [Reg.ISC_STAT] s.fab g))

/-- Claims and completions of interrupts. -/
def Obligations.IscService : Prop :=
  Sys2Proof.Claims.IscClaims ∧ Sys2Proof.Claims.IscCompletions

/-- Source configuration, masks, maintenance mode, software requests and the coalescing timer. COALESCING_TIMER, ISC_SCFG_WRITE,
ISC_SMASK_WRITE, ISC_CTL_WRITE and ISC_SRAISE (R423, R426, R427, R428, R438). -/
def Obligations.IscControls : Prop :=
  ∀ (s : State) (m k : Nat) (v : Word), s.fab.active = true → m < 6 → isSource k = true →
    (s.fab.itim.contains k = true → s.fab.get (Reg.ISC_SSTAT_STATE k) = 1 → Answers (.coalescingTimer k) s (fun g =>
      g.get (Reg.ISC_SSTAT_STATE k) = 2 ∧ g.itim = s.fab.itim.filter (· ≠ k) ∧
      g.get (Reg.ISC_SSTAT_COUNT k) = s.fab.get (Reg.ISC_SSTAT_COUNT k) ∧
      ∀ x, x < 197 → g.toPresent k x = true → g.pres.contains (k, x) = true)) ∧
    (s.fab.ownsSource (s.fab.master m) k = false →
      Becomes (.iscScfgWrite m k v) s s.fab ∧ ∀ i, i < 4 → Becomes (.iscSmaskWrite m k i v) s s.fab) ∧
    (s.fab.ownsSource (s.fab.master m) k = true →
      Answers (.iscScfgWrite m k v) s (fun g =>
        g.get (Reg.ISC_SCFG_EN k) = (v.extractLsb' 0 1).toNat ∧
        g.get (Reg.ISC_SCFG_KIND k) = (if 113 ≤ k then (v.extractLsb' 1 1).toNat else s.fab.get (Reg.ISC_SCFG_KIND k)) ∧
        g.get (Reg.ISC_SCFG_CCOUNT k) = max 1 (v.extractLsb' 8 8).toNat ∧
        g.get (Reg.ISC_SCFG_CTIME k) = (v.extractLsb' 16 16).toNat ∧
        (v.getLsbD 0 = false → (s.fab.get (Reg.ISC_SCFG_EN k) = 1) →
          (s.fab.get (Reg.ISC_SSTAT_STATE k) = 1 ∨ s.fab.get (Reg.ISC_SSTAT_STATE k) = 2) →
          g.get (Reg.ISC_SSTAT_STATE k) = 0 ∧ g.get (Reg.ISC_SSTAT_COUNT k) = 0) ∧
        (g.get (Reg.ISC_SCFG_KIND k) = 1 → s.fab.get (Reg.ISC_SCFG_KIND k) = 1 → v.getLsbD 0 = true →
          s.fab.get (Reg.ISC_SCFG_EN k) = 0 → s.fab.get (Reg.ISC_SSTAT_STATE k) = 0 →
          s.fab.get (Reg.ISC_SSTAT_LEVEL k) = 1 → g.get (Reg.ISC_SSTAT_STATE k) = 2)) ∧
      ∀ i, i < 4 → Answers (.iscSmaskWrite m k i v) s (fun g => ∀ j, j < 64 →
        (g.reg (Reg.ISC_SMASK k i)).getLsbD j =
          (v.getLsbD j && decide (64 * i + j < 197) && s.fab.targetOf k (64 * i + j)))) ∧
    (m ≠ 0 → Becomes (.iscCtlWrite m v) s s.fab) ∧
    (s.fab.istk = [] → Answers (.iscCtlWrite 0 v) s (fun g =>
      g.get Reg.ISC_CTL_MAINT = (v.extractLsb' 0 1).toNat ∧ OnlyRegs [Reg.ISC_CTL] s.fab g)) ∧
    (s.fab.istk ≠ [] → (v.extractLsb' 0 1).toNat ≠ s.fab.get Reg.ISC_CTL_MAINT → Answers (.iscCtlWrite 0 v) s (fun g =>
      g.get Reg.ISC_STAT_MODEERR = 1 ∧ OnlyRegs [Reg.ISC_STAT] s.fab g)) ∧
    (∀ lvl, Becomes (.iscSraise m false k lvl) s { s.fab with inbox := s.fab.inbox ++
        [(k, lvl, m == 0 || (m ≠ 1 && s.fab.ownsSource (s.fab.master m) k && (List.range 8).any (fun p => softSourceOf p k)))] } ∧
      Becomes (.iscSraise 0 true k lvl) s { s.fab with inbox := s.fab.inbox ++ [(k, lvl, true)] } ∧
      (m ≠ 0 → Becomes (.iscSraise m true k lvl) s s.fab))

/-- External memory: temperature, parity alerts, retraining and refresh: REFRESH, DIMM_TEMPERATURE_READ, CA_PARITY_ALERT and
DDR_RETRAIN (R447, R452, R454; logs 4 and 43). -/
def Sys2Proof.Claims.DdrCommands : Prop :=
  ∀ (s : State) (n m : Nat) (t : BitVec 8) (hot : Bool) (ds : List Dimm) (words : List (DramAddr × BitVec 160)), n < 4 → m < 6 →
    s.fab.active = true → ds.length = 4 →
    Becomes (.refresh n) s s.fab ∧
    (s.fab.get (Reg.DDR_PSTAT_STATE n) ≠ 2 → Becomes (.dimmTemperatureRead n t hot) s s.fab) ∧
    (s.fab.get (Reg.DDR_PSTAT_STATE n) = 2 → Answers (.dimmTemperatureRead n t hot) s (fun g =>
      g.get (Reg.DDR_PSTAT_TEMP n) = t.toNat ∧
      (g.get (Reg.DDR_PSTAT_REFDBL n) = 1 ↔ hot = true ∨ 85 < t.toInt ∨ n ∈ s.fab.ref2x) ∧
      (95 < t.toInt → g.get (Reg.DDR_PSTAT_HOT n) = 1 ∧ g.inbox = s.fab.inbox ++ [(8, true, true)]) ∧
      (t.toInt ≤ 95 → g.inbox = s.fab.inbox) ∧
      OnlyRegs [Reg.DDR_PSTAT n] s.fab { g with inbox := s.fab.inbox })) ∧
    Becomes (.caParityAlert n false words) s (s.fab.stick (Reg.DDR_PERR_ALERTS n) 1) ∧
    (∀ f : Fab, f = (s.fab.stick (Reg.DDR_PERR_ALERTS n) 1).stick (Reg.DDR_PERR_DOUBLE n) 1 →
      Answers (.caParityAlert n true words) s (fun g => { g with err := s.fab.err, key := s.fab.key } =
          { f with err := s.fab.err, key := s.fab.key } ∧
        (∀ x w a, words = [(x, w)] → a = s.fab.dramAt n x → s.fab.dramOf (a - ddrBase) = x → a < ddrBase + s.fab.ddrBytes →
          s.fab.ddrPort (a - ddrBase) = n → (rsDecode true w).out = .uncorrectable → Store.get 0 g.err (a / 16) = w))) ∧
    (m ≠ 0 → Becomes (.ddrRetrain m ds) s s.fab) ∧
    (s.fab.ddrFree = false → Answers (.ddrRetrain 0 ds) s (fun g => g.get Reg.DDR_STAT_RTERR = 1 ∧
      OnlyRegs [Reg.DDR_STAT] s.fab g)) ∧
    (s.fab.ddrFree = true → Answers (.ddrRetrain 0 ds) s (fun g =>
      g.dimms = ds ∧ g.get Reg.DDR_STAT_TRAINED = 1 ∧ g.get Reg.DDR_SWEEP_WM = 0 ∧ g.get Reg.DDR_SWEEP_DONE = 0 ∧
      (g.get Reg.DDR_STAT_SET = 0 ∨ g.get Reg.DDR_STAT_SET = 1 ∨ g.get Reg.DDR_STAT_SET = 3 ∨ g.get Reg.DDR_STAT_SET = 15) ∧
      (∀ i, i < 4 → ((g.get Reg.DDR_STAT_SET).testBit i = true ↔ g.get (Reg.DDR_PSTAT_STATE i) = 2)) ∧
      (∀ i, i < 4 → (g.get Reg.DDR_STAT_SET).testBit i = true → s.fab.get (Reg.DDR_PCFG_EN i) = 1 ∧
        (ds.getD i ⟨1, 0, 0, false, 0, 0, 0⟩).cause = 0 ∧ dimmSame (ds.getD i ⟨1, 0, 0, false, 0, 0, 0⟩) (ds.getD 0 ⟨1, 0, 0, false, 0, 0, 0⟩) = true ∧
        ((ds.getD i ⟨1, 0, 0, false, 0, 0, 0⟩).x8 = true → s.fab.get (Reg.DDR_PCFG_ALLOWX8 i) = 1)) ∧
      (∀ i, i < 4 → (i ∈ g.ref2x ↔ s.fab.get (Reg.DDR_PCFG_REF2X i) = 1) ∧
        (g.get (Reg.DDR_PSTAT_REFDBL i) = 1 ↔ g.get (Reg.DDR_PSTAT_STATE i) = 2 ∧ i ∈ g.ref2x)) ∧
      { g with regs := s.fab.regs, dimms := s.fab.dimms, ref2x := s.fab.ref2x } = s.fab))

/-- The split of a port address into code word, column, bank group, bank, row, rank and chip ID, with bank group and bank hashed by
the row (R449), and the interleaving of the ports (R448): both ways round. -/
def Sys2Proof.Claims.DramPlaces : Prop :=
  (∀ nr rb cb a : Nat, a % 16 = 0 → a < 2 ^ (19 + nr + rb + cb) → dramJoin nr rb (dramSplit nr rb cb a) = a) ∧
  (∀ (nr rb cb : Nat) (d : DramAddr), d.word < 8 → d.col < 128 → d.bg < 8 → d.bank < 4 → d.row < 2 ^ nr → d.rank < 2 ^ rb →
    d.chip < 2 ^ cb → dramSplit nr rb cb (dramJoin nr rb d) = d ∧ dramJoin nr rb d % 16 = 0 ∧
      dramJoin nr rb d < 2 ^ (19 + nr + rb + cb)) ∧
  (∀ (f : Fab) (o : Nat), portOffset f.ddrPorts (f.ddrPort o) (portAddr f.ddrPorts o) = o) ∧
  ∀ (f : Fab) (n a : Nat), n < f.ddrPorts → f.ddrPort (portOffset f.ddrPorts n a) = n ∧
    portAddr f.ddrPorts (portOffset f.ddrPorts n a) = a

/-- External memory: its ports, and where a code word lies in the DRAMs. -/
def Obligations.DdrPorts : Prop :=
  Sys2Proof.Claims.DdrCommands ∧ Sys2Proof.Claims.DramPlaces

/-- MON_STATUS to MON_WRMEM: what is turned away (R538; logs 69 and 70). -/
def Sys2Proof.Claims.MonitorRequests : Prop :=
  (∀ (s : State) (src : MonSrc) (op r now : Nat) (port : Option Nat) (c : Instr), s.fab.MonAsks src op r port →
    (op, c) ∈ [(0x10, .monStatus src), (0x11, .monHalt src), (0x12, .monResume src now), (0x13, .monStep src now),
      (0x14, .monRdreg src), (0x15, .monWrreg src), (0x16, .monRdmem src), (0x17, .monWrmem src now)] →
    (monForm op r = false → Becomes c s (s.fab.monDone src op r 1 [])) ∧
    (monForm op r = true → op = 0x14 ∨ op = 0x15 →
      (s.fab.monReach port (monEng r) = false → Becomes c s (s.fab.monDone src op r 1 [])) ∧
      (s.fab.monReach port (monEng r) = true → (s.fab.engine (monEng r)).openToArea = false →
        Becomes c s (s.fab.monDone src op r 0xA [])))) ∧
  (∀ (s : State) (now op : Nat) (seq : BitVec 8) (pay : List (BitVec 8)) (c : Instr), s.fab.live = true →
    s.fab.fwUp = true → s.fab.get Reg.DBG_STAT_OPEN = 0 → pay.length ≤ 1016 →
    (op, c) ∈ [(0x10, .monStatus (.uart seq pay)), (0x11, .monHalt (.uart seq pay)), (0x12, .monResume (.uart seq pay) now),
      (0x13, .monStep (.uart seq pay) now), (0x14, .monRdreg (.uart seq pay)), (0x15, .monWrreg (.uart seq pay)),
      (0x16, .monRdmem (.uart seq pay)), (0x17, .monWrmem (.uart seq pay) now)] →
    Becomes c s (s.fab.emit (.uart (uartFrame (toBytes
      (op + seq.toNat * 2 ^ 8 + 9 * 2 ^ 16 + ((pay.map BitVec.toNat).getD 0 0) * 2 ^ 24) 8)))))

/-- MON_STATUS to MON_WRMEM: what is carried out (R538; log 69). -/
def Sys2Proof.Claims.MonitorEffects : Prop :=
  ∀ (s : State) (src : MonSrc) (op r now : Nat) (port : Option Nat), s.fab.MonAsks src op r port → monForm op r = true →
    (op = 0x10 → ∃ l : List Nat, l.length = 48 ∧ Becomes (.monStatus src) s (s.fab.monDone src op r 0 l) ∧
      ∀ e, e < 192 → (l.getD (e / 8) 0).testBit (e % 8) = (s.fab.monReach port e && (s.fab.engine e).halted) ∧
        (l.getD (24 + e / 8) 0).testBit (e % 8) = (s.fab.monReach port e && (List.range 8).any (fun p => s.fab.activeIn p e))) ∧
    (∀ l, l = (List.range 192).filter (fun e => (rqBits r 1 192).testBit e && s.fab.monReach port e) →
      (op = 0x11 → Becomes (.monHalt src) s ((l.foldl (fun g e => g.ehalt e) s.fab).monDone src op r 0 [])) ∧
      (op = 0x12 → Becomes (.monResume src now) s ((l.foldl (fun g e => g.eresume e now) s.fab).monDone src op r 0 [])) ∧
      (op = 0x13 → Becomes (.monStep src now) s ((l.foldl (fun g e => g.estep e now) s.fab).monDone src op r 0 []))) ∧
    (s.fab.monReach port (monEng r) = true → (s.fab.engine (monEng r)).openToArea = true →
      (op = 0x14 → (∀ i, i < monCount r → s.fab.refusal dbgPort (monRegAddr r i) false = none) →
        Becomes (.monRdreg src) s (s.fab.monDone src op r 0 ((List.range (monCount r)).map (fun i =>
          toBytes (s.fab.areaWord (monEng r) (monOff r + 8 * i)).toNat 8)).flatten)) ∧
      (op = 0x15 → Becomes (.monWrreg src) s (((List.range (monCount r)).foldl (fun g i =>
        (g.wrEcs dbgPort (monRegAddr r i) 8 (rqBits r (7 + 8 * i) 64)).fab) s.fab).monDone src op r 0 []))) ∧
    (∀ x, s.fab.monReads port (monAddr r) (rqBits r 8 8 == 1) (monLen r / 8) = some x → op = 0x16 →
      Becomes (.monRdmem src) s (x.1.monDone src op r 0 x.2.2)) ∧
    (∀ x, s.fab.monWrites port (monAddr r) now ((List.range (monLen r / 8)).map (fun i => rqBits r (8 + 8 * i) 64)) = some x →
      op = 0x17 → Becomes (.monWrmem src now) s (x.1.monDone src op r 0 []))

/-- The resident monitor answers STATUS, HALT, RESUME, STEP and accesses to engine registers and memory. -/
def Obligations.MonitorRequests : Prop :=
  Sys2Proof.Claims.MonitorRequests ∧ Sys2Proof.Claims.MonitorEffects

/-- Instructions of the test access port. EXTEST, SAMPLE_PRELOAD, IDCODE, CLAMP, HIGHZ and BYPASS (R540; log 71). -/
def Obligations.TestAccessPort : Prop :=
  ∀ (s : State) (n v pins : Nat) (code : BitVec 4),
    (∀ b : Bool, s.fab.pwr.porst = b →
      (b = true → Becomes (.extest pins n v) s
        ({ s.fab with tap := { s.fab.tap with ir := 0, drive := 1, boundary := v } }.emit (.tdo pins))) ∧
      (∀ x, (x = Instr.clamp n v ∧ s.fab.pwr.porst = true → Becomes x s
          ({ s.fab with tap := { s.fab.tap with ir := 3, drive := 1 } }.emit (.tdo (2 * v % 2 ^ n)))) ∧
        (x = Instr.highz n v ∧ s.fab.pwr.porst = true → Becomes x s
          ({ s.fab with tap := { s.fab.tap with ir := 4, drive := 2 } }.emit (.tdo (2 * v % 2 ^ n))))) ∧
      (b = false → ∀ x i, (x, i) ∈ [(Instr.extest pins n v, 0#4), (.clamp n v, 3#4), (.highz n v, 4#4)] → Becomes x s
        ({ s.fab with tap := { s.fab.tap with ir := i, drive := 0 } }.emit (.tdo (2 * v % 2 ^ n))))) ∧
    (5 ≤ code.toNat → Becomes (.tapBypass code n v) s
      ({ s.fab with tap := { s.fab.tap with ir := code, drive := 0 } }.emit (.tdo (2 * v % 2 ^ n)))) ∧
    Becomes (.samplePreload pins v) s
      ({ s.fab with tap := { s.fab.tap with ir := 1, drive := 0, boundary := v } }.emit (.tdo pins)) ∧
    Becomes .idcode s ({ s.fab with tap := { s.fab.tap with ir := 2, drive := 0 } }.emit (.tdo 0x2019256B))

/-- Halting, stepping and resuming an engine. EHALT, ENGINE_HALT, ESTEP and ERESUME (R530, R531, R534, R535). -/
def Obligations.EngineRunControl : Prop :=
  ∀ (s : State) (m e now : Nat), (m = 0 ∨ m = 1 ∧ s.fab.get Reg.DBG_STAT_OPEN = 1) → e < 192 → s.fab.active = true →
    ((s.fab.engine e).halted = true → Becomes (.ehalt m e) s s.fab) ∧
    ((s.fab.engine e).halted = false → ((s.fab.engine e).idle = false ∨ s.fab.lockHeld e = true) →
      Becomes (.ehalt m e) s (s.fab.updEng e (fun x => { x with haltReq := some (x.haltReq.getD 0) }))) ∧
    (∀ c d, (c = .ehalt m e ∧ (s.fab.engine e).idle = true ∧ d = 0) ∨ (c = .engineHalt e ∧ s.fab.engOn e = true ∧
          (s.fab.engine e).haltReq = some d ∧ (s.fab.engine e).trap = none ∧ (s.fab.engine e).phase ≠ .returning) →
        (s.fab.engine e).halted = false → s.fab.lockHeld e = false →
        Answers c s (fun g => (g.engine e).halted = true ∧ (g.engine e).haltReq = none ∧
          (g.engine e).get Ecs.DBGSTAT_HALTED = 1 ∧ (g.engine e).get Ecs.DBGSTAT_CAUSE = d % 4 ∧
          (g.engine e).get Ecs.DBGSTAT_BRK = d / 4 % 4 ∧ (g.engine e).get Ecs.DPC_PC = (s.fab.engine e).nextPc / 4 % 2 ^ 15 ∧
          (g.reg (Reg.DBG_EHALTED (e / 64))).getLsbD (e % 64) = true ∧ (∀ d, d ≠ e → g.engine d = s.fab.engine d) ∧
          RegsBut [Reg.DBG_EHALTED (e / 64)] s.fab g ∧ g.mem = s.fab.mem ∧ g.sh = s.fab.sh)) ∧
    ((s.fab.engine e).halted = false → Becomes (.estep m e now) s s.fab ∧ Becomes (.eresume m e now) s s.fab) ∧
    ((s.fab.engine e).halted = true → s.fab.lockHeld e = true → Becomes (.estep m e now) s s.fab) ∧
    (∀ c step, (c = .estep m e now ∧ step = true ∧ (s.fab.engine e).idle = false ∧ s.fab.lockHeld e = false) ∨
        (c = .eresume m e now ∧ step = false) → (s.fab.engine e).halted = true →
      Becomes c s (s.fab.restart e now step) ∧
      ((∀ p, s.fab.engPart e = some p → s.fab.st p ≠ 2 ∧ s.fab.st p ≠ 3) → ∀ g, g = s.fab.restart e now step →
        (g.engine e).halted = false ∧ (g.engine e).stepReq = step ∧ (g.engine e).get Ecs.DBGSTAT_HALTED = 0 ∧
        ((s.fab.engine e).phase = .running → (g.engine e).pc = (s.fab.engine e).get Ecs.DPC_PC * 4 ∧
          (g.engine e).issueAt = max ((s.fab.engine e).lastT + 1) now) ∧
        (g.reg (Reg.DBG_EHALTED (e / 64))).getLsbD (e % 64) = false ∧ (∀ d, d ≠ e → g.engine d = s.fab.engine d) ∧
        g.mem = s.fab.mem ∧ g.sh = s.fab.sh))

/-- REGISTER_WRITE (R8; log 66). -/
def Sys2Proof.Claims.RegisterWrites : Prop :=
  (∀ (s : State) (m a n now : Nat) (v : Word), m < 6 → 1 ≤ n → n ≤ 8 → s.fab.live = true → isRegAddr a = true →
    (regHole a = true ∨ regReach (s.fab.master m) a = false →
      Becomes (.registerWrite m a n v now) s (s.fab.errLog (s.fab.master m) a 0 0)) ∧
    (regHole a = false → regReach (s.fab.master m) a = true → (s.fab.pwr.st = 2 → unitAwake a = true) →
      (¬ (n = 8 ∧ a % 8 = 0 ∨ n = 4 ∧ a % 4 = 0) → Becomes (.registerWrite m a n v now) s s.fab) ∧
      ((n = 8 ∧ a % 8 = 0 ∨ n = 4 ∧ a % 4 = 0) → Becomes (.registerWrite m a n v now) s
        (s.fab.wrUnit (s.fab.master m) (regWr a n v.toNat) now)))) ∧
  (∀ (f : Fab) (r lo hi : Nat) (v : Word) (x : RegFam), famAt r = some x → lo < 64 →
    ((w64 x.rw).getLsbD lo = true → ((f.genWrite ⟨r, v, w64 (2 ^ 64 - 1)⟩).reg r).getLsbD lo = v.getLsbD lo) ∧
    ((w64 x.rw).getLsbD lo = false → (w64 x.lock).getLsbD lo = false → (w64 x.once).getLsbD lo = false →
      ((f.genWrite ⟨r, v, w64 (2 ^ 64 - 1)⟩).reg r).getLsbD lo =
        ((f.reg r).getLsbD lo && !((w64 x.w1c).getLsbD lo && v.getLsbD lo))) ∧
    (hi ≠ r → (f.genWrite ⟨r, v, w64 (2 ^ 64 - 1)⟩).reg hi = f.reg hi)) ∧
  (∀ (s : State) (e o now : Nat) (v : Word) (w : Word), s.fab.live = true → e < 192 → 0x8000 ≤ o → o < 0x10000 → o % 8 = 0 →
    s.fab.refusal damson (e * 0x100000 + 0xF0000 + o) true = none → (s.fab.engine e).openToArea = true →
    (s.fab.engine e).window o = some w → Becomes (.registerWrite 0 (e * 0x100000 + 0xF0000 + o) 8 v now) s
      (s.fab.setEng e ((s.fab.engine e).setWindow o v)))

/-- MDATA_ACCESS and debug accesses to memory (R541, R530; log 67). -/
def Sys2Proof.Claims.DebugAccesses : Prop :=
  (∀ (s : State) (m now : Nat) (v : Word) (r : Acc), (m = 0 ∨ m = 1 ∧ s.fab.get Reg.DBG_STAT_OPEN = 1) → s.fab.active = true →
    (r = s.fab.dbgRead (s.fab.get Reg.DBG_MADDR_ADDR * 8) (s.fab.bit Reg.DBG_MADDR_LIVE) 2 → r.wait = false →
      Becomes (.mdataAccess m none now) s ((r.fab.accErr r).emit (.answer m r.data 8 false))) ∧
    (r = s.fab.dbgWrite (s.fab.get Reg.DBG_MADDR_ADDR * 8) v now 2 →
      Becomes (.mdataAccess m (some v) now) s (r.fab.accErr r))) ∧
  (∀ (f : Fab) (a o : Nat) (v : Word) (live : Bool), f.live = true → a % 8 = 0 → o = a % 0x100000 → o < 0x30000 →
    a < 0x0C000000 → f.err = [] → f.refusal dbgPort a false = none → f.refusal dbgPort a true = none →
    f.fencedBy a false = none → f.fencedBy a true = none →
    f.dbgRead a live 2 = ⟨readN f.mem a 8, false, false, false, f⟩ ∧
    readN (f.dbgWrite a v 0 2).fab.mem a 8 = v.toNat) ∧
  (∀ (s : State) (m e now : Nat) (wr : Option Word), m < 6 → e < 192 → m ≠ 0 → (m = 1 → s.fab.get Reg.DBG_STAT_OPEN = 0) →
    s.fab.active = true →
    ∀ c, c ∈ [Instr.ehalt m e, .estep m e now, .eresume m e now, .mdataAccess m wr now] → Answers c s (fun g =>
      g.eng = s.fab.eng ∧ g.mem = s.fab.mem ∧ g.sh = s.fab.sh ∧ RegsBut [Reg.MEM_ERRLOG] s.fab g))

/-- Register writes by any master, and debug accesses to memory. -/
def Obligations.RegisterAndDebugAccess : Prop :=
  Sys2Proof.Claims.RegisterWrites ∧ Sys2Proof.Claims.DebugAccesses

/-- DXW_RESYNC, WDATA_READ, WDATA_WRITE, WCHAL_READ, WUNLOCK_WRITE (R521, R522, R523; log 64). -/
def Sys2Proof.Claims.DebugPackets : Prop :=
  ∀ (s : State) (v : Word) (crc : Bool), s.fab.pwr.st ≠ 0 →
    Becomes .dxwResync s s.fab ∧
    (∀ c, c ∈ [Instr.wdataRead, .wdataWrite v crc, .wchalRead, .wunlockWrite v crc, .chalnew v crc, .unlkPw v crc,
        .unlkTok v crc] →
      (s.fab.dxw.inProgress = true → Becomes c s (s.fab.emit (.dxw 3 0))) ∧
      (s.fab.dxw.inProgress = false → s.fab.mgmt.lc = 5 → Becomes c s (s.fab.emit (.dxw 12 0)))) ∧
    (s.fab.dxw.inProgress = false → s.fab.mgmt.lc ≠ 5 →
      (∀ c, c ∈ [Instr.wdataRead, .wdataWrite v crc] → s.fab.dxw.crcErr = false → s.fab.get Reg.DBG_STAT_OPEN = 0 →
        Becomes c s (({ s.fab with dxw := { s.fab.dxw with err := 4, errV := true } } : Fab).emit (.dxw 12 0))) ∧
      (s.fab.dxw.crcErr = true → Becomes .wchalRead s (s.fab.emit (.dxw 12 0)) ∧
        Becomes (.wunlockWrite v crc) s (s.fab.emit (.dxw 12 0)) ∧ Becomes .wdataRead s (s.fab.emit (.dxw 12 0))) ∧
      (s.fab.dxw.crcErr = false → s.fab.get Reg.DBG_STAT_OPEN = 1 →
        (∀ a x, s.fab.dxw.acc = some ⟨a, none, some x⟩ → Answers .wdataRead s (fun g =>
          g.out = s.fab.out ++ [.dxw 6 x] ∧ g.dxw.acc = none ∧ g.mem = s.fab.mem ∧ g.regs = s.fab.regs ∧
          g.dxw.waddr = if s.fab.dxw.inc then (s.fab.dxw.waddr + 8) % 2 ^ 40 else s.fab.dxw.waddr)) ∧
        ((∀ a x, s.fab.dxw.acc ≠ some ⟨a, none, some x⟩) → Answers .wdataRead s (fun g =>
          g.out = s.fab.out ++ [.dxw 3 0] ∧ g.dxw = { s.fab.dxw with acc := some ⟨s.fab.dxw.waddr, none, none⟩ } ∧
          g.mem = s.fab.mem ∧ g.regs = s.fab.regs)) ∧
        Answers (.wdataWrite v true) s (fun g => g.out = s.fab.out ++ [.dxw 6 0] ∧
          g.dxw.acc = some ⟨s.fab.dxw.waddr, some v, none⟩ ∧ g.mem = s.fab.mem ∧ g.regs = s.fab.regs ∧
          g.dxw.waddr = if s.fab.dxw.inc then (s.fab.dxw.waddr + 8) % 2 ^ 40 else s.fab.dxw.waddr)) ∧
      (s.fab.dxw.crcErr = false →
        Becomes .wchalRead s (({ s.fab with dxw := { s.fab.dxw with chalIdx := (s.fab.dxw.chalIdx + 1) % 4 } } : Fab).emit
          (.dxw 6 (s.fab.wireValue 4))) ∧
        (s.fab.dxw.buf.length + 8 ≤ 8192 → Becomes (.wunlockWrite v true) s
          (({ s.fab with dxw := { s.fab.dxw with buf := s.fab.dxw.buf ++ toBytes v.toNat 8 } } : Fab).emit (.dxw 6 0))) ∧
        Becomes (.wunlockWrite v false) s
          (({ s.fab with dxw := { s.fab.dxw with crcErr := true } } : Fab).emit (.dxw 6 0))))

/-- DEBUG_ACCESS_DONE (R523). -/
def Sys2Proof.Claims.DebugAccessDone : Prop :=
  ∀ (s : State) (a now : Nat) (v : Word) (late : Bool) (r : Acc),
    (s.fab.dxw.inProgress = false → Becomes (.debugAccessDone late now) s s.fab) ∧
    (s.fab.dxw.acc = some ⟨a, none, none⟩ → s.fab.live = true →
      r = s.fab.dbgRead a (s.fab.bit Reg.DBG_ACCESS_SIDEFX) 2 → r.wait = false → late = false →
      Answers (.debugAccessDone late now) s (fun g => g.dxw.acc = some ⟨a, none, some (w64 r.data)⟩ ∧
        g.dxw.inProgress = false ∧ g.mem = r.fab.mem ∧ g.regs = r.fab.regs ∧
        (r.refused = true → g.dxw.err = 1 ∧ g.dxw.errV = true) ∧
        (r.refused = false → r.bad = true → g.dxw.err = 2 ∧ g.dxw.errV = true) ∧
        (r.refused = false → r.bad = false → g.dxw.err = r.fab.dxw.err ∧ g.dxw.errV = r.fab.dxw.errV))) ∧
    (s.fab.dxw.acc = some ⟨a, some v, none⟩ → s.fab.live = true → r = s.fab.dbgWrite a v now 2 → r.wait = false →
      late = false →
      Answers (.debugAccessDone late now) s (fun g => g.dxw.acc = none ∧ g.mem = r.fab.mem ∧ g.regs = r.fab.regs ∧
        (r.refused = true → g.dxw.err = 1 ∧ g.dxw.errV = true))) ∧
    (s.fab.dxw.acc = some ⟨a, none, none⟩ → s.fab.live = true →
      r = s.fab.dbgRead a (s.fab.bit Reg.DBG_ACCESS_SIDEFX) 2 → r.wait = false →
      Answers (.debugAccessDone true now) s (fun g => g.dxw.err = 3 ∧ g.dxw.errV = true ∧
        g.dxw.acc = some ⟨a, none, some (BitVec.allOnes 64)⟩ ∧ g.mem = s.fab.mem ∧ g.regs = s.fab.regs)) ∧
    (s.fab.dxw.inProgress = true → s.fab.live = false → Answers (.debugAccessDone late now) s (fun g =>
      g.dxw.err = 3 ∧ g.dxw.errV = true ∧ g.dxw.inProgress = false ∧ g.mem = s.fab.mem ∧ g.regs = s.fab.regs))

/-- CHALNEW, UNLK_PW, UNLK_TOK and UNLOCK_CHECK_DONE (R526, R527, R528; log 65; free challenges log 2). -/
def Sys2Proof.Claims.Unlocking : Prop :=
  ∀ (s : State) (v : Word), s.fab.pwr.st ≠ 0 → s.fab.dxw.inProgress = false → s.fab.mgmt.lc ≠ 5 →
    (∀ c m, (c = .unlkPw v true ∧ m = 1 ∧ v.getLsbD 9 = false) ∨ (c = .unlkTok v true ∧ m = 2 ∧ v.getLsbD 8 = false) →
      v.getLsbD 12 = false → Answers c s (fun g => g.out = s.fab.out ++ [.dxw 6 0] ∧ g.mem = s.fab.mem ∧ g.regs = s.fab.regs ∧
        g.dxw.chal = s.fab.dxw.chal ∧ g.dxw.inc = v.getLsbD 1 ∧
        (s.fab.dxw.check = 0 ∧ s.fab.dxw.lockout = 0 →
          g.dxw.check = m ∧ g.dxw.held = s.fab.dxw.buf ∧ g.dxw.buf = []) ∧
        (s.fab.dxw.check ≠ 0 ∨ s.fab.dxw.lockout ≠ 0 → g.dxw.check = s.fab.dxw.check ∧ g.dxw.buf = s.fab.dxw.buf))) ∧
    (v.getLsbD 8 = false → v.getLsbD 9 = false → Answers (.chalnew v true) s (fun g =>
      g.dxw.chal = BitVec.ofNat 256 (Config.entropy s.fab.fresh) ∧ g.fresh = s.fab.fresh + 1 ∧ g.dxw.chalIdx = 0 ∧
      g.out = s.fab.out ++ [.dxw 6 0] ∧ g.mem = s.fab.mem ∧ g.regs = s.fab.regs)) ∧
    (s.fab.dxw.check = 0 → Becomes .unlockCheckDone s s.fab) ∧
    (∀ ok, ok = (if s.fab.dxw.check = 1 then s.fab.mgmt.passOk s.fab.dxw.held else s.fab.unlockTok s.fab.dxw.held) →
      s.fab.dxw.check ≠ 0 → Answers .unlockCheckDone s (fun g =>
        g.dxw.check = 0 ∧ g.dxw.held = [] ∧ g.dxw.fail = !ok ∧
        g.dxw.chal = BitVec.ofNat 256 (Config.entropy s.fab.fresh) ∧
        (ok = true → g.get Reg.DBG_STAT_OPEN = 1 ∧ g.get Reg.DBG_STAT_OPENED = 1 ∧
          g.get Reg.DBG_STAT_HOW = s.fab.dxw.check % 4 ∧ g.dxw.fails = 0 ∧ RegsBut [Reg.DBG_STAT] s.fab g) ∧
        (ok = false → g.dxw.fails = s.fab.dxw.fails + 1 ∧ g.dxw.lockout = min (2 ^ s.fab.dxw.fails) 1024 ∧
          g.regs = s.fab.regs))) ∧
    (s.fab.mgmt.passOk s.fab.dxw.held = true → s.fab.dxw.held.length = 16 ∧
      sha (s.fab.dxw.held ++ toBytes s.fab.mgmt.uid 16) = keyHash s.fab.mgmt.otp 128 0)

/-- Packets of the debug wire, its accesses, and unlocking. -/
def Obligations.DebugWire : Prop :=
  Sys2Proof.Claims.DebugPackets ∧ Sys2Proof.Claims.DebugAccessDone ∧ Sys2Proof.Claims.Unlocking

/-- DAMSON_INSTRUCTION and DAMSON_DIVIDE_COMPLETE: arithmetic, control registers and ICINV (R457, R459; logs 49, 60 to 63). -/
def Sys2Proof.Claims.DamsonArithmetic : Prop :=
  ∀ (s : State) (op : DamOp) (now rd ra rb : Nat), s.fab.DamReady op →
    (∀ fn imm, op = .alu fn rd ra rb imm → Answers (.damsonInstruction op now) s (fun g =>
      g.get Reg.DBG_DPC_PC = (s.fab.get Reg.DBG_DPC_PC + 4) % 2 ^ 32 ∧
      (rd ≠ 0 → g.gReg rd = BitVec.ofNat 32 (Config.damsonAlu fn (s.fab.gReg ra).toNat (imm.getD (s.fab.gReg rb)).toNat)) ∧
      RegsBut [Reg.DBG_DPC, if rd = 0 then Reg.DBG_DPC else Reg.DBG_DREG rd] s.fab g ∧ g.mem = s.fab.mem)) ∧
    (∀ sgn rlo rhi, op = .mul sgn rlo rhi ra rb → Answers (.damsonInstruction op now) s (fun g =>
      g.get Reg.DBG_DPC_PC = (s.fab.get Reg.DBG_DPC_PC + 4) % 2 ^ 32 ∧
      (∀ x : BitVec 64, x = (if sgn then BitVec.ofInt 64 ((s.fab.gReg ra).toInt * (s.fab.gReg rb).toInt)
          else BitVec.ofNat 64 ((s.fab.gReg ra).toNat * (s.fab.gReg rb).toNat)) →
        (rhi ≠ 0 → g.gReg rhi = x.extractLsb' 32 32) ∧ (rlo ≠ 0 → rlo ≠ rhi → g.gReg rlo = x.extractLsb' 0 32)) ∧
      (∀ x, x ≠ rlo → x ≠ rhi → x < 32 → g.gReg x = s.fab.gReg x) ∧ g.mem = s.fab.mem)) ∧
    (∀ sgn rem, op = .div sgn rem rd ra rb → Answers (.damsonInstruction op now) s (fun g =>
      g.dam = { s.fab.dam with div := some ⟨sgn, rem, s.fab.gReg ra, s.fab.gReg rb, rd⟩, skip := false, step := false } ∧
      g.get Reg.DBG_DPC_PC = (s.fab.get Reg.DBG_DPC_PC + 4) % 2 ^ 32 ∧ RegsBut [Reg.DBG_DPC] s.fab g ∧ g.mem = s.fab.mem)) ∧
    (∀ sgn rem x y, s.fab.dam.div = some ⟨sgn, rem, x, y, rd⟩ → rd < 32 → y ≠ 0 →
      ¬ (sgn = true ∧ x = 0x80000000 ∧ y = 0xFFFFFFFF) → Answers .damsonDivideComplete s (fun g => g.dam.div = none ∧
        (rd ≠ 0 → g.gReg rd = (if sgn then (if rem then x.srem y else x.sdiv y) else (if rem then x % y else x / y))) ∧
        RegsBut [if rd = 0 then Reg.DBG_DPC else Reg.DBG_DREG rd] s.fab g ∧ g.mem = s.fab.mem)) ∧
    (∀ c, op = .getCtl c rd → c < 8 → Answers (.damsonInstruction op now) s (fun g =>
      (rd ≠ 0 → g.gReg rd = s.fab.damCtl c) ∧ g.get Reg.DBG_DPC_PC = (s.fab.get Reg.DBG_DPC_PC + 4) % 2 ^ 32)) ∧
    (op = .setCtl 0 ra → Answers (.damsonInstruction op now) s (fun g => g.dam.srq = [(3, s.fab.gReg ra)] ∧
      g.get Reg.DBG_DSR_SR = s.fab.get Reg.DBG_DSR_SR ∧ g.get Reg.DBG_DPC_PC = (s.fab.get Reg.DBG_DPC_PC + 4) % 2 ^ 32)) ∧
    (∀ line, op = .icinv line → Answers (.damsonInstruction op now) s (fun g =>
      g.dam.lbuf = none ∧ (line = none → g.dam.icache = []) ∧ (∀ a, line = some a → g.dam.cached (a / 32) = none) ∧
      g.get Reg.DBG_DPC_PC = (s.fab.get Reg.DBG_DPC_PC + 4) % 2 ^ 32 ∧ RegsBut [Reg.DBG_DPC] s.fab g ∧ g.mem = s.fab.mem))

/-- DAMSON_INSTRUCTION: loads, stores and locked accesses (R457, R465; logs 60, 63 and 78), while no bank is lent to the memory
tester. -/
def Sys2Proof.Claims.DamsonMemory : Prop :=
  ∀ (s : State) (op : DamOp) (now a n rd : Nat) (sgn : Bool) (v : Nat), s.fab.DamReady op → s.fab.get Reg.TEST_STAT_ACTIVE = 0 →
    (op = .load a n sgn rd → 0x0300100000 ≤ a → a + n ≤ 0x0300200000 → s.fab.err = [] →
      s.fab.refusal damson a false = none → s.fab.refusal damson (a + n - 1) false = none → v = readN s.fab.mem a n →
      Answers (.damsonInstruction op now) s (fun g =>
        (rd ≠ 0 → g.gReg rd = if sgn then BitVec.ofInt 32 (BitVec.ofNat (8 * n) v).toInt else BitVec.ofNat 32 v) ∧
        g.get Reg.DBG_DPC_PC = (s.fab.get Reg.DBG_DPC_PC + 4) % 2 ^ 32 ∧ g.mem = s.fab.mem)) ∧
    (op = .store a n rd → 0x0300100000 ≤ a → a + n ≤ 0x0300200000 → s.fab.err = [] →
      s.fab.refusal damson a true = none → s.fab.refusal damson (a + n - 1) true = none →
      Answers (.damsonInstruction op now) s (fun g =>
        (∀ i, i < n → byteAt g.mem (a + i) = (s.fab.gReg rd).extractLsb' (8 * i) 8) ∧
        (∀ x, x < a ∨ a + n ≤ x → byteAt g.mem x = byteAt s.fab.mem x) ∧
        g.get Reg.DBG_DPC_PC = (s.fab.get Reg.DBG_DPC_PC + 4) % 2 ^ 32 ∧ RegsBut [Reg.DBG_DPC] s.fab g)) ∧
    (∀ lock, (op = .load a n sgn rd ∧ lock = false) ∨ (op = .lockLoad a n rd ∧ sgn = false ∧ lock = true) → damNear a n = false →
      (s.fab.taskMode = true → eitherEnd a n damPriv = false) → Answers (.damsonInstruction op now) s (fun g =>
        g.dam = { s.fab.dam with ld := some ⟨a, n, sgn, rd, lock⟩, lock := lock || s.fab.dam.lock } ∧
        { g with dam := s.fab.dam } = s.fab)) ∧
    (∀ ra, op = .lockStore a n ra rd → s.fab.dam.lock = false → Answers (.damsonInstruction op now) s (fun g =>
      (rd ≠ 0 → g.gReg rd = damReport false) ∧ g.mem = s.fab.mem ∧
      g.get Reg.DBG_DPC_PC = (s.fab.get Reg.DBG_DPC_PC + 4) % 2 ^ 32)) ∧
    (op = .store a n rd → s.fab.taskMode = false → damDevice a = true → s.fab.vaultWaits a = false →
      Answers (.damsonInstruction op now) s (fun g => g.mem = s.fab.mem ∧ RegsBut [Reg.DBG_DPC] s.fab g ∧
        g.get Reg.DBG_DPC_PC = (s.fab.get Reg.DBG_DPC_PC + 4) % 2 ^ 32))

/-- The Damson core's arithmetic, control register and memory instructions. -/
def Obligations.DamsonDataInstructions : Prop :=
  Sys2Proof.Claims.DamsonArithmetic ∧ Sys2Proof.Claims.DamsonMemory

/-- DAMSON_INSTRUCTION and DAMSON_INTERRUPT: control flow (R457, R458, R462, R463; logs 60 to 62). -/
def Sys2Proof.Claims.DamsonControlFlow : Prop :=
  ∀ (s : State) (op : DamOp) (now : Nat), s.fab.DamReady op →
    (∀ annul target, op = .branch true annul target → Answers (.damsonInstruction op now) s (fun g =>
      g.dam.slot = some target.toNat ∧ g.get Reg.DBG_DPC_PC = (s.fab.get Reg.DBG_DPC_PC + 4) % 2 ^ 32 ∧
      RegsBut [Reg.DBG_DPC] s.fab g ∧ g.mem = s.fab.mem)) ∧
    (∀ target, op = .branch false true target → Answers (.damsonInstruction op now) s (fun g => g.dam.slot = none ∧
      g.get Reg.DBG_DPC_PC = (s.fab.get Reg.DBG_DPC_PC + 8) % 2 ^ 32 ∧ RegsBut [Reg.DBG_DPC] s.fab g)) ∧
    (∀ f d, f = { s.fab with dam := { s.fab.dam with slot := some d } } → op = .icinv none →
      Answers (.damsonInstruction op now) { s with fab := f } (fun g => g.dam.slot = none ∧
        g.get Reg.DBG_DPC_PC = d % 2 ^ 32)) ∧
    (∀ code c, (c = .damsonInstruction op now ∧ ((op = .illegal ∧ code = 2) ∨ (op = .syscall ∧ code = 4) ∨
          (∃ a n sgn rd, op = .load a n sgn rd ∧ s.fab.taskMode = true ∧ damPriv a = true ∧ code = 3))) ∨
        (c = .damsonInterrupt false ∧ s.fab.damIe = true ∧ s.fab.get (Reg.ISC_TSTAT_PEND 192) = 1 ∧ code = 5) →
      Answers c s (fun g => g.dam.cause = code ∧ g.dam.esr = s.fab.dsr ∧ g.dsr = (s.fab.dsr &&& ~~~(3 : BitVec 32)) ∧
        g.get Reg.DBG_DPC_PC = (s.fab.dam.dvec.toNat + 16 * code) % 2 ^ 32 ∧
        (code ≠ 4 → g.dam.epc = s.fab.get Reg.DBG_DPC_PC) ∧
        (code = 4 → g.dam.epc = s.fab.get Reg.DBG_DPC_PC ∨ g.dam.epc = (s.fab.get Reg.DBG_DPC_PC + 4) % 2 ^ 32) ∧
        g.dam.div = none ∧ (∀ x, s.fab.dam.div = some x → s.fab.dam.pend = false → g.dam.saved = x ∧ g.dam.pend = true) ∧
        RegsBut [Reg.DBG_DPC, Reg.DBG_DSR] s.fab g ∧ g.mem = s.fab.mem)) ∧
    (op = .rfe → Answers (.damsonInstruction op now) s (fun g => g.dsr = s.fab.dam.esr ∧
      g.get Reg.DBG_DPC_PC = s.fab.dam.epc % 2 ^ 32 ∧ g.dam.pend = false ∧
      (s.fab.dam.pend = true → g.dam.div = some s.fab.dam.saved) ∧ RegsBut [Reg.DBG_DPC, Reg.DBG_DSR] s.fab g ∧
      g.mem = s.fab.mem))

/-- How the Damson core gets an instruction at its PC (R458, R459, R539; log 49): from the line buffer, from the cache, or from
memory, with the breakpoints that matched as the line was filled. -/
def Sys2Proof.Claims.DamsonFetch : Prop :=
  (∀ (f : Fab) (a l : Nat), a = 0x0300000000 + f.dpc → l = a / 32 → damCached a = true →
    (∀ x, f.dam.lbuf = some x → x.line = l → f.damFetch = ⟨false, false, x.brk.getLsbD (a / 4 % 8), f⟩) ∧
    ((∀ x, f.dam.lbuf = some x → x.line ≠ l) →
      (∀ x, f.dam.cached l = some x →
        f.damFetch = ⟨false, false, x.brk.getLsbD (a / 4 % 8), f.updDam (fun d => { d with lbuf := some x })⟩) ∧
      (f.dam.cached l = none → ∀ x g, f.damLineOf l = (x, none, g) →
        f.damFetch.bad = false ∧ f.damFetch.wait = false ∧ f.damFetch.brk = x.brk.getLsbD (a / 4 % 8) ∧
        f.damFetch.fab.dam.lbuf = some x ∧ f.damFetch.fab.mem = g.mem) ∧
      (f.dam.cached l = none → ∀ x b g, f.damLineOf l = (x, some b, g) →
        f.damFetch = ⟨b / 16 == a / 16, false, x.brk.getLsbD (a / 4 % 8), g⟩))) ∧
  (∀ (f : Fab) (l i : Nat), i < 8 → (f.damLineOf l).1.line = l ∧
    (∀ r o u, patchPlace (32 * l + 4 * i) = some (r, o) → f.patchAt 1 r o = some u →
      ((f.damLineOf l).1.data.toNat / 2 ^ (32 * i)) % 2 ^ 32 = f.get (Reg.PATCH_V_VALUE u)) ∧
    ((f.damLineOf l).1.brk.getLsbD i = true ↔
      ∃ r o u, patchPlace (32 * l + 4 * i) = some (r, o) ∧ f.patchAt 2 r o = some u)) ∧
  ∀ (s : State) (op : DamOp) (now a : Nat), s.fab.live = true → s.fab.dam.started = true → s.fab.dam.ld = none →
    s.fab.get Reg.DBG_DSTAT_HALTED = 0 → s.fab.dhalt = false → damWf op = true → a = 0x0300000000 + s.fab.dpc →
    damCached a = true →
    (op ≠ .noFetch → s.fab.damFetch.brk = true → s.fab.get Reg.DBG_STAT_OPEN = 1 → s.fab.dam.skip = false →
      s.fab.dam.slot = none → Becomes (.damsonInstruction op now) s (s.fab.damFetch.fab.damStop.set Reg.DBG_DSTAT_PBRK 1)) ∧
    (op ≠ .noFetch → s.fab.damFetch.brk = false → s.fab.damFetch.bad = true →
      Becomes (.damsonInstruction op now) s (s.fab.damFetch.fab.damExc 1)) ∧
    (op = .noFetch → inFlashWin a = true → (∀ x, s.fab.dam.lbuf = some x → x.line ≠ a / 32) → s.fab.dam.cached (a / 32) = none →
      Becomes (.damsonInstruction op now) s (s.fab.damExc 1)) ∧
    (op ≠ .noFetch → s.fab.damFetch.brk = false → s.fab.damFetch.bad = false → s.fab.damFetch.fab.damHeld op = false →
      Becomes (.damsonInstruction op now) s (s.fab.damFetch.fab.damOp op now))

/-- DAMSON_LOAD_RESPONSE, DAMSON_BUS_TIMEOUT, DAMSON_HALT, DAMSON_RESUME and DAMSON_STEP (R457, R462, R537). -/
def Sys2Proof.Claims.DamsonWaitsAndHalts : Prop :=
  ∀ (s : State) (m : Nat) (late : Bool), s.fab.active = true →
    (∀ x r, s.fab.dam.ld = some x → r = s.fab.damRead x.a x.n → r.wait = false → s.fab.vaultWaits x.a = false →
      (r.bad = false → Becomes (.damsonLoadResponse false) s
        ((r.fab.updDam (fun d => { d with ld := none })).setG x.rd (damExtend r.data x.n x.sgn)).damDone) ∧
      (r.bad = true → Becomes (.damsonLoadResponse false) s (r.fab.damExc 1)) ∧
      (inFlashWin x.a = true → Becomes (.damsonLoadResponse true) s (s.fab.damExc 1))) ∧
    (∀ x, s.fab.dam.ld = some x → s.fab.unswept x.a = false → s.fab.dam.slot = none → Answers .damsonBusTimeout s (fun g =>
      g.dam.ld = none ∧ g.dam.cause = 1 ∧ g.dam.epc = s.fab.get Reg.DBG_DPC_PC ∧
      g.get Reg.DBG_DPC_PC = (s.fab.dam.dvec.toNat + 16) % 2 ^ 32 ∧ g.mem = s.fab.mem)) ∧
    (s.fab.dam.ld = none → Becomes (.damsonLoadResponse late) s s.fab ∧ Becomes .damsonBusTimeout s s.fab) ∧
    (m = 1 → s.fab.get Reg.DBG_STAT_OPEN = 1 →
      (s.fab.dam.started = true → s.fab.get Reg.DBG_DSTAT_HALTED = 0 → s.fab.dam.slot = none → s.fab.dam.ld = none →
        s.fab.dam.lock = false → Answers (.damsonHalt m late) s (fun g => g.get Reg.DBG_DSTAT_HALTED = 1 ∧ g.dhalt = false ∧
          RegsBut [Reg.DBG_DSTAT] s.fab g ∧ g.mem = s.fab.mem)) ∧
      (s.fab.dam.started = true → s.fab.get Reg.DBG_DSTAT_HALTED = 0 → s.fab.dam.lock = true → s.fab.dhalt = false →
        Becomes (.damsonHalt m late) s { s.fab with dhalt := true }) ∧
      (s.fab.get Reg.DBG_DSTAT_HALTED = 1 → s.fab.mbx.queue = [] → s.fab.mbx.job = none → Answers (.damsonResume m) s (fun g =>
        g.get Reg.DBG_DSTAT_HALTED = 0 ∧ g.get Reg.DBG_DSTAT_PBRK = 0 ∧
        g.get Reg.DEV_WDOG_COUNT = s.fab.get Reg.DEV_WDOG_PERIOD ∧ g.get Reg.DEV_WDOG_STAGE = 0)) ∧
      (s.fab.get Reg.DBG_DSTAT_HALTED = 1 → Becomes (.damsonStep m) s
        { s.fab with dam := { s.fab.dam with step := true, skip := true } }) ∧
      (s.fab.get Reg.DBG_DSTAT_HALTED = 0 → Becomes (.damsonStep m) s s.fab ∧ Becomes (.damsonResume m) s s.fab)) ∧
    (m = 0 → Becomes (.damsonHalt m late) s s.fab ∧ Becomes (.damsonResume m) s s.fab ∧ Becomes (.damsonStep m) s s.fab)

/-- The Damson core's fetches, branches, exceptions, interrupts, waits, and its halt, resume and step. -/
def Obligations.DamsonControl : Prop :=
  Sys2Proof.Claims.DamsonFetch ∧ Sys2Proof.Claims.DamsonControlFlow ∧ Sys2Proof.Claims.DamsonWaitsAndHalts

/-- START_UP (R466, R467; logs 23 and 55). -/
def Sys2Proof.Claims.StartUp : Prop :=
  (∀ (s : State) (b : Boot), bootWf b = true → s.fab.get Reg.DEV_BOOTSTAT_FAILED = 0 → s.fab.pwr.rails = 0 →
    s.fab.pwr.st ≠ 1 →
    (s.fab.get Reg.DEV_BOOTSTAT_STEP = 5 → Becomes (.startUp b) s (s.fab.bootCore b [])) ∧
    (s.fab.get Reg.DEV_BOOTSTAT_STEP = 0 →
      (b.hot = true → Answers (.startUp b) s (fun g => g.pwr.trip = true ∧ g.pwr.thermN = true ∧
        g.get Reg.DEV_BOOTSTAT_STEP = 2)) ∧
      (b.hot = false → b.rails = false → Answers (.startUp b) s (fun g => g.pwr.st = 0 ∧ g.pwr.rails = 1 ∧
        g.pwr.porst = false ∧ g.get Reg.DEV_BOOTSTAT_STEP = 2 ∧ g.get Reg.DBG_STAT_OPEN =
          (if s.fab.mgmt.lc = 3 ∨ s.fab.mgmt.lc = 5 then 0 else 1))) ∧
      (b.hot = false → b.rails = true → (∃ k, k < 16 ∧ (trimWord s.fab.mgmt.otp k).val = none) →
        Answers (.startUp b) s (fun g => g.get Reg.DEV_BOOTSTAT_FAILED = 1 ∧ g.get Reg.DEV_BOOTSTAT_ERR = 6 ∧
          g.get Reg.DEV_BOOTSTAT_STEP = 2 ∧ g.pwr.alertN = true)) ∧
      (b.hot = false → b.rails = true → (∀ k, k < 16 → (trimWord s.fab.mgmt.otp k).val ≠ none) →
        (∀ p c, b.selfTest = some (p, c) → Answers (.startUp b) s (fun g => g.get Reg.DEV_BOOTSTAT_FAILED = 1 ∧
          g.get Reg.DEV_BOOTSTAT_ERR = 1 ∧ g.get Reg.DEV_BOOTSTAT_STEP = 3 ∧ g.get Reg.SCRUB_SELFTEST_FAIL = 1 ∧
          g.get Reg.SCRUB_SELFTEST_PATTERN = p ∧ g.get Reg.SCRUB_SELFTEST_CHECKER = c)) ∧
        (b.selfTest = none → b.fill = false → Answers (.startUp b) s (fun g => g.get Reg.DEV_BOOTSTAT_FAILED = 1 ∧
          g.get Reg.DEV_BOOTSTAT_ERR = 2 ∧ g.get Reg.DEV_BOOTSTAT_STEP = 4)) ∧
        (b.selfTest = none → b.fill = true → ∃ (x : Fab) (evs : List LogEv), Becomes (.startUp b) s (x.bootCore b evs) ∧ x.mem = [] ∧ x.err = [] ∧
          x.pwr.st = 3 ∧ x.get Reg.DEV_BOOTSTAT_STEP = 5)))) ∧
  (∀ (f : Fab) (b : Boot) (evs : List LogEv),
    (f.mgmt.lc = 0 → (f.bootCore b evs).get Reg.DEV_BOOTSTAT_STEP = 6 ∧ (f.bootCore b evs).dam.started = true ∧
      (f.bootCore b evs).get Reg.DBG_DPC_PC = 0 ∧ (f.bootCore b evs).mem = f.mem ∧ (f.bootCore b evs).pwr.xspiN = false) ∧
    (f.mgmt.lc = 5 → (f.bootCore b evs).get Reg.DEV_BOOTSTAT_FAILED = 1 ∧ (f.bootCore b evs).get Reg.DEV_BOOTSTAT_ERR = 4) ∧
    (f.mgmt.lc ≠ 0 → f.mgmt.lc ≠ 5 → b.flash = false → (f.bootCore b evs).get Reg.DEV_BOOTSTAT_FAILED = 1 ∧
      (f.bootCore b evs).get Reg.DEV_BOOTSTAT_ERR = 5 ∧ (f.bootCore b evs).get Reg.DEV_BOOTSTAT_RECOVERY = 1) ∧
    (f.mgmt.lc ≠ 0 → f.mgmt.lc ≠ 5 → b.flash = true → ∀ x, x = (f.mgmt.choose mgmtImg (fun m o => m.slotOk o) true
        (f.mgmt.candidates mgmtImg (slotOff 0) (slotOff 1))).1 →
      (x = none → (f.bootCore b evs).get Reg.DEV_BOOTSTAT_FAILED = 1 ∧ (f.bootCore b evs).get Reg.DEV_BOOTSTAT_ERR = 3 ∧
        (f.bootCore b evs).get Reg.DEV_BOOTSTAT_RECOVERY = 1) ∧
      (∀ o fb, x = some (o, fb) → (f.bootCore b evs).get Reg.DEV_BOOTSTAT_STEP = 10 ∧
        (f.bootCore b evs).get Reg.DEV_BOOTSTAT_FALLBACK = (if fb then 1 else 0) ∧ (f.bootCore b evs).mgmt.running = true ∧
        (f.bootCore b evs).mgmt.boots = f.mgmt.boots + 1)))

/-- RAILS_IN_RANGE and DORMANT_EXIT_TIMEOUT (R549, R575; log 57). -/
def Sys2Proof.Claims.RailsAndDormantExit : Prop :=
  ∀ (s : State) (b : Boot), bootWf b = true →
    (s.fab.pwr.rails = 0 ∨ s.fab.pwr.porst = true → Becomes (.railsInRange b) s s.fab) ∧
    (s.fab.pwr.rails = 2 → s.fab.pwr.porst = false → Becomes (.railsInRange b) s (s.fab.dormantWake.bootFrom3 b)) ∧
    (s.fab.pwr.rails = 1 → s.fab.pwr.porst = false → Becomes (.railsInRange b) s
      (({ s.fab with pwr := { s.fab.pwr with rails := 0 } } : Fab).bootFrom1 { b with rails := true })) ∧
    (s.fab.pwr.rails ≠ 2 → Becomes .dormantExitTimeout s s.fab) ∧
    (s.fab.pwr.rails = 2 → Answers .dormantExitTimeout s (fun g => g.get Reg.DEV_BOOTSTAT_FAILED = 1 ∧
      g.get Reg.DEV_BOOTSTAT_ERR = 7 ∧ g.get Reg.PWR_RSTCAUSE_DORMANT = 1 ∧ g.reg Reg.PWR_ETIME = s.fab.reg Reg.PWR_ETIME ∧
      g.mem = [] ∧ g.mgmt.flash = s.fab.mgmt.flash))

/-- Start-up step by step, and leaving DORMANT. -/
def Obligations.StartUp : Prop :=
  Sys2Proof.Claims.StartUp ∧ Sys2Proof.Claims.RailsAndDormantExit

/-- Loss of power, reset by pin and thermal trip. PORST_N_ASSERT, BROWN_OUT, AON_LOSS and THERMTRIP (R573, R575, R576; log 57). -/
def Obligations.LossOfPower : Prop :=
  ∀ (s : State) (rail : Nat), rail < 6 →
    (s.fab.pwr.porst = true → Becomes .porstNAssert s s.fab ∧ Becomes (.brownOut rail) s s.fab) ∧
    (s.fab.pwr.st < 2 → Becomes (.brownOut rail) s s.fab) ∧
    (s.fab.pwr.porst = false → ∀ c, c = .porstNAssert ∨ (c = .brownOut rail ∧ 2 ≤ s.fab.pwr.st) → Answers c s (fun g =>
      g.pwr.st = 0 ∧ g.pwr.xspiN = true ∧ g.mem = [] ∧ g.eng = [] ∧ g.sh = [] ∧ g.keys = [] ∧ g.mbx = Fab.reset.mbx ∧
      g.mgmt.flash = s.fab.mgmt.flash ∧ g.mgmt.otp = s.fab.mgmt.otp ∧ g.reg Reg.PWR_ETIME = s.fab.reg Reg.PWR_ETIME ∧
      (∀ a, a ≠ Reg.PWR_ETIME → a ≠ Reg.PWR_RSTCAUSE → a ≠ Reg.UMX_STAT_SEALOPEN.addr → g.reg a = regReset a) ∧
      (c = .porstNAssert → g.pwr.porst = true ∧ g.get Reg.PWR_RSTCAUSE_PORST = 1) ∧
      (c = .brownOut rail → g.pwr.porst = false ∧ g.pwr.rails = 1 ∧ g.get Reg.PWR_RSTCAUSE_BROWNOUT = 1 ∧
        g.get Reg.PWR_RSTCAUSE_RAIL = rail))) ∧
    Answers .aonLoss s (fun g => g.pwr.st = 0 ∧ g.pwr.porst = true ∧ g.mem = [] ∧ g.get Reg.PWR_RSTCAUSE_AONLOSS = 1 ∧
      g.get Reg.PWR_ETIME_COUNT = 0 ∧ g.mgmt.flash = s.fab.mgmt.flash ∧ g.mgmt.otp = s.fab.mgmt.otp ∧ g.latched = []) ∧
    (s.fab.pwr.st ≠ 0 → s.fab.pwr.trip = false → Answers .thermtrip s (fun g => g.pwr.trip = true ∧ g.pwr.thermN = true ∧
      g.live = false ∧ g.regs = s.fab.regs ∧ g.mem = s.fab.mem ∧ g.eng = s.fab.eng))

/-- SLEEP_REQUEST and SLEEP_COMMIT (R550, R551). -/
def Sys2Proof.Claims.Sleep : Prop :=
  ∀ (s : State) (m : Nat) (v : Word), m < 6 →
    (s.fab.live = true → s.fab.pwr.st = 3 →
      (m ≠ 0 ∨ v.getLsbD 2 = false → Becomes (.sleepRequest m v) s s.fab) ∧
      (v.getLsbD 2 = true → s.fab.sleepRefused (v.extractLsb' 0 2).toNat = none →
        Becomes (.sleepRequest 0 v) s { s.fab with pwr := { s.fab.pwr with req := some (v.extractLsb' 0 2).toNat } }) ∧
      (∀ k, v.getLsbD 2 = true → s.fab.sleepRefused (v.extractLsb' 0 2).toNat = some k → Answers (.sleepRequest 0 v) s (fun g =>
        g.get Reg.PWR_SLEEP_STATUS_STATUS = k ∧ g.pwr = s.fab.pwr ∧ OnlyRegs [Reg.PWR_SLEEP_STATUS] s.fab
          { g with inbox := s.fab.inbox } ∧
        g.inbox = s.fab.inbox ++ if s.fab.get Reg.PWR_SLEEP_STATUS_STATUS = k then [] else [(16, true, true)]))) ∧
    (s.fab.pwr.req = none → Becomes .sleepCommit s s.fab) ∧
    (∀ t, s.fab.pwr.req = some t → (s.fab.reg Reg.PWR_WAKE_STAT).toNat &&& (s.fab.reg Reg.PWR_WAKE_EN).toNat &&& honoured t ≠ 0 →
      Answers .sleepCommit s (fun g => g.pwr = { s.fab.pwr with req := none } ∧ g.get Reg.PWR_SLEEP_STATUS_STATUS = 3 ∧
        (14, true, true) ∈ g.inbox ∧ RegsBut [Reg.PWR_SLEEP_STATUS] s.fab g ∧ g.mem = s.fab.mem)) ∧
    (∀ t, s.fab.pwr.req = some t → (s.fab.reg Reg.PWR_WAKE_STAT).toNat &&& (s.fab.reg Reg.PWR_WAKE_EN).toNat &&& honoured t = 0 →
      Answers .sleepCommit s (fun g => g.pwr.st = (if t = 2 then 1 else 2) ∧
        (t ≠ 2 → g.get Reg.PWR_STAT_DSTATE = 2 ∧ ((∀ c, c < 16 → s.fab.portActive c = false) → g.pwr.req = none ∧
          g.get Reg.PWR_SLEEP_STATUS_STATUS = 1 ∧
          ∀ b, b < 24 → g.get (Reg.PWR_BLOCK_STATE b) = if (s.fab.unitPart b).isSome then 1 else 0)) ∧
        (t = 2 → g.pwr.slpN = true ∧ g.dam.started = false ∧ g.mgmt.running = false)))

/-- WAKE_EVENT (R552; log 47). -/
def Sys2Proof.Claims.WakeEvents : Prop :=
  ∀ (s : State) (kind i bit : Nat), wakeBit kind i = some bit →
    ((s.fab.get ⟨Reg.PWR_WAKE_EN, bit, 1⟩ = 0 ∨ s.fab.pwr.st = 0 ∨ (s.fab.pwr.st = 3 ∧ kind = 2) ∨
        (s.fab.pwr.st = 2 ∧ kind = 2 ∧ s.fab.get (Reg.LINK_CTL_WAKEEN i) = 0) ∨
        (s.fab.pwr.st = 1 ∧ (honoured 2).testBit bit = false) ∨ (kind = 5 ∧ s.fab.get Reg.ISC_WAKECTL_PEND = 0)) →
      (kind ≠ 3 → Becomes (.wakeEvent kind i) s s.fab) ∧
      (kind = 3 → Answers (.wakeEvent kind i) s (fun g => OnlyRegs [Reg.PWR_GPIOWAKE] s.fab g ∧
        g.get ⟨Reg.PWR_GPIOWAKE, 4 + i, 1⟩ = s.fab.get ⟨Reg.PWR_GPIOWAKE, i, 1⟩))) ∧
    (s.fab.get ⟨Reg.PWR_WAKE_EN, bit, 1⟩ = 1 → (kind = 5 → s.fab.get Reg.ISC_WAKECTL_PEND ≠ 0) →
      (s.fab.pwr.st = 3 → kind ≠ 2 → Answers (.wakeEvent kind i) s (fun g => g.get ⟨Reg.PWR_WAKE_STAT, bit, 1⟩ = 1 ∧
        OnlyRegs [Reg.PWR_WAKE_STAT, Reg.PWR_GPIOWAKE] s.fab g ∧ (kind ≠ 3 → OnlyRegs [Reg.PWR_WAKE_STAT] s.fab g))) ∧
      (s.fab.pwr.st = 2 → (kind = 2 → s.fab.get (Reg.LINK_CTL_WAKEEN i) = 1) → Answers (.wakeEvent kind i) s (fun g =>
        g.pwr = { s.fab.pwr with st := 3, pll := [] } ∧
        g.get ⟨Reg.PWR_WAKE_STAT, bit, 1⟩ = 1 ∧ g.get Reg.PWR_STAT_DSTATE = 3 ∧ g.get Reg.PWR_SLEEP_STATUS_STATUS = 2 ∧
        (14, true, true) ∈ g.inbox ∧ g.latched = [] ∧
        ∀ b, b < 24 → g.get (Reg.PWR_BLOCK_STATE b) = s.fab.get (Reg.PWR_BLOCK_REQ b))) ∧
      (s.fab.pwr.st = 1 → (honoured 2).testBit bit = true → Answers (.wakeEvent kind i) s (fun g =>
        g.pwr = { s.fab.pwr with slpN := false, rails := 2 } ∧ g.get ⟨Reg.PWR_WAKE_STAT, bit, 1⟩ = 1 ∧
        RegsBut [Reg.PWR_WAKE_STAT, Reg.PWR_GPIOWAKE] s.fab g ∧ g.mem = s.fab.mem)))

/-- Sleep requests, their commit, and the events that wake. -/
def Obligations.SleepAndWake : Prop :=
  Sys2Proof.Claims.Sleep ∧ Sys2Proof.Claims.WakeEvents

/-- Engine clocks, block power states and link wake-up. ECLK_FREQ_WRITE, ECLK_PLL_LOCK, BLOCK_REQ_WRITE,
BLOCK_TRANSITION_COMPLETE and LINKWAKE (R553, R555, R556, R557). -/
def Obligations.ClocksAndBlocks : Prop :=
  ∀ (s : State) (m g b : Nat) (v : BitVec 8) (r : BitVec 2) (w : BitVec 16), m < 6 → g < 6 → b < 24 → s.fab.active = true →
    (m ≠ 0 → Becomes (.eclkFreqWrite m g v) s s.fab ∧ Becomes (.blockReqWrite m b r) s s.fab ∧ Becomes (.linkwake m w) s s.fab) ∧
    Answers (.linkwake 0 w) s (fun f => (∀ c, c < 16 → w.getLsbD c = true →
      (if s.fab.portActive c then Output.flit c (rsEncode 0x3E) else .linkWake c) ∈ f.out) ∧
      { f with out := s.fab.out } = s.fab) ∧
    ((∃ x p, x < 24 ∧ eclkGroup x = g ∧ s.fab.unitPart x = some p ∧ s.fab.st p ≠ 0 ∧ s.fab.st p ≠ 5) →
      Answers (.eclkFreqWrite 0 g v) s (fun f => f.get Reg.PWR_STAT_REQERR = 1 ∧ OnlyRegs [Reg.PWR_STAT] s.fab f)) ∧
    ((∀ x p, x < 24 → eclkGroup x = g → s.fab.unitPart x = some p → s.fab.st p = 0 ∨ s.fab.st p = 5) →
      (∀ x, x = (if v.toNat < 40 then 40 else min v.toNat s.fab.eclkMax) →
        (x = s.fab.get (Reg.PWR_ECLK_FREQ g) → Becomes (.eclkFreqWrite 0 g v) s s.fab) ∧
        (x ≠ s.fab.get (Reg.PWR_ECLK_FREQ g) → s.fab.DmaAtRest → s.fab.get Reg.LINK_TBCTL_PARENT = 0x1F →
          Answers (.eclkFreqWrite 0 g v) s (fun f => f.get (Reg.PWR_ECLK_FREQ g) = x ∧ f.get (Reg.PWR_ECLK_LOCKED g) = 0 ∧
            f.pwr.pll.contains g = true ∧ f.mem = s.fab.mem ∧ f.eng = s.fab.eng ∧ f.sh = s.fab.sh ∧
            (∀ c p, c < 16 → s.fab.portPart c = some p → s.fab.portActive c = true →
              (∃ y, y < 24 ∧ eclkGroup y = g ∧ s.fab.unitPart y = some p) → f.lst c = lsPin) ∧
            (∀ c, c < 16 → s.fab.portActive c = false → f.lst c = s.fab.lst c))))) ∧
    (s.fab.pwr.pll.contains g = false → Becomes (.eclkPllLock g) s s.fab) ∧
    (s.fab.pwr.pll.contains g = true → Answers (.eclkPllLock g) s (fun f => f.pwr.pll.contains g = false ∧
      (f.get (Reg.PWR_ECLK_LOCKED g) = 1 ↔ s.fab.groupRuns g = true) ∧ RegsBut [Reg.PWR_ECLK g] s.fab f)) ∧
    (∀ p, s.fab.unitPart b = some p → s.fab.runs p = true → r ≠ 3 →
      (r = 2 → ∃ j, j < 8 ∧ s.fab.activeIn p (8 * b + j) = true) → Answers (.blockReqWrite 0 b r) s (fun f =>
        f.get Reg.PWR_STAT_REQERR = 1 ∧ OnlyRegs [Reg.PWR_STAT] s.fab f)) ∧
    (r = 3 ∨ (∀ p, s.fab.unitPart b = some p →
        s.fab.runs p = false ∨ (r = 2 ∧ ∀ j, j < 8 → s.fab.activeIn p (8 * b + j) = false)) → Answers (.blockReqWrite 0 b r) s (fun f =>
      f.get (Reg.PWR_BLOCK_REQ b) = r.toNat ∧ (f.get (Reg.PWR_BLOCK_BUSY b) = 1 ↔ s.fab.get (Reg.PWR_BLOCK_STATE b) ≠ r.toNat) ∧
      f.get (Reg.PWR_BLOCK_STATE b) = s.fab.get (Reg.PWR_BLOCK_STATE b) ∧ OnlyRegs [Reg.PWR_BLOCK b] s.fab f)) ∧
    (s.fab.get (Reg.PWR_BLOCK_BUSY b) = 0 → Becomes (.blockTransitionComplete b) s s.fab) ∧
    (s.fab.get (Reg.PWR_BLOCK_BUSY b) = 1 → Answers (.blockTransitionComplete b) s (fun f =>
      f.get (Reg.PWR_BLOCK_BUSY b) = 0 ∧ f.get (Reg.PWR_BLOCK_STATE b) = s.fab.get (Reg.PWR_BLOCK_REQ b) ∧
      (s.fab.get (Reg.PWR_BLOCK_REQ b) = 3 → 2 ≤ s.fab.get (Reg.PWR_BLOCK_STATE b) → f.mem = s.fab.mem ∧ f.eng = s.fab.eng) ∧
      f.inbox = s.fab.inbox ++ if s.fab.get Reg.PWR_STAT_STIRQ = 1 ∧
        s.fab.get (Reg.PWR_BLOCK_REQ b) ≠ s.fab.get (Reg.PWR_BLOCK_STATE b) then [(16, true, true)] else []))

/-- SENSOR_SAMPLE, THERMAL_RELEASE and DROOP_EVENT (R486, R558, R559; log 47). -/
def Sys2Proof.Claims.SensorsAndHeat : Prop :=
  ∀ (s : State) (ts vs : List (BitVec 12)) (now b : Nat) (recent : Bool), b < 24 → s.fab.active = true →
    (ts.length = 56 → vs.length = 32 → Answers (.sensorSample ts vs) s (fun g =>
      (∀ i, i < 56 → g.get (Reg.MGMT_TEMP_VALUE i) = (ts.getD i 0).toNat ∧
        (g.get (Reg.MGMT_TEMP_WARN i) = 1 ↔ s.fab.get (Reg.MGMT_TEMP_WARN i) = 1 ∨
          ((8 * s.fab.get Reg.MGMT_TLIMIT_WARN : Nat) : Int) < (ts.getD i 0).toInt) ∧
        (g.get (Reg.MGMT_TEMP_CRIT i) = 1 ↔ s.fab.get (Reg.MGMT_TEMP_CRIT i) = 1 ∨
          ((8 * s.fab.get Reg.MGMT_TLIMIT_CRIT : Nat) : Int) < (ts.getD i 0).toInt)) ∧
      (∀ i, i < 32 → g.get (Reg.MGMT_VMON_MV i) = (vs.getD i 0).toNat ∧
        ((vs.getD i 0).toNat < s.fab.get (Reg.MGMT_VMON_LO i) → g.get (Reg.MGMT_VMON_LOW i) = 1) ∧
        (s.fab.get (Reg.MGMT_VMON_HI i) < (vs.getD i 0).toNat → g.get (Reg.MGMT_VMON_HIGH i) = 1)) ∧
      (s.fab.get Reg.PWR_THERM_HOLDEN = 1 → (∃ i, i < 56 ∧
          ((8 * s.fab.get Reg.MGMT_TLIMIT_CRIT : Nat) : Int) < (ts.getD i 0).toInt) →
        g.get Reg.PWR_THERM_HOLDING = 1 ∧ (s.fab.get Reg.PWR_THERM_HOLDING = 0 → (15, true, true) ∈ g.inbox) ∧
          ∀ p, p < 8 → s.fab.runs p = true → g.get (Reg.SQ_CTL_HOLDREQ p) = 1))) ∧
    (s.fab.get Reg.PWR_THERM_HOLDING = 0 ∨ s.fab.pwr.below ≠ 10 → Becomes (.thermalRelease now) s s.fab) ∧
    (s.fab.get Reg.PWR_THERM_HOLDING = 1 → s.fab.pwr.below = 10 → Answers (.thermalRelease now) s (fun g =>
      (15, true, true) ∈ g.inbox ∧ ((∀ p, p < 8 → s.fab.st p ≠ 3) → g.get Reg.PWR_THERM_HOLDING = 0 ∧
        ∀ p, p < 8 → g.get (Reg.SQ_CTL_HOLDREQ p) = 0))) ∧
    Answers (.droopEvent b recent) s (fun g =>
      g.get (Reg.MGMT_DROOP_COUNT b) = min (s.fab.get (Reg.MGMT_DROOP_COUNT b) + 1) (2 ^ 16 - 1) ∧
      (s.fab.get Reg.PWR_DROOPCTL_STRETCH = 1 → (∀ p, p < 8 → s.fab.lockMode p = false) →
        g.get Reg.PWR_DROOPCTL_STRETCHES = (if recent then s.fab.get Reg.PWR_DROOPCTL_STRETCHES
          else min (s.fab.get Reg.PWR_DROOPCTL_STRETCHES + 1) (2 ^ 16 - 1)) ∧
        g.reg Reg.PWR_AVS = s.fab.reg Reg.PWR_AVS) ∧
      (s.fab.get Reg.PWR_DROOPCTL_STRETCH = 0 ∨ (∃ p, p < 8 ∧ s.fab.lockMode p = true) → g.get Reg.PWR_AVS_RAISE = 1 ∧
        g.reg Reg.PWR_DROOPCTL = s.fab.reg Reg.PWR_DROOPCTL) ∧
      OnlyRegs [Reg.MGMT_DROOP b, Reg.PWR_DROOPCTL, Reg.PWR_AVS] s.fab g)

/-- WDOG_KICK, WDOG_EXPIRY, TAMPER_TRIP and VAULT_WIPE_COMPLETE (R262, R489, R544; logs 56 and 72). -/
def Sys2Proof.Claims.WatchdogAndTamper : Prop :=
  ∀ (s : State) (m : Nat) (v : BitVec 8), m < 6 → s.fab.live = true →
    (m ≠ 0 → Becomes (.wdogKick m v) s s.fab) ∧
    (v = 0xA5 → Answers (.wdogKick 0 v) s (fun g => g.get Reg.DEV_WDOG_COUNT = s.fab.get Reg.DEV_WDOG_PERIOD ∧
      g.get Reg.DEV_WDOG_STAGE = 0 ∧ OnlyRegs [Reg.DEV_WDOG] s.fab g)) ∧
    (s.fab.get Reg.DEV_WDOG_EN = 0 ∨ s.fab.get Reg.DEV_WDOG_COUNT ≠ 0 ∨ s.fab.get Reg.DBG_DSTAT_HALTED = 1 →
      Becomes .wdogExpiry s s.fab) ∧
    (s.fab.get Reg.DEV_WDOG_EN = 1 → s.fab.get Reg.DEV_WDOG_COUNT = 0 → s.fab.get Reg.DBG_DSTAT_HALTED = 0 →
      s.fab.get Reg.DEV_WDOG_STAGE = 0 → Answers .wdogExpiry s (fun g => g.get Reg.DEV_WDOG_STAGE = 1 ∧
        g.get Reg.DEV_WDOG_COUNT = s.fab.get Reg.DEV_WDOG_PERIOD ∧ g.inbox = s.fab.inbox ++ [(10, true, true)] ∧
        OnlyRegs [Reg.DEV_WDOG] s.fab { g with inbox := s.fab.inbox })) ∧
    (∀ c, (c = .wdogKick 0 v ∧ v ≠ 0xA5) ∨ (c = .wdogExpiry ∧ s.fab.get Reg.DEV_WDOG_EN = 1 ∧
        s.fab.get Reg.DEV_WDOG_COUNT = 0 ∧ s.fab.get Reg.DBG_DSTAT_HALTED = 0 ∧ s.fab.get Reg.DEV_WDOG_STAGE ≠ 0) →
      Answers c s (fun g => g.mbx.queue = [] ∧ g.mbx.job = none ∧ g.dam.started = true ∧
        (∀ n, n < 4 → g.get (Reg.MGMT_MBX_STAT_BUSY n) = 0) ∧
        g.get Reg.DEV_BOOTSTAT_MRESETS = min (s.fab.get Reg.DEV_BOOTSTAT_MRESETS + 1) (2 ^ 16 - 1) ∧
        g.sh = s.fab.sh ∧ g.keys = s.fab.keys)) ∧
    (2 ≤ s.fab.pwr.st → Answers .tamperTrip s (fun g => g.mgmt.tamper = true ∧ g.inbox = s.fab.inbox ∧
      g.pwr = { s.fab.pwr with owed := s.fab.pwr.owed || !s.fab.fwUp } ∧
      (s.fab.regs.all (fun c => !(Reg.MEM_DOWNER 0 ≤ c.1 && c.1 < Reg.MEM_DOWNER 2048 && fget c.2 0 4 < 8)) = true →
        g.get Reg.MEM_VAULT_WIPING = 1 ∧ g.get Reg.MEM_VAULT_CAUSE = 1 ∧ g.keys = [] ∧
        (∀ a, 0x0300200000 ≤ a → a < 0x0300240000 → byteAt g.mem a = 0) ∧
        (∀ a, a < 0x0300200000 ∨ 0x0300240000 ≤ a → byteAt g.mem a = byteAt s.fab.mem a)))) ∧
    (s.fab.get Reg.MEM_VAULT_WIPING = 0 → Becomes .vaultWipeComplete s s.fab) ∧
    (s.fab.get Reg.MEM_VAULT_WIPING = 1 → Answers .vaultWipeComplete s (fun g => g.get Reg.MEM_VAULT_WIPING = 0 ∧
      RegsBut [Reg.MEM_VAULT] s.fab g ∧ (s.fab.get Reg.MEM_VAULT_CAUSE ≠ 1 → g.mem = s.fab.mem ∧ g.keys = s.fab.keys ∧
        g.inbox = s.fab.inbox) ∧
      (s.fab.get Reg.MEM_VAULT_CAUSE = 1 → (s.fab.pwr.st = 3 → g.inbox = s.fab.inbox ++ [(11, true, true)]) ∧
        (s.fab.pwr.st ≠ 3 → g.latched = s.fab.latched ++ [(11, true)]))))

/-- TAMPER_TRIP in DORMANT and OFF (R262, R544; log 102): the vault is wiped already, and the trip is kept for start-up. -/
def Sys2Proof.Claims.TamperAsleep : Prop :=
  ∀ s : State, s.fab.pwr.st < 2 → Becomes .tamperTrip s
    { s.fab with pwr := { s.fab.pwr with owed := true }, latched := s.fab.latched ++ [(11, true)] }

/-- Sensors, heat, droop, the watchdog and the tamper wipe. -/
def Obligations.SensorsWatchdogTamper : Prop :=
  Sys2Proof.Claims.SensorsAndHeat ∧ Sys2Proof.Claims.WatchdogAndTamper ∧ Sys2Proof.Claims.TamperAsleep

/-- When the twelve commands are served (R480). -/
def Sys2Proof.Claims.BmcServing : Prop :=
  ∀ (s : State) (i : BitVec 8) (off : BitVec 32) (data nonce tok req : List (BitVec 8)) (q : Word) (c : Instr),
    (c ∈ [Instr.status, .sensors i, .imgErase, .imgWrite off data, .imgActivate, .confirm, .svnCommit, .attest nonce, .cert,
        .logRead q, .lcRequest tok, .optBurn req] →
      (s.fab.live = false → Becomes c s s.fab) ∧
      (s.fab.live = true → s.fab.get Reg.DBG_DSTAT_HALTED = 1 → (c = .status → s.fab.mgmt.running = true) →
        Becomes c s ((s.fab.raise 13 true).emit (.i3c 3 []))) ∧
      (s.fab.live = true → s.fab.get Reg.DBG_DSTAT_HALTED = 0 → s.fab.mgmt.running = false →
        s.fab.get Reg.DEV_BOOTSTAT_FAILED = 0 → s.fab.get Reg.DEV_BOOTSTAT_RECOVERY = 0 → Becomes c s s.fab)) ∧
    (c ∈ [Instr.imgErase, .imgWrite off data, .imgActivate, .svnCommit, .lcRequest tok, .optBurn req] → s.fab.live = true →
      s.fab.get Reg.DBG_DSTAT_HALTED = 0 → s.fab.mgmt.running = true →
      (s.fab.anyPart = true → Becomes c s ((s.fab.raise 13 true).emit (.i3c 2 []))) ∧
      (s.fab.anyPart = false → s.fab.mgmt.busy = true → c ∈ [Instr.imgErase, .imgWrite off data, .imgActivate] →
        Becomes c s ((s.fab.raise 13 true).emit (.i3c 3 []))))

/-- STATUS, SENSORS, ATTEST, CERT and LOG_READ (R480, R488, R491; log 58). -/
def Sys2Proof.Claims.BmcReads : Prop :=
  ∀ (s : State) (i : BitVec 8) (nonce : List (BitVec 8)) (q : Word), s.fab.live = true →
    s.fab.get Reg.DBG_DSTAT_HALTED = 0 → s.fab.mgmt.running = true →
    Becomes .status s ((s.fab.raise 13 true).emit (.i3c 0 (toBytes (s.fab.reg Reg.DEV_ID).toNat 8 ++
      toBytes (s.fab.reg Reg.DEV_BOOTSTAT).toNat 8 ++ toBytes s.fab.hottest 2))) ∧
    (∀ a, sensorReg i.toNat = some a → Becomes (.sensors i) s
      ((s.fab.raise 13 true).emit (.i3c 0 (toBytes (s.fab.reg a).toNat 8)))) ∧
    (112 ≤ i.toNat → Becomes (.sensors i) s ((s.fab.raise 13 true).emit (.i3c 1 []))) ∧
    (nonce.length = 32 → Answers (.attest nonce) s (fun g => g.out = s.fab.out ++ [.i3c 0 g.mgmt.report] ∧
      g.mgmt.report = s.fab.reportBody (nonce.map BitVec.toNat) ++
        Config.sign s.fab.mgmt.idKey (sha (s.fab.reportBody (nonce.map BitVec.toNat))) ∧
      g.regs = s.fab.regs ∧ g.mem = s.fab.mem ∧ g.mgmt.flash = s.fab.mgmt.flash)) ∧
    (nonce.length ≠ 32 → Becomes (.attest nonce) s ((s.fab.raise 13 true).emit (.i3c 1 []))) ∧
    Becomes .cert s ((s.fab.raise 13 true).emit (.i3c 0 (s.fab.mgmt.flashBytes 0x2800000 0x2000))) ∧
    Becomes (.logRead q) s ((s.fab.raise 13 true).emit
      (.i3c 0 (((s.fab.mgmt.logFrom q.toNat).map (fun p => s.fab.mgmt.flashBytes (logBase + 256 * p) 256)).flatten)))

/-- When commands of the board controller are served, and what its reads answer. -/
def Obligations.BmcReads : Prop :=
  Sys2Proof.Claims.BmcServing ∧ Sys2Proof.Claims.BmcReads

/-- IMG_ERASE, IMG_WRITE, IMG_ACTIVATE, CONFIRM, SVN_COMMIT and FLASH_DONE (R479, R480, R487; log 58). -/
def Sys2Proof.Claims.ImageCommands : Prop :=
  ∀ (s : State) (off : BitVec 32) (data : List (BitVec 8)) (o : Nat), s.fab.live = true →
    s.fab.get Reg.DBG_DSTAT_HALTED = 0 → s.fab.mgmt.running = true → s.fab.anyPart = false →
    o = slotOff (1 - s.fab.get Reg.DEV_BOOTSTAT_SLOT) →
    (s.fab.mgmt.busy = false →
      Answers .imgErase s (fun g => g.mgmt.busy = true ∧ g.out = s.fab.out ++ [.i3c 0 []] ∧ g.regs = s.fab.regs ∧
        (∀ x, o ≤ x → x < o + 0x800000 → g.mgmt.flashByte x = 0xFF) ∧
        (∀ x, x < o ∨ o + 0x800000 ≤ x → g.mgmt.flashByte x = s.fab.mgmt.flashByte x)) ∧
      (0 < data.length → data.length ≤ 256 → off.toNat + data.length ≤ 0x800000 → Answers (.imgWrite off data) s (fun g =>
        g.mgmt.busy = true ∧ g.out = s.fab.out ++ [.i3c 0 []] ∧ g.regs = s.fab.regs ∧
        (∀ i, i < data.length → g.mgmt.flashByte (o + off.toNat + i) =
          s.fab.mgmt.flashByte (o + off.toNat + i) &&& (data.getD i 0).toNat) ∧
        (∀ x, x < o + off.toNat ∨ o + off.toNat + data.length ≤ x → g.mgmt.flashByte x = s.fab.mgmt.flashByte x))) ∧
      (data.length = 0 ∨ 256 < data.length ∨ 0x800000 < off.toNat + data.length →
        Becomes (.imgWrite off data) s ((s.fab.raise 13 true).emit (.i3c 1 []))) ∧
      (s.fab.mgmt.slotOk o = false → Becomes .imgActivate s ((s.fab.raise 13 true).emit (.i3c 4 []))) ∧
      (s.fab.mgmt.slotOk o = true → Answers .imgActivate s (fun g => g.mgmt.busy = true ∧
        g.out = s.fab.out ++ [.i3c 0 []] ∧ g.regs = s.fab.regs ∧
        g.mgmt.actState mgmtImg o = s.fab.mgmt.actState mgmtImg o &&& 0x7F))) ∧
    Answers .confirm s (fun g => g.out = s.fab.out ++ [.i3c 0 []] ∧ g.regs = s.fab.regs ∧ g.mem = s.fab.mem ∧
      g.mgmt.actState mgmtImg s.fab.runSlot = s.fab.mgmt.actState mgmtImg s.fab.runSlot &&& 0x3F) ∧
    (s.fab.mgmt.actState mgmtImg s.fab.runSlot = 0x7F → Becomes .svnCommit s ((s.fab.raise 13 true).emit (.i3c 2 []))) ∧
    (s.fab.mgmt.actState mgmtImg s.fab.runSlot ≠ 0x7F → Answers .svnCommit s (fun g => g.out = s.fab.out ++ [.i3c 0 []] ∧
      g.regs = s.fab.regs ∧ (ofBytes ((s.fab.mgmt.hdr.drop 4).take 4) ≤ s.fab.mgmt.svn → g.mgmt.otp = s.fab.mgmt.otp) ∧
      (s.fab.mgmt.svn < ofBytes ((s.fab.mgmt.hdr.drop 4).take 4) → ofBytes ((s.fab.mgmt.hdr.drop 4).take 4) ≤ 64 →
        ofBytes ((s.fab.mgmt.hdr.drop 4).take 4) ≤ g.mgmt.svn))) ∧
    (s.fab.mgmt.busy = true → Becomes .flashDone s
      (({ s.fab with mgmt := { s.fab.mgmt with busy := false } } : Fab).raise 12 true)) ∧
    (s.fab.mgmt.busy = false → Becomes .flashDone s s.fab)

/-- LC_REQUEST and OPT_BURN (R472, R482; log 58). -/
def Sys2Proof.Claims.LifeCycleAndOptions : Prop :=
  ∀ (s : State) (t : List (BitVec 8)) (l : List Nat), s.fab.live = true → s.fab.get Reg.DBG_DSTAT_HALTED = 0 →
    s.fab.mgmt.running = true → s.fab.anyPart = false → l = t.map BitVec.toNat →
    (l.length ≠ 64 + sigLen → Becomes (.lcRequest t) s ((s.fab.raise 13 true).emit (.i3c 1 []))) ∧
    (l.length = 64 + sigLen →
      (tokFrom l ≠ s.fab.mgmt.lc ∨ lcAllowed s.fab.mgmt.lc (tokTo l) = false ∨
          (s.fab.get Reg.DEV_BOOTSTAT_DEGRADED = 1 ∧ tokTo l ≠ 5) → Becomes (.lcRequest t) s ((s.fab.raise 13 true).emit (.i3c 2 []))) ∧
      (tokFrom l = s.fab.mgmt.lc → lcAllowed s.fab.mgmt.lc (tokTo l) = true → s.fab.get Reg.DEV_BOOTSTAT_DEGRADED = 0 →
        (tokUid l ≠ s.fab.mgmt.uid ∨ s.fab.mgmt.tokenOk l = false →
          Becomes (.lcRequest t) s ((s.fab.raise 13 true).emit (.i3c 4 []))) ∧
        (tokUid l = s.fab.mgmt.uid → s.fab.mgmt.tokenOk l = true → Answers (.lcRequest t) s (fun g =>
          g.pwr.st = 0 ∧ g.pwr.porst = false ∧ g.mem = [] ∧ g.keys = [] ∧ g.get Reg.PWR_RSTCAUSE_PORST = 1)))) ∧
    (l.length ≠ 256 + sigLen + 128 → Becomes (.optBurn t) s ((s.fab.raise 13 true).emit (.i3c 1 []))) ∧
    (l.length = 256 + sigLen + 128 → ∀ x, x = (match optGen s.fab.mgmt.otp with | some g => g + 1 | none => 0) →
      (4 ≤ x → Becomes (.optBurn t) s ((s.fab.raise 13 true).emit (.i3c 2 []))) ∧
      (x < 4 → s.fab.mgmt.optSigned l = false → Becomes (.optBurn t) s ((s.fab.raise 13 true).emit (.i3c 4 []))) ∧
      (x < 4 → s.fab.mgmt.optSigned l = true → Answers (.optBurn t) s (fun g => g.out = s.fab.out ++ [.i3c 0 []] ∧
        g.regs = s.fab.regs ∧ g.mgmt.flash = s.fab.mgmt.flash ∧ g.mgmt.otp = burnGen s.fab.mgmt.otp x
          ((List.range 16).map (fun k => ofBytes (((l.drop (256 + sigLen)).drop (8 * k)).take 8))))))

/-- Image, life-cycle and option commands of the board controller, and the end of a flash operation. -/
def Obligations.BmcChanges : Prop :=
  Sys2Proof.Claims.ImageCommands ∧ Sys2Proof.Claims.LifeCycleAndOptions

/-- UMX_SAMPLE and TIMEBASE_CHECK (R496, R498; log 45). -/
def Sys2Proof.Claims.EnclaveMeasures : Prop :=
  ∀ (s : State) (i0 v0 i1 v1 : Int) (n : Nat), s.fab.live = true →
    (0 ≤ i0 → i0 ≤ 1250000000 → 0 ≤ v0 → v0 ≤ 1000000 → 0 ≤ i1 → i1 ≤ 125000000 → 0 ≤ v1 → v1 ≤ 1000000 →
      Answers (.umxSample i0 v0 i1 v1) s (fun g =>
        g.umx.acc0 = s.fab.umx.acc0 + (i0 * v0).toNat * 2 ^ 32 / 8000000000 ∧
        g.umx.acc1 = s.fab.umx.acc1 + (i1 * v1).toNat * 2 ^ 32 / 8000000000 ∧ g.umx.smp = s.fab.umx.smp + 1 ∧
        g.umx.clip0 = s.fab.umx.clip0 ∧ g.umx.clip1 = s.fab.umx.clip1 ∧
        (g.umx.acc0 / 2 ^ 32 + g.umx.acc1 / 2 ^ 32 < 2 ^ 64 → g.get Reg.UMX_ECORE_ENERGY = g.umx.acc0 / 2 ^ 32 ∧
          g.get Reg.UMX_ESRAM_ENERGY = g.umx.acc1 / 2 ^ 32 ∧
          g.get Reg.UMX_ETOTAL_ENERGY = g.umx.acc0 / 2 ^ 32 + g.umx.acc1 / 2 ^ 32 ∧
          g.get Reg.UMX_STAT_SAT = s.fab.get Reg.UMX_STAT_SAT) ∧
        (2 ^ 64 ≤ g.umx.acc0 / 2 ^ 32 + g.umx.acc1 / 2 ^ 32 → g.get Reg.UMX_ETOTAL_ENERGY = 2 ^ 64 - 1 ∧
          g.get Reg.UMX_STAT_SAT = 1) ∧
        RegsBut [Reg.UMX_ECORE, Reg.UMX_ESRAM, Reg.UMX_ETOTAL, Reg.UMX_STAT] s.fab g ∧ g.mem = s.fab.mem)) ∧
    (∀ i v j w, Answers (.umxSample i v j w) s (fun g => s.fab.umx.acc0 ≤ g.umx.acc0 ∧ s.fab.umx.acc1 ≤ g.umx.acc1 ∧
      (1250000000 < i ∨ i < -1250000000 ∨ 1000000 < v ∨ v < 0 → g.umx.clip0 = true) ∧
      (125000000 < j ∨ j < -125000000 ∨ 1000000 < w ∨ w < 0 → g.umx.clip1 = true))) ∧
    Answers (.timebaseCheck n) s (fun g => (g.get Reg.UMX_STAT_TBERR = 1 ↔ n < 99998000 ∨ 100002000 < n) ∧
      RegsBut [Reg.UMX_STAT] s.fab g ∧ g.mem = s.fab.mem)

/-- UMX_MILLISECOND (R510, R513; log 45). -/
def Sys2Proof.Claims.EnergyAllocation : Prop :=
  (∀ (f : Fab) (e v0 : Nat) (act : List Activity), ((f.shares e v0 act).map Prod.fst).foldl (· + ·) 0 ≤ e ∧
    ∀ p, p < 8 → (∀ b, b < 24 → f.unitPart b ≠ some p) → (f.shares e v0 act).getD p (0, 0) = (0, 0)) ∧
  (∀ (s : State) (act : List Activity), s.fab.live = true → act.length = 24 → Answers (.umxMillisecond act) s (fun g =>
    g.umx.ms = s.fab.umx.ms + 1 ∧ g.umx.ms0 = s.fab.umx.acc0 ∧ g.umx.ms1 = s.fab.umx.acc1 ∧ g.umx.smp = 0 ∧
    g.umx.acc0 = s.fab.umx.acc0 ∧ g.umx.acc1 = s.fab.umx.acc1 ∧
    g.get Reg.UMX_TIME_TIME = (s.fab.umx.ms + 1) * 32768 / 1000 % 2 ^ 64 ∧ g.umx.kept.isSome = true ∧
    (∀ p, p < 8 → (g.acct p).nj = (s.fab.acct p).nj + ((s.fab.shares
      ((s.fab.umx.acc0 + s.fab.umx.acc1) * 1000 / 2 ^ 32 - (s.fab.umx.ms0 + s.fab.umx.ms1) * 1000 / 2 ^ 32)
      (if s.fab.umx.smp = 0 then 0 else s.fab.umx.v0 / s.fab.umx.smp / 100) act).getD p (0, 0)).1) ∧
    g.umx.due.length = s.fab.umx.due.length + (if s.fab.umx.short = true ∨
      (s.fab.umx.ms + 1) % (s.fab.get Reg.UMX_CFG_INTERVAL * 1000) = 0 then 1 else 0) ∧
    (s.fab.umx.short = true ∨ (s.fab.umx.ms + 1) % (s.fab.get Reg.UMX_CFG_INTERVAL * 1000) = 0 →
      g.get Reg.UMX_CFG_INTERVAL = s.fab.get Reg.UMX_CFG_NEXT ∧ g.umx.start = s.fab.umx.ms + 1) ∧
    g.mem = s.fab.mem ∧ g.mgmt = s.fab.mgmt))

/-- Energy samples never lose energy, and each millisecond is shared out without inventing any. -/
def Obligations.EnergyMeasures : Prop :=
  Sys2Proof.Claims.EnclaveMeasures ∧ Sys2Proof.Claims.EnergyAllocation

/-- UMX_CHECKPOINT and USAGE_RECORD (R500, R514; log 45). -/
def Sys2Proof.Claims.CheckpointsAndRecords : Prop :=
  ∀ (s : State), s.fab.live = true →
    Answers .umxCheckpoint s (fun g => g.umx = { s.fab.umx with chkPos := s.fab.umx.chkPos + 1 } ∧ g.regs = s.fab.regs ∧
      (∀ o, o < umxChk ∨ umxChk + 0x200000 ≤ o → g.mgmt.flashByte o = s.fab.mgmt.flashByte o) ∧
      (s.fab.umx.chkPos % 1024 = 0 → g.mgmt.checkpoint (s.fab.umx.chkPos % 32768) =
        some ((s.fab.umx.chkPos + 1) % 2 ^ 64, s.fab.chkBody))) ∧
    (s.fab.umx.due = [] → Becomes .usageRecord s s.fab) ∧
    (∀ body t n, s.fab.umx.due = body :: t → n = (s.fab.get Reg.UMX_RSEQ_RSEQ + 1) → n < 2 ^ 64 →
      Answers .usageRecord s (fun g => g.get Reg.UMX_RSEQ_RSEQ = n ∧ g.umx.due = t ∧
        Store.get [] g.umx.recs (n % 6) = body ++ Config.sign s.fab.umx.idKey (sha body) ∧
        (∀ k, k < 6 → k ≠ n % 6 → Store.get [] g.umx.recs k = Store.get [] s.fab.umx.recs k) ∧ g.umx.confirm = false ∧
        (s.fab.umx.confirm = false → g.mgmt = s.fab.mgmt) ∧
        (∀ o, o = umxSlot (s.fab.get Reg.UMX_FWVER_SLOT) → s.fab.umx.confirm = true →
          g.mgmt.actState umxImg o = s.fab.mgmt.actState umxImg o &&& 0x3F ∧
          ∀ x, x ≠ o + umxImg.act + 8 → g.mgmt.flashByte x = s.fab.mgmt.flashByte x) ∧
        RegsBut [Reg.UMX_RSEQ] s.fab g ∧ g.mem = s.fab.mem))

/-- SEAL_SAMPLE, SET_INTERVAL, UPDATE and ENCLAVE_RESTART (R504, R508, R513; log 45). -/
def Sys2Proof.Claims.SealAndRequests : Prop :=
  ∀ (s : State) (m : Nat) (arg : BitVec 32), m < 6 →
    (s.fab.umx.high ≠ 3 → Answers (.sealSample true) s (fun g => g.regs = s.fab.regs ∧ g.mgmt = s.fab.mgmt ∧
      g.umx = { s.fab.umx with high := min (s.fab.umx.high + 1) 5, low := 0 })) ∧
    (s.fab.umx.high = 3 → Answers (.sealSample true) s (fun g => g.get Reg.UMX_STAT_SEALOPEN = 1 ∧ g.umx.high = 4 ∧
      g.get Reg.UMX_SEALCNT_COUNT = min g.umx.sealCount 256 ∧ s.fab.umx.sealCount ≤ g.umx.sealCount ∧
      (256 ≤ g.umx.sealCount → g.get Reg.UMX_STAT_SAT = 1) ∧
      (2 ≤ s.fab.pwr.st → g.umx.logSeq = s.fab.umx.logSeq + 1 ∧ g.umx.brk = s.fab.umx.brk) ∧
      (s.fab.pwr.st < 2 → g.umx.logSeq = s.fab.umx.logSeq ∧ g.umx.brk = s.fab.umx.brk + 1 ∧ g.mgmt = s.fab.mgmt) ∧
      RegsBut [Reg.UMX_STAT, Reg.UMX_SEALCNT] s.fab g)) ∧
    (s.fab.umx.low < 1023 → Answers (.sealSample false) s (fun g => g.regs = s.fab.regs ∧
      g.umx = { s.fab.umx with high := 0, low := s.fab.umx.low + 1 })) ∧
    (1023 ≤ s.fab.umx.low → s.fab.umx.low ≤ 1024 → Answers (.sealSample false) s (fun g =>
      g.get Reg.UMX_STAT_SEALOPEN = 0 ∧ g.umx.high = 0 ∧ g.umx.low = 1024 ∧
      (s.fab.get Reg.UMX_STAT_SEALOPEN = 1 → s.fab.umx.upd.isSome = true → g.umx.upd = none ∧ g.umx.reqBusy = false ∧
        g.get Reg.UMX_RSP_OP = 2 ∧ g.get Reg.UMX_RSP_STATUS = 5 ∧ g.get Reg.UMX_RSP_DONE = 1))) ∧
    (s.fab.live = true →
      (m ≠ 0 ∨ s.fab.umx.reqBusy = true ∨ s.fab.get Reg.UMX_STAT_STATE = 3 → Becomes (.setInterval m arg) s s.fab ∧ Becomes (.update m arg) s s.fab) ∧
      (s.fab.umx.reqBusy = false → s.fab.get Reg.UMX_STAT_STATE ≠ 3 →
        (Answers (.setInterval 0 arg) s (fun g => g.umx.reqBusy = false ∧ g.get Reg.UMX_RSP_OP = 1 ∧
          g.get Reg.UMX_RSP_DONE = 1 ∧
          (1 ≤ arg.toNat → arg.toNat ≤ 3600 → g.get Reg.UMX_RSP_STATUS = 0 ∧ g.get Reg.UMX_CFG_NEXT = arg.toNat) ∧
          (arg.toNat = 0 ∨ 3600 < arg.toNat → g.get Reg.UMX_RSP_STATUS = 1 ∧ g.reg Reg.UMX_CFG = s.fab.reg Reg.UMX_CFG) ∧
          RegsBut [Reg.UMX_RSP, Reg.UMX_CFG] s.fab g ∧ g.mem = s.fab.mem)) ∧
        Answers (.update 0 arg) s (fun g => g.get Reg.UMX_RSP_OP = 2 ∧ g.mem = s.fab.mem ∧
          (arg.toNat < 0x2810000 ∨ flashSize < arg.toNat + 0x100000 → g.get Reg.UMX_RSP_STATUS = 1 ∧
            g.get Reg.UMX_RSP_DONE = 1 ∧ g.umx.upd = s.fab.umx.upd) ∧
          (0x2810000 ≤ arg.toNat → arg.toNat + 0x100000 ≤ flashSize →
            (s.fab.get Reg.UMX_STAT_SEALOPEN = 0 → g.get Reg.UMX_RSP_STATUS = 2 ∧ g.get Reg.UMX_RSP_DONE = 1) ∧
            (s.fab.get Reg.UMX_STAT_SEALOPEN = 1 → (s.fab.umxAccept 2 arg.toNat).umxImageOk arg.toNat = false →
              g.get Reg.UMX_RSP_STATUS = 4 ∧ g.get Reg.UMX_RSP_DONE = 1) ∧
            (s.fab.get Reg.UMX_STAT_SEALOPEN = 1 → (s.fab.umxAccept 2 arg.toNat).umxImageOk arg.toNat = true →
              g.get Reg.UMX_RSP_DONE = 0 ∧ g.umx.reqBusy = true ∧ g.umx.upd = some arg.toNat ∧
              g.get Reg.UMX_STAT_STATE = 2)))) ∧
      (s.fab.umx.upd = none → Becomes .enclaveRestart s s.fab) ∧
      (∀ o, s.fab.umx.upd = some o → Answers .enclaveRestart s (fun g => g.umx.upd = none ∧ g.umx.reqBusy = false ∧
        g.get Reg.UMX_RSP_OP = 2 ∧ g.get Reg.UMX_RSP_STATUS = 0 ∧ g.get Reg.UMX_RSP_DONE = 1 ∧
        (g.get Reg.UMX_STAT_STATE = 1 ∨ g.get Reg.UMX_STAT_STATE = 3) ∧ g.mem = s.fab.mem)))

/-- Checkpoints, usage records, the seal, and requests to the enclave. -/
def Obligations.EnclaveRecords : Prop :=
  Sys2Proof.Claims.CheckpointsAndRecords ∧ Sys2Proof.Claims.SealAndRequests

/-- Decoding an encoded word gives it back, and any error in one symbol is corrected at its place. The code of R267, R268, R269
and R270. -/
def Obligations.ErrorCode : Prop :=
  (∀ (ddr : Bool) (d j x : Nat), d < 2 ^ 128 → j < 20 → 1 ≤ x → x < 256 →
    (rsDecode ddr (rsEncode d)).out = .clean ∧ (rsDecode ddr (rsEncode d)).word = rsEncode d ∧
    (rsDecode ddr (rsEncode d ^^^ BitVec.ofNat 160 (x * 2 ^ (8 * j)))).out = .corrected ∧
    (rsDecode ddr (rsEncode d ^^^ BitVec.ofNat 160 (x * 2 ^ (8 * j)))).word = rsEncode d ∧
    (rsDecode ddr (rsEncode d ^^^ BitVec.ofNat 160 (x * 2 ^ (8 * j)))).sym = j) ∧
  (rsDecode false poisonWord).out = .poison ∧ (rsDecode true poisonWord).out = .poison ∧
  (rsDecode true zeroMarker).out = .zero ∧ (rsDecode false zeroMarker).out = .uncorrectable

/-- The guarantees of the decoder for errors in one, two and three symbols and for reserved words: R271. -/
def Obligations.SymbolGuarantees : Prop :=
  ∀ (ddr : Bool) (d j1 j2 j3 x1 x2 x3 : Nat), d < 2 ^ 128 → j1 < 20 → j2 < 20 → j3 < 20 → j1 ≠ j2 → j1 ≠ j3 → j2 ≠ j3 →
    1 ≤ x1 → x1 < 256 → x2 < 256 → x3 < 256 →
    ((rsDecode ddr (rsEncode d ^^^ BitVec.ofNat 160 (x1 * 2 ^ (8 * j1)))).out = .corrected ∧
      (rsDecode ddr (rsEncode d ^^^ BitVec.ofNat 160 (x1 * 2 ^ (8 * j1)))).word = rsEncode d) ∧
    (1 ≤ x2 → (rsDecode ddr (rsEncode d ^^^ BitVec.ofNat 160 (x1 * 2 ^ (8 * j1)) ^^^ BitVec.ofNat 160 (x2 * 2 ^ (8 * j2)) ^^^
      BitVec.ofNat 160 (x3 * 2 ^ (8 * j3)))).out = .uncorrectable) ∧
    ∀ w, w = poisonWord ∨ w = zeroMarker →
      (rsDecode ddr (w ^^^ BitVec.ofNat 160 (x1 * 2 ^ (8 * j1)) ^^^ BitVec.ofNat 160 (x2 * 2 ^ (8 * j2)))).out = .uncorrectable
end

