-- ==== Sys2Proof/Tests/Slice0.lean ====
section
/-! SUPPORT. Tests of the model. Each is one command, or a few, on a small state; the values expected come from the rules cited at
the meanings. They also show that the hypotheses of each statement's clauses are met by some state and operands, at a boundary
value where there is a range. -/

open Sys2Proof Sys2Proof.Machine
namespace Sys2Proof.Tests

set_option Elab.async false

/-- The state right after reset with its fabric changed by `g`. -/
def S (g : Fab → Fab) : State := { State.reset with fab := g State.reset.fab }

/-- Fields of device registers set one after another. -/
def sets (l : List (Fld × Nat)) (f : Fab) : Fab := l.foldl (fun f x => f.set x.1 x.2) f

/-- Does a command answer a next state that keeps the queue and whose fabric passes a check? -/
def ans (c : Instr) (s : State) (P : Fab → Bool) : Bool :=
  match exec c s with
  | .next t => decide (t.pending = s.pending) && P t.fab
  | _ => false

/-- Does a command answer the next state whose fabric is `f`? -/
def bec (c : Instr) (s : State) (f : Fab) : Bool := ans c s (fun g => decide (g = f))

/-- Does a check hold of every register address that some register or field of the list names? -/
def same (l : List Nat) (f g : Fab) : Bool :=
  (f.regs ++ g.regs).all (fun c => l.contains c.1 || g.reg c.1 == f.reg c.1)

/-- Partition 0 exists on host port 0 with block 0 and its engine 0 active, and further fields. -/
def part0 (l : List (Fld × Nat)) : Fab :=
  sets ([(Reg.HP_PCFG_VALID 0, 1), (Reg.MEM_OWNER_OWN 0, 0), (⟨Reg.HP_PACTIVE 0 0, 0, 64⟩, 1), (Reg.SQ_TREE_PARENT 0, 0x1F)] ++ l)
    State.reset.fab

/-- The state of a fabric. -/
def st (f : Fab) : State := ⟨f, []⟩

/-! ### The step, the queue and reset -/

theorem test_empty_queue : State.reset.pending = [] ∧ State.reset.fab.pwr.st ≠ 2 ∧
    (match step State.reset with | .next t => t.fab.reg Reg.PWR_ETIME == 1 | _ => false) = true := by decide +kernel
theorem test_next : exec (.refresh 0) State.reset = .next State.reset := by rfl
theorem test_ill_formed : (Instr.ehalt 0 192).wf = false ∧ exec (.ehalt 0 192) State.reset = .refused .noSuchUnit := ⟨by decide, rfl⟩
theorem test_well_formed : (Instr.ehalt 0 191).wf = true ∧ (Instr.refresh 3).wf = true := by decide
theorem test_inv_step : State.reset.Inv ∧ ∃ t, step State.reset = .next t := ⟨⟨rfl, rfl⟩, _, rfl⟩
theorem test_reset_source : isSource 254 = true ∧ State.reset.fab.get (Reg.ISC_SCFG_EN 254) = 1 ∧
    State.reset.fab.get (Reg.ISC_SSTAT_STATE 254) = 0 := by decide +kernel
theorem test_fields_apart : ∀ x y : Fld, x = ⟨Reg.SQ_CTL 0, 0, 32⟩ → y = ⟨Reg.SQ_CTL 0, 32, 32⟩ →
    x.lo + x.w ≤ 64 ∧ y.lo + y.w ≤ 64 ∧ x.lo + x.w ≤ y.lo := by
  intro x y hx hy; subst hx; subst hy; decide
theorem test_memory_range : State.reset.fab.err = [] ∧ (ddrBase - 8) + 8 ≤ ddrBase ∧
    ((State.reset.fab.write 2 (ddrBase - 8) 8 0x1122).fab.read 0 (ddrBase - 8) 8).data = 0x1122 := by decide +kernel
/-! ### Engines -/

/-- Engine 0 runs a share's step program. -/
def run0 : State := S (fun f => f.updEng 0 (fun e => { e with phase := .running }))

theorem test_bundle_issues : run0.fab.engOn 0 = true ∧ (run0.fab.engine 0).phase = .running ∧
    (run0.fab.engine 0).halted = false ∧ (run0.fab.engine 0).trap = none ∧ (run0.fab.engine 0).haltReq = none ∧
    run0.fab.lockStep 0 = false ∧ (run0.fab.engine 0).brkHit = none ∧ (run0.fab.engine 0).firstErr = none ∧
    (run0.fab.plan 0).t.isSome = true := by decide +kernel
theorem test_bundle_arrives : (match (run0.fab.plan 0).t with
    | some t => let g := (run0.fab.plan 0).arrive 0 t
      (g.engine 0).phase == .running && !(run0.fab.plan 0).avenue (g.engine 0) && !((run0.fab.plan 0).meets g 0 ((run0.fab.plan 0).reads (g.engine 0) t)).1
    | none => false) = true := by decide +kernel
/-- Engine 0 runs, and the tester has its first instruction memory bank. -/
def lent0 : State := st (sets [(Reg.TEST_STAT_ACTIVE, 1), (Reg.TEST_POS_ADDR, 0)] run0.fab)
theorem test_bundle_waits : (match (lent0.fab.plan 0).t with
    | some t => let g := (lent0.fab.plan 0).arrive 0 t
      (g.engine 0).phase == .running && ((lent0.fab.plan 0).meets g 0 ((lent0.fab.plan 0).reads (g.engine 0) t)).1
    | none => false) = true := by decide +kernel

theorem test_tlog_word : (0xFF000001 : Nat) < 2 ^ 32 ∧ (0xFF000001 : Nat).testBit 31 = true ∧
    decodeN true 0xFF000001 = some (.tlog 0xFF 0 0 0) ∧ (tlog 0xCA (BitVec.ofNat 256 5) 6 1).toNat = 4 := by decide +kernel
theorem test_tlx_word : (0x6B000000 : Nat) < 2 ^ 32 ∧ (0x6B000000 : Nat).testBit 31 = false ∧
    (0x6B000000 : Nat).testBit 30 = true ∧ (0x6B000000 : Nat).testBit 7 = false ∧ (0x6B000000 : Nat).testBit 1 = false ∧
    (decodeN false 0x6B000000).isSome = true := by decide +kernel
theorem test_tlx_completion : (tlx 0xCA ⟨0, 1⟩ ⟨1, 0⟩ ⟨1, 0⟩).v.getLsbD 0 = true ∧ (tlx 0xCA ⟨0, 1⟩ ⟨1, 0⟩ ⟨0, 0⟩).u.getLsbD 0 = true ∧
    (255 : Nat) < 256 := by decide +kernel
theorem test_chain_slots : ((2 : Nat) = 2 ∨ (2 : Nat) = 3) ∧ (chain false (BitVec.allOnes 64) 0 true) = (0, true) ∧
    (chain true 0 0 true) = (BitVec.allOnes 64, true) := by decide +kernel
theorem test_saturation : (1 : Nat) ≤ 1 ∧ fitS true 8 128 = (127#8, true) ∧ fitS true 8 (-129) = (0x80#8, true) ∧
    fitU true 8 (-1) = (0, true) ∧ fitU true 8 256 = (255, true) ∧ fitS false 8 128 = (0x80#8, false) := by decide +kernel

/-- Engine 0 counts an event whose counter is 8 short of its wrap. -/
def count0 : State := st ((part0 []).updEng 0 (fun e => ((e.set Ecs.PERFCTL_EN 15).set Ecs.PERFSEL_EV3 1).set (Ecs.PERF_COUNT 3) (2 ^ 48 - 8) |>.set Ecs.PERFCTL_OVFIRQ 8))
theorem test_counter_wraps : count0.fab.engOn 0 = true ∧ (count0.fab.engine 0).perfWraps 3 8 = true ∧
    ans (.perfCounterWrap 0 3 8) count0 (fun g => (g.engine 0).get (Ecs.PERF_COUNT 3) == 0 &&
      (g.engine 0).get Ecs.PERFCTL_OVF == 8 && g.inbox == [(73, true, true)]) = true := by decide +kernel

/-- A Quince operation of engine 0 that ends at ECLK 9. -/
def quince0 : State := st (State.reset.fab.updEng 0 (fun e => { e with
  quince := some ⟨0, false, 0, 0, 0, 3, 1, 9, 0, 0, none, false⟩, pend := [⟨9, 1, 9, .a 3, 7⟩] }))
theorem test_quince_result : quince0.fab.engOn 0 = true ∧ (quince0.fab.engine 0).quince = some ⟨0, false, 0, 0, 0, 3, 1, 9, 0, 0, none, false⟩ ∧
    ans (.quinceResult 0) quince0 (fun g => (g.engine 0).rA 3 == 7 && (g.engine 0).quince.isNone) = true := by decide +kernel

/-- A far load of engine 0, of 8 bytes of engine 1's DM. -/
def far0 : State := st ((State.reset.fab.write 2 0x100000 8 0xAB).fab.updEng 0 (fun e => { e with
  far := [⟨0, 0x100000, 8, .a 4, false, 3, 0, none⟩] }))
theorem test_far_load : far0.fab.engOn 0 = true ∧ (far0.fab.engine 0).far[0]? = some ⟨0, 0x100000, 8, .a 4, false, 3, 0, none⟩ ∧
    (3 : Nat) < 4 ∧ far0.fab.farBefore 0 0x100000 3 = false ∧ far0.fab.borrowed 0x100000 = false ∧ (far0.fab.read 1 0x100000 8).bad = none ∧
    ans (.farLoadResult 0 0 4) far0 (fun g => ((g.engine 0).pend.map (fun x => (x.due, x.dst, x.val))) == [(4, .a 4, 0xAB)]) = true := by
  decide +kernel

/-- A far store of engine 0 on its way, in a partition. -/
def farSt0 : State := st { part0 [] with farSt := [⟨0, 0x8000, 4, 0x55, 2⟩] }
theorem test_far_store : farSt0.fab.active = true ∧ farSt0.fab.farSt[0]? = some ⟨0, 0x8000, 4, 0x55, 2⟩ ∧
    farSt0.fab.farBefore 0 0x8000 2 = false ∧ farSt0.fab.borrowed 0x8000 = false ∧ (2 : Nat) < 3 ∧ farSt0.fab.engPart 0 = some 0 ∧
    ans (.farStorePerformed ⟨0, 3⟩) farSt0 (fun g => byteAt g.mem 0x8000 == 0x55 && g.farSt == []) = true := by decide +kernel

/-- A put of engine 0 to its own exchange area, visible at ECLK 6. -/
def put0 : State := st { part0 [] with puts := [⟨some 0, 0, 0, 32, 0x77, 6, false, [], none, false⟩] }
theorem test_put_lands : put0.fab.active = true ∧ put0.fab.puts[0]? = some ⟨some 0, 0, 0, 32, 0x77, 6, false, [], none, false⟩ ∧
    put0.fab.puts.any (fun v => v.tgt == 0 && v.lost.isNone && (v.vis < 6 || (v.vis == 6 && v.rank < 0))) = false ∧
    put0.fab.readFirst 0 6 = false ∧ put0.fab.borrowed (arcBase 0) = false ∧ (0 : Nat) < 0x1800 ∧
    Store.get 0 put0.fab.pbT 0 ≤ 6 ∧ put0.fab.putOk ⟨some 0, 0, 0, 32, 0x77, 6, false, [], none, false⟩ = true ∧
    (put0.fab.engine 0).portA = [] ∧ put0.fab.putPart ⟨some 0, 0, 0, 32, 0x77, 6, false, [], none, false⟩ = some 0 ∧
    ans (.putVisible 0) put0 (fun g => byteAt g.mem (arcBase 0) == 0x77 && g.puts == []) = true := by decide +kernel

/-- Engine 0 has a trap waiting, cause 3 at boundary 20. -/
def trap0 : State := st (State.reset.fab.updEng 0 (fun e =>
  { e with phase := .running, trap := some ⟨3, 0, false, 0x1FFFC, false, 0x1FFFC, 0xFFFFFFFF, 0, false, 20, none⟩ }.set Ecs.TVEC_BASE 1))
theorem test_trap_entry : trap0.fab.engOn 0 = true ∧ (trap0.fab.engine 0).halted = false ∧
    (trap0.fab.engine 0).trap.isSome = true ∧ (trap0.fab.engine 0).pend = [] ∧ (trap0.fab.engine 0).ecsPend = [] ∧
    (trap0.fab.engine 0).quince = none ∧ (trap0.fab.engine 0).derr = [] ∧ (trap0.fab.engine 0).stepReq = false ∧
    (trap0.fab.engine 0).bit Ecs.TRAPSTAT_BUSY = false ∧ (trap0.fab.engine 0).phase = .running ∧
    ans (.trapEntry 0) trap0 (fun g => (g.engine 0).pc == 512 + 96 && (g.engine 0).issueAt == 28 &&
      (g.engine 0).ecsReg Ecs.TRAPPC == 0x1FFFC && (g.engine 0).ecsReg Ecs.TRAPADDR == 0xFFFFFFFF &&
      (g.engine 0).ecsReg Ecs.TRAPCAUSE == 3 && (g.engine 0).get Ecs.MODE_PRIV == 1 && (g.engine 0).get Ecs.TRAPSTAT_BUSY == 1 &&
      (g.engine 0).get Ecs.TRAPSTAT_PPRIV == (trap0.fab.engine 0).get Ecs.MODE_PRIV && (g.engine 0).get Ecs.TRAPSTAT_SH == 1) = true := by
  decide +kernel

/-- Engine 0 runs with an interrupt pending. -/
def irq0 : State := st (State.reset.fab.updEng 0 (fun e => { e with phase := .running }.set Ecs.MODE_IE 1 |>.set Ecs.INTSTAT_PEND 1))
theorem test_interrupt_entry : irq0.fab.engOn 0 = true ∧ (irq0.fab.engine 0).phase = .running ∧ (irq0.fab.engine 0).halted = false ∧
    (irq0.fab.engine 0).trap = none ∧ (irq0.fab.engine 0).haltReq = none ∧ (irq0.fab.engine 0).stepReq = false ∧
    irq0.fab.lockStep 0 = false ∧ (irq0.fab.engine 0).bit Ecs.INTSTAT_PEND = true ∧ (irq0.fab.engine 0).pendAt < 1 ∧
    ((irq0.fab.applyEcs 0 1 (fun w => w.seq ≤ (irq0.fab.engine 0).seq + 1)).engine 0).bit Ecs.MODE_IE = true ∧
    ((irq0.fab.applyEcs 0 1 (fun w => w.seq ≤ (irq0.fab.engine 0).seq + 1)).engine 0).bit Ecs.TRAPSTAT_BUSY = false ∧
    irq0.fab.intBoundary 0 1 = true ∧
    ans (.interruptEntry 0 1) irq0 (fun g => (g.engine 0).ecsReg Ecs.TRAPCAUSE == 15 && (g.engine 0).pc == 480) = true := by
  decide +kernel

/-- Engine 0 returns from its handler. -/
def rte0 : State := st (State.reset.fab.updEng 0 (fun e => { e with phase := .returning, rteAt := 9, shA := [(1, 5)] }.set Ecs.TRAPPC_PC 16
  |>.set Ecs.TRAPSTAT_SH 1 |>.set Ecs.TRAPSTAT_BUSY 1 |>.set Ecs.TRAPSTAT_PIE 1))
theorem test_return : rte0.fab.engOn 0 = true ∧ (rte0.fab.engine 0).phase = .returning ∧ (rte0.fab.engine 0).trap = none ∧
    (rte0.fab.engine 0).pend = [] ∧ (rte0.fab.engine 0).ecsPend = [] ∧ (rte0.fab.engine 0).parked = none ∧ (rte0.fab.engine 0).stepReq = false ∧
    rte0.fab.engPart 0 = none ∧
    ans (.rteReturn 0) rte0 (fun g => (g.engine 0).pc == 64 && (g.engine 0).issueAt == 17 && (g.engine 0).rA 1 == 5 &&
      (g.engine 0).get Ecs.MODE_IE == 1 && (g.engine 0).get Ecs.TRAPSTAT_BUSY == 0) = true := by decide +kernel

/-! ### Shares -/

/-- Partition 0 with its share changed. -/
def share0 (l : List (Fld × Nat)) (g : Share → Share) : Fab := (part0 l).updSh 0 g

/-- A share that starts at ECLK 100. -/
def start0 : State := st (share0 [(Reg.SQ_STAT_STATE 0, 1), (Reg.SQ_SCHED_FIRST 0, 7)] (fun x => { x with relT := some (.start, 100) }))
theorem test_release : start0.fab.active = true ∧ (start0.fab.share 0).relT = some (.start, 100) ∧ (start0.fab.share 0).force = [] ∧ (start0.fab.share 0).sBad = false ∧
    start0.fab.ringDist 0 1 (start0.fab.cons 0 1) (start0.fab.prod 0 1) = 0 ∧
    start0.fab.tblErr 0 = false ∧ start0.fab.st 0 = 1 ∧ (start0.fab.share 0).failAtResume = none ∧
    (start0.fab.share 0).cmdRedo = false ∧ (start0.fab.share 0).jOver = none ∧ (start0.fab.share 0).jHigh = false ∧
    ans (.engineRelease 0 100 false) start0 (fun g => g.st 0 == 2 && (g.engine 0).phase == .running && (g.engine 0).issueAt == 100 &&
      (g.share 0).nextB == 107 && (g.share 0).iStart == 1 && (g.engine 1) == start0.fab.engine 1) = true := by decide +kernel
/-- A share that resumes from a rollback, or from a hold. -/
def again0 (s : Nat) (k : RelKind) : State := st ((share0 [(Reg.SQ_STAT_STATE 0, s)] (fun x => { x with relT := some (k, 100) })).updEng 0
  (fun e => e.set Ecs.DCFG_ENTRY 5))
theorem test_release_again : ∀ x ∈ [(4, RelKind.rollback), (3, RelKind.hold)], (again0 x.1 x.2).fab.st 0 = x.1 ∧
    ((again0 x.1 x.2).fab.share 0).relT = some (x.2, 100) ∧ (again0 x.1 x.2).fab.tblErr 0 = false ∧
    ans (.engineRelease 0 100 true) (again0 x.1 x.2) (fun g => g.st 0 == 2 && (g.engine 0).pc == 20 &&
      (g.engine 0).issueAt == 100) = true := by decide +kernel

/-- A running share whose only engine waits at ECLK 50, with one word of state of which it wrote the first byte. -/
def cycle0 : State := st ((((share0 [(Reg.SQ_STAT_STATE 0, 2), (Reg.SQ_SCHED_L 0, 90), (Reg.SQ_SCHED_FIRST 0, 7)]
  (fun x => { x with nextB := 50, iEnd := 9, lastMk := 9 })).updEng 0 (fun e => { e with phase := .waitBoundary, written := 1 }.set Ecs.DCFG_WORDS 1)).write 2
    (arcBase 0 + 0x1800) 8 0x7766).fab.write 2 (slotBase 0 0) 8 0x2211).fab
theorem test_boundary : cycle0.fab.active = true ∧ cycle0.fab.st 0 = 2 ∧ (cycle0.fab.share 0).waitStop = false ∧
    cycle0.fab.boundaryOk 0 (cycle0.fab.curDc 0) 50 = .begins ∧ cycle0.fab.get Reg.TEST_STAT_ACTIVE = 0 ∧ cycle0.fab.endsAt 0 (cycle0.fab.curDc 0) = false ∧
    cycle0.fab.stimDone 0 (cycle0.fab.curDc 0 + 1) = true ∧ cycle0.fab.get (Reg.SQ_CTL_CAPEN 0) = 0 ∧
    (List.range 192).all (fun e => !cycle0.fab.activeIn 0 e || ((cycle0.fab.engine e).phase == .waitBoundary && (cycle0.fab.engine e).lastT < 50 &&
      (cycle0.fab.engine e).derr == [] && (cycle0.fab.engine e).nextSt == [] && (cycle0.fab.engine e).get Ecs.DCFG_WORDS ≤ 64)) = true ∧
    cycle0.fab.err = [] ∧ (cycle0.fab.share 0).jOver = none ∧
    (cycle0.fab.share 0).jHigh = false ∧ (cycle0.fab.share 0).sBad = false ∧ (cycle0.fab.share 0).ownRep = none ∧ (cycle0.fab.share 0).live < 4 ∧
    (cycle0.fab.share 0).force = [] ∧ cycle0.fab.curDc 0 < 2 ^ 64 := by decide +kernel
theorem test_boundary_effect : ans (.designCycleBoundary 0 50) cycle0 (fun g => g.get (Reg.SQ_DCN_DCN 0) == 1 && (g.engine 0).issueAt == 53 &&
    (g.engine 0).phase == .running && (g.share 0).nextB == 140 && g.st 0 == 2 && readN g.mem (slotBase 0 0) 8 == 0x2266 &&
    (List.range 64).all (fun i => byteAt g.mem (arcBase 0 + 0x1800 + i) == byteAt cycle0.fab.mem (arcBase 0 + 0x1800 + i)) &&
    (List.range 64).all (fun i => i < 32 || byteAt g.mem (slotBase 0 0 + i) == byteAt cycle0.fab.mem (slotBase 0 0 + i))) = true := by
  decide +kernel
theorem test_copy : cycle0.fab.err = [] ∧ (cycle0.fab.engine 0).get Ecs.DCFG_WORDS ≤ 64 ∧
    (let g := (cycle0.fab.copyNext 0 3).1; (cycle0.fab.copyNext 0 3).2 == false && byteAt g.mem (slotBase 0 3) == 0x66 &&
      byteAt g.mem (slotBase 0 3 + 1) == 0) = true := by decide +kernel

/-- A stimulus ring of 4 KiB that holds one entry, one row for design cycle 1. -/
def stim0 : State := st ((share0 [(Reg.SQ_STAT_STATE 0, 2), (Reg.SQ_BASE_LOG2SIZE 0 0, 12), (Reg.SQ_BASE_BASE 0 2, 1),
  (Reg.SQ_BASE_LOG2SIZE 0 2, 12), (Reg.SQ_PTR_PROD 0 0, 64)] id).write 2 ddrBase 64
    (1 + 1 * 2 ^ 77 + 1 * 2 ^ 120 + 0x99 * 2 ^ 256)).fab
theorem test_stimulus : stim0.fab.active = true ∧ stim0.fab.st 0 ≠ 0 ∧ stim0.fab.st 0 ≠ 5 ∧
    32 ≤ stim0.fab.ringDist 0 0 (stim0.fab.share 0).stRd (stim0.fab.prod 0 0) ∧
    (let r := stim0.fab.ringRead 0 0 (stim0.fab.share 0).stRd 32
     let h := stim0.fab.stimHdr 0 r.data (stim0.fab.share 0).lastSt
     h.size ≤ r.fab.ringDist 0 0 (stim0.fab.share 0).stRd (r.fab.prod 0 0) ∧ h.ok = true ∧ h.mark = false ∧ h.dcn ≤ r.fab.stimMax 0 ∧
      (r.fab.ringRead 0 0 (r.fab.ringAdv 0 0 0 32) 32).bad = none) ∧
    ans (.stimulusWrite 0) stim0 (fun g => byteAt g.mem (arcBase 0 + 0x1400) == 0x99 && (g.share 0).stRd == 64 &&
      byteAt g.mem (ddrBase + 0x1000) == 1 && (g.share 0).lastSt == 1) = true := by decide +kernel

/-! ### The Square -/

/-- Port 0 is ACTIVE and belongs to partition 0, as a child or as the parent. -/
def tree0 (l : List (Fld × Nat)) (g : Share → Share) : State :=
  st ((share0 ([(Reg.LINK_STAT_STATE 0, 6), (Reg.MEM_OWNER_OWN 24, 0), (Reg.SQ_STAT_STATE 0, 2), (Reg.SQ_TREE_SQID 0, 0x1234)] ++ l) g).updPort 0
    (fun x => { x with pos := 0 }))
/-- Port 0 leads to a child, and port 1 to the parent or to none. -/
def child0 (l : List (Fld × Nat)) (g : Share → Share) : State :=
  tree0 ([(Reg.SQ_TREE_CHILD 0, 1), (Reg.SQ_TREE_PARENT 0, 1), (Reg.MEM_OWNER_OWN 25, 0), (Reg.LINK_STAT_STATE 1, 6)] ++ l) g
/-- Port 0 leads to the parent. -/
def parent0 (l : List (Fld × Nat)) (g : Share → Share) : State := tree0 ([(Reg.SQ_TREE_PARENT 0, 0)] ++ l) g
/-- A flit of the Square for partition 0. -/
def sq0 (ty dcn t flags : Nat) : Flit := sqFlit ty 0x1234 dcn t flags

/-- The fabric once port 0 has received a flit of the Square at ECLK 5. -/
def rx0 (s : State) (ty dcn t flags : Nat) : Fab := (s.fab.rxSquare 0 5 (sq0 ty dcn t flags) ty).2
/-- Is a flit of a type accepted as a message, with the fabric as it was but for its place in the frame and the time? -/
def taken (s : State) (ty dcn t flags : Nat) : Bool :=
  (s.fab.rxSquare 0 5 (sq0 ty dcn t flags) ty).1 == some (0, ⟨dcn, t, flags⟩) &&
    decide (rx0 s ty dcn t flags = (s.fab.atPos 0 0).seen 0 5)

theorem test_reception : (child0 [] id).fab.portActive 0 = true ∧ ((child0 [] id).fab.port 0).mapBad = false ∧
    (child0 [] id).fab.portPart 0 = some 0 ∧ (rsDecode false (sq0 0x20 (2 ^ 64 - 1) (2 ^ 32 - 1) 255)).out = .clean ∧
    ctlType 0x20 = true ∧ taken (child0 [] id) 0x20 (2 ^ 64 - 1) (2 ^ 32 - 1) 255 = true := by decide +kernel
theorem test_reception_refused : (rsDecode false poisonWord).out = .poison ∧ (rsDecode false zeroMarker).out = .uncorrectable ∧
    (let w := sqFlit 0x20 0x1235 1 0 0; (rsDecode false w).out = .clean ∧ natBits (rsDecode false w).word.toNat 32 8 = 0x20 ∧
      natBits (rsDecode false w).word.toNat 40 16 ≠ (child0 [] id).fab.get (Reg.SQ_TREE_SQID 0)) ∧
    [poisonWord, zeroMarker, sqFlit 0x20 0x1235 1 0 0].all (fun w => decide ((child0 [] id).fab.rxSquare 0 7 w 0x20 = (none,
      (((child0 [] id).fab.atPos 0 0).set (Reg.LINK_ERRCNT_UE 0) 1).failInterval 0 1 ((child0 [] id).fab.curDc 0) 7))) = true := by decide +kernel
theorem test_reception_positions : (child0 [] id).fab.nextPos 0 false = some 0 ∧
    (tree0 [] id).fab.portActive 0 = true ∧ ((tree0 [] id).fab.updPort 0 (fun x => { x with pos := 136 })).nextPos 0 false = none ∧
    (rsDecode false (sq0 0x20 1 2 3 ^^^ 0x800)).out = .corrected ∧
    (((tree0 [] id).fab.updPort 0 (fun x => { x with mapBad := true })).port 0).mapBad = true := by decide +kernel
theorem test_report_up : (child0 [] id).fab.fromChild 0 0 = true ∧ taken (child0 [] id) 0x20 3 9 1 = true ∧
    (child0 [] id).fab.isRoot 0 = false ∧ bec (.report 0 5 (sq0 0x20 3 9 1)) (child0 [] id) ((rx0 (child0 [] id) 0x20 3 9 1).sendUp 0 0x20 3 9 1) = true ∧
    (child0 [] id).fab.sendUp 0 0x20 3 9 1 ≠ (child0 [] id).fab := by decide +kernel
/-- The root, with a child at port 0. -/
def root0 : State := child0 [(Reg.SQ_TREE_PARENT 0, 0x1F), (Reg.SQ_TIMING_RETRYMAX 0, 3), (Reg.SQ_INTERVAL_EARLY 0, 4)] (fun x => { x with iEnd := 50 })
theorem test_report_root : taken root0 0x20 1 9 1 = true ∧ root0.fab.isRoot 0 = true ∧ root0.fab.st 0 = 2 ∧
    root0.fab.get (Reg.SQ_CDCN_DCN 0) < 1 ∧ bec (.report 0 5 (sq0 0x20 1 9 1)) root0 (((rx0 root0 0x20 1 9 1).updSh 0 (fun x => { x with lastFail := 9, failDcn := 1 })).rootFail 0 9 1 5) = true ∧
    (root0.fab.rootFail 0 9 1 5).st 0 = 4 := by decide +kernel
theorem test_report_good : taken root0 0x20 1 0 14 = true ∧ bec (.report 0 5 (sq0 0x20 1 0 14)) root0
    ((((rx0 root0 0x20 1 0 14).updSh 0 (fun x => { x with childRep := x.childRep.put 0 ⟨1, false, 0, true, true, true⟩ })).combine 0 5).holdCheck 0 5) = true := by
  decide +kernel
/-- A share that has reported. -/
def reported0 : State := child0 [] (fun x => { x with sentUp := true, readyOwn := true })
theorem test_ready : taken reported0 0x22 9 0 0 = true ∧ reported0.fab.st 0 = 2 ∧ (reported0.fab.share 0).waitStop = false ∧
    reported0.fab.get (Reg.SQ_DCN_DCN 0) + 1 ≠ 9 ∧ (reported0.fab.share 0).sentUp = true ∧ (reported0.fab.share 0).readyChild.contains 0 = false ∧
    bec (.ready 0 5 (sq0 0x22 9 0 0)) reported0 (((rx0 reported0 0x22 9 0 0).updSh 0 (fun x => { x with readyChild := 0 :: x.readyChild })).combineReady 0 9 5) = true := by
  decide +kernel
/-- A share in a hold. -/
def inHold0 : State := child0 [(Reg.SQ_STAT_STATE 0, 3)] id
theorem test_ready_hold : taken inHold0 0x22 1 0 0 = true ∧ inHold0.fab.get (Reg.SQ_DCN_DCN 0) + 1 = 1 ∧ inHold0.fab.st 0 = 3 ∧
    (inHold0.fab.share 0).holdChild.contains 0 = false ∧
    bec (.ready 0 5 (sq0 0x22 1 0 0)) inHold0 (((rx0 inHold0 0x22 1 0 0).updSh 0 (fun x => { x with holdChild := 0 :: x.holdChild })).holdCheck 0 5) = true := by
  decide +kernel
theorem test_barrier : taken root0 0x24 1 0 0 = true ∧ root0.fab.st 0 = 2 ∧ bec (.barrier 0 5 (sq0 0x24 1 0 0)) root0
    (((rx0 root0 0x24 1 0 0).updSh 0 (fun x => { x with barChild := x.barChild.put 0 1 })).barrierTry 0 5) = true := by decide +kernel
theorem test_early : taken (child0 [] id) 0x26 1 0 0 = true ∧
    bec (.early 0 5 (sq0 0x26 1 0 0)) (child0 [] id) ((rx0 (child0 [] id) 0x26 1 0 0).sendUp 0 0x26 1 0 0) = true ∧ taken root0 0x26 1 0 0 = true ∧
    root0.fab.get (Reg.SQ_DCN_DCN 0) + root0.fab.get (Reg.SQ_INTERVAL_EARLY 0) < (root0.fab.share 0).iEnd ∧
    (root0.fab.share 0).endSent = false ∧ 0 < root0.fab.get (Reg.SQ_INTERVAL_EARLY 0) ∧
    ans (.early 0 5 (sq0 0x26 1 0 0)) root0 (fun g => (g.share 0).iEnd == 4 && (g.share 0).endSent &&
      (g.share 0).forcedEnd.contains 4) = true ∧
    ans (.early 0 5 (sq0 0x26 1 0 0)) (child0 [(Reg.SQ_TREE_PARENT 0, 0x1F)] (fun x => { x with endSent := true })) (fun g => (g.share 0).iEnd == 0) = true := by
  decide +kernel

theorem test_decide : (parent0 [] id).fab.fromParent 0 0 = true ∧ taken (parent0 [] id) 0x21 0 70 1 = true ∧
    (∀ l ∈ [[], [(Reg.SQ_STAT_STATE 0, 4)]], bec (.decide 0 5 (sq0 0x21 0 70 1)) (parent0 l id)
      ((((rx0 (parent0 l id) 0x21 0 70 1).sendDown 0 0x21 0 70 1).applyDecide 0 0 70 1 5).readyCheck 0 5) = true) := by decide +kernel
theorem test_go : taken (parent0 [(Reg.SQ_SCHED_L 0, 1), (Reg.SQ_SCHED_FIRST 0, 1)] id) 0x23 1 70 0 = true ∧
    (parent0 [(Reg.SQ_SCHED_L 0, 1), (Reg.SQ_SCHED_FIRST 0, 1)] id).fab.goVoid 0 = false ∧
    (parent0 [] id).fab.eclkOf 0 5 70 = 70 ∧ (parent0 [] id).fab.goVoid 0 = true ∧
    ∀ x ∈ [(1, some (RelKind.start, 70), some 70), (2, none, some 70), (3, some (RelKind.hold, 70), none), (5, none, none)],
      ans (.go 0 5 (sq0 0x23 1 70 0)) (parent0 [(Reg.SQ_SCHED_L 0, 1), (Reg.SQ_SCHED_FIRST 0, 1), (Reg.SQ_STAT_STATE 0, x.1)] id)
        (fun g => (g.share 0).relT == x.2.1 && (g.share 0).goNext == x.2.2 && g.st 0 == x.1) = true := by decide +kernel
theorem test_square_release : taken (parent0 [] id) 0x25 1 0 0 = true ∧
    ans (.squareRelease 0 5 (sq0 0x25 1 0 0)) (parent0 [] id) (fun g => (g.share 0).relDcn == some 1 && (g.share 0).relAt == 5) = true := by decide +kernel
theorem test_end : taken (parent0 [] (fun x => { x with iEnd := 9 })) 0x27 9 0 0 = true ∧ (parent0 [] id).fab.get (Reg.SQ_DCN_DCN 0) < 1 ∧
    ans (.sqEnd 0 5 (sq0 0x27 1 0 0)) (parent0 [] (fun x => { x with iEnd := 9 })) (fun g => (g.share 0).iEnd == 1 && (g.share 0).forcedEnd == [1]) = true ∧
    (parent0 [(Reg.SQ_STAT_STATE 0, 4)] id).fab.st 0 = 4 ∧
    ans (.sqEnd 0 5 (sq0 0x27 1 0 0)) (parent0 [(Reg.SQ_STAT_STATE 0, 4)] id) (fun g => (g.share 0).forcedEnd == [1]) = true := by decide +kernel
theorem test_halt : taken (parent0 [] id) 0x28 1 6 0 = true ∧
    ans (.halt 0 5 (sq0 0x28 1 6 0)) (parent0 [] id) (fun g => g.st 0 == 5 && g.get (Reg.SQ_STAT_HALTCAUSE 0) == 6 &&
      decide (g = (rx0 (parent0 [] id) 0x28 1 6 0).halt 0 6)) = true := by decide +kernel

/-- A share whose report is out, in barrier mode, with a time limit. -/
def late0 : State := child0 [(Reg.SQ_TIMING_TIMEOUT 0, 1), (Reg.SQ_CTL_RUNMODE 0, 1)]
  (fun x => { x with ownRep := some ⟨1, false, 0, false, false, false⟩, barSent := true })
theorem test_timeouts : late0.fab.st 0 = 2 ∧ late0.fab.get (Reg.SQ_TIMING_TIMEOUT 0) ≠ 0 ∧ late0.fab.anyHalted 0 = false ∧
    (late0.fab.share 0).ownRep.isSome = true ∧ late0.fab.barrierMode 0 = true ∧ (late0.fab.share 0).barSent = true ∧
    (late0.fab.share 0).relDcn ≠ some (late0.fab.curDc 0) ∧ bec (.decisionTimeout 0) late0 (late0.fab.halt 0 5) = true ∧
    bec (.stepTimeout 0 8) late0 (late0.fab.failInterval 0 9 1 8) = true := by decide +kernel

/-- A share with a pending snapshot in slot 2 for design cycle 5. -/
def snap0 (h : Option Nat) : Fab := share0 [(Reg.SQ_STAT_STATE 0, 2), (Reg.SQ_DCN_DCN 0, 5), (Reg.SQ_CDCN_DCN 0, 3), (Reg.SQ_STAT_RETRY 0, 2)]
  (fun x => { x with pendS := some 2, pendDcn := 5, held := h, prior := h })
theorem test_commit : ((snap0 none).share 0).pendS = some 2 ∧ ((snap0 (some 3)).share 0).held = some 3 ∧ ((snap0 (some 3)).share 0).prior = some 3 ∧
    (let g := (snap0 none).commit 0; g.get (Reg.SQ_CDCN_DCN 0) == 5 && (g.share 0).comm == 2 && (g.share 0).prior == some 1 &&
      g.get (Reg.SQ_PRIOR_DCN 0) == 3 && g.get (Reg.SQ_STAT_RETRY 0) == 0 && g.get (Reg.SQ_STAT_PRIORV 0) == 1 && (g.share 0).live == 0) = true ∧
    (((snap0 (some 3)).commit 0).share 0).prior = none ∧ ((snap0 (some 3)).share 0).comm = 1 ∧ (((snap0 (some 1)).commit 0).share 0).prior = some 1 := by decide +kernel

/-- A share with one word of state, live 0x11 and committed 0x22, and a result in flight. -/
def back0 : Fab := ((((share0 [(Reg.SQ_STAT_STATE 0, 2), (Reg.SQ_DCN_DCN 0, 5), (Reg.SQ_CDCN_DCN 0, 3)] id).updEng 0 (fun e =>
  { e with phase := .running, pend := [⟨9, 1, 0, .a 3, 7⟩], written := 1 }.set Ecs.DCFG_WORDS 1)).write 2 (slotBase 0 0) 8 0x11).fab.write 2
    (slotBase 0 1) 8 0x22).fab
theorem test_rollback : (back0.restore 0).2 = none ∧ back0.err = [] ∧ (back0.share 0).comm < 4 ∧ (back0.share 0).live < 4 ∧
    (back0.share 0).comm ≠ (back0.share 0).live ∧ (∀ e, e < 192 → (back0.engine e).get Ecs.DCFG_WORDS ≤ 64) := by decide +kernel
theorem test_rollback_effect : (let g := back0.rollback 0 70; g.st 0 == 4 && g.get (Reg.SQ_DCN_DCN 0) == 3 && (g.share 0).relT == some (.rollback, 70) &&
      (g.engine 0).phase == .unreleased && (g.engine 0).pend == [] && (g.engine 0).written == 0 &&
      readN g.mem (slotBase 0 0) 8 == 0x22 && readN g.mem (slotBase 0 1) 8 == 0x22) = true := by decide +kernel
theorem test_share_halts : (part0 []).st 0 = 0 ∧ (part0 []).halt 0 15 = part0 [] ∧ back0.st 0 ≠ 0 ∧ back0.st 0 ≠ 5 ∧
    (let g := back0.halt 0 15; g.st 0 == 5 && g.get (Reg.SQ_STAT_HALTCAUSE 0) == 15 && g.get (Reg.SQ_DCN_DCN 0) == 3 &&
      g.inbox.contains (25, true, true) && (g.engine 0).phase == .unreleased && (g.share 0).relT == none) = true := by decide +kernel
theorem test_root_failure : root0.fab.isRoot 0 = true ∧ root0.fab.st 0 = 2 ∧ (root0.fab.share 0).failSent = false ∧
    (root0.fab.failInterval 0 9 1 5).get (Reg.SQ_STAT_RETRY 0) = 1 ∧ (root0.fab.failInterval 0 9 1 5).st 0 = 4 ∧
    ((root0.fab.set (Reg.SQ_STAT_RETRY 0) 3).failInterval 0 9 1 5).get (Reg.SQ_STAT_HALTCAUSE 0) = 1 ∧
    ((root0.fab.set (Reg.SQ_STAT_RETRY 0) 3).failInterval 0 7 1 5).st 0 = 4 ∧
    (root0.fab.failInterval 0 6 1 5).get (Reg.SQ_STAT_HALTCAUSE 0) = 7 := by decide +kernel
theorem test_root_overflow : (let g := root0.fab.updSh 0 (fun x => { x with iStart := 1 })
    g.get (Reg.SQ_CDCN_DCN 0) + 1 = 1 && (g.rootRollback 0 6 5).st 0 == 4 && (g.failInterval 0 6 3 5).st 0 == 4 &&
      ((g.failInterval 0 6 3 5).share 0).forcedEnd.contains 2) = true := by decide +kernel

/-- A share at rest in barrier mode with a link port. -/
def rest0 (l : List (Fld × Nat)) : State := st (part0 ([(Reg.SQ_CTL_RUNMODE 0, 1), (Reg.MEM_OWNER_OWN 39, 0), (Reg.HP_PCFG_FEAT 0, 0x1FFF)] ++ l))
theorem test_go_control : (rest0 []).fab.st 0 = 0 ∧ (rest0 []).fab.bit (Reg.HP_PCFG_VALID 0) = true ∧ (rest0 []).fab.barrierMode 0 = true ∧
    (rest0 []).fab.goVoid 0 = false ∧ (rest0 []).fab.blocks 0 = [0] ∧ (rest0 []).fab.portPart 15 = some 0 ∧
    (rest0 []).fab.tablesOk 0 15 = true ∧ ans (.sqCtlGo 0 3) (rest0 []) (fun g => g.st 0 == 1 && g.get (Reg.LINK_STAT_TBLERR 15) == 0 &&
      same [Reg.SQ_STAT 0, Reg.LINK_STAT 15] (rest0 []).fab g) = true ∧
    ans (.sqCtlGo 0 3) (rest0 [(Reg.LINK_TBL_RXCNT 15, 1)]) (fun g => g.st 0 == 1 && g.get (Reg.LINK_STAT_TBLERR 15) == 1) = true := by
  decide +kernel
theorem test_stop_control : [1, 4].all (fun n => (rest0 [(Reg.SQ_STAT_STATE 0, n)]).fab.st 0 == n &&
    ans (.sqCtlStop 0) (rest0 [(Reg.SQ_STAT_STATE 0, n)]) (fun g => (g.share 0).stopReq)) = true ∧
    ((rest0 []).fab.share 0).stopSent = false := by decide +kernel
theorem test_hold_control : (rest0 []).fab.st 0 ≠ 3 ∧ bec (.sqCtlHoldreq 0 true 3) (rest0 []) ((rest0 []).fab.set (Reg.SQ_CTL_HOLDREQ 0) 1) = true := by
  decide +kernel
theorem test_clear_control : (rest0 [(Reg.SQ_STAT_STATE 0, 5)]).fab.st 0 = 5 ∧ ans (.sqCtlClear 0) (rest0 [(Reg.SQ_STAT_STATE 0, 5)])
    (fun g => g.st 0 == 0 && g.inbox == [(25, false, true)]) = true := by decide +kernel
theorem test_capture_control : (rest0 []).fab.partFeat 0 11 = true ∧
    bec (.sqCtlCapen 0 true) (rest0 []) ((rest0 []).fab.set (Reg.SQ_CTL_CAPEN 0) 1) = true := by decide +kernel
theorem test_mode_control : (rest0 []).fab.partFeat 0 2 = true ∧ (rest0 []).fab.get (Reg.HP_PCFG_DX48 0) = 0 ∧
    bec (.sqCtlRunmode 0 true) (rest0 []) ((rest0 []).fab.set (Reg.SQ_CTL_RUNMODE 0) 1) = true ∧
    bec (.sqCtlRunmode 0 false) (rest0 [(Reg.SQ_STAT_STATE 0, 5)]) ((rest0 [(Reg.SQ_STAT_STATE 0, 5)]).fab.set (Reg.SQ_CTL_RUNMODE 0) 0) = true := by
  decide +kernel
theorem test_dcn_control : ans (.sqDcnWrite 0 (BitVec.allOnes 64)) (rest0 []) (fun g => g.get (Reg.SQ_DCN_DCN 0) == 2 ^ 64 - 1 &&
    g.get (Reg.SQ_CDCN_DCN 0) == 2 ^ 64 - 1 && same [Reg.SQ_DCN 0, Reg.SQ_CDCN 0] (rest0 []).fab g) = true := by decide +kernel
theorem test_jreset_control : ans (.sqCtlJreset 0) (st ((rest0 [(Reg.SQ_PTR_PROD 0 3, 5), (Reg.SQ_STAT_PRIORV 0, 1)]).fab.updSh 0 (fun x =>
    { x with prior := some 2, held := some 2, comm := 3 }))) (fun g => g.prod 0 3 == 0 && g.get (Reg.SQ_STAT_PRIORV 0) == 0 &&
      (g.share 0).prior == none && (g.share 0).held == none && (g.share 0).comm == 3) = true := by decide +kernel
theorem test_ring_control : [0, 1, 2, 3].all (fun q => bec (.ringPtrWrite 0 q 0xFFFFFFE0 3) (rest0 [])
    (if q < 2 then (rest0 []).fab.set (Reg.SQ_PTR_PROD 0 q) 0xFFFFFFE0 else (rest0 []).fab.set (Reg.SQ_PTR_CONS 0 q) 0xFFFFFFE0)) = true := by
  decide +kernel

/-- A share with design cycle 3 committed, 2 prior in slot 2 and 5 pending. -/
def view0 (d : Nat) : State := st ((rest0 [(Reg.SQ_CDCN_DCN 0, 3), (Reg.SQ_PRIOR_DCN 0, 2), (Reg.SQ_VIEW_HOLD_DCN 0, d)]).fab.updSh 0 (fun x =>
  { x with pendS := some 3, pendDcn := 5, prior := some 2 }))
theorem test_hold_request : (view0 3).fab.partFeat 0 10 = true ∧
    ans (.viewHoldRequest 0 true) (view0 3) (fun g => g.get (Reg.SQ_VIEW_CTL_GRANTED 0) == 1 && (g.share 0).held == some 1 && (g.share 0).heldDcn == 3) = true ∧
    ans (.viewHoldRequest 0 true) (view0 2) (fun g => g.get (Reg.SQ_VIEW_CTL_GRANTED 0) == 1 && (g.share 0).held == some 2 && (g.share 0).heldDcn == 2) = true ∧
    ans (.viewHoldRequest 0 true) (view0 5) (fun g => g.get (Reg.SQ_VIEW_CTL_GRANTED 0) == 0 && g.get (Reg.SQ_VIEW_CTL_PEND 0) == 1) = true ∧
    ans (.viewHoldRequest 0 true) (view0 4) (fun g => g.get (Reg.SQ_VIEW_CTL_REFUSED 0) == 1 && g.get (Reg.SQ_VIEW_CTL_PEND 0) == 0) = true ∧
    ans (.viewHoldRequest 0 false) (view0 4) (fun g => (g.share 0).held == none && g.get (Reg.SQ_VIEW_CTL_REQ 0) == 0) = true := by decide +kernel

/-- Committed state of partition 0: one word, committed 0x22 in slot 1, live 0x11 in slot 0, held 0x33 in slot 2. -/
def views0 (l : List (Fld × Nat)) (h : Option Nat) : State := st (((((((rest0 ([(Reg.SQ_CDCN_DCN 0, 3)] ++ l)).fab.updEng 0
  (fun e => e.set Ecs.DCFG_WORDS 1)).updSh 0 (fun x => { x with held := h, heldDcn := 2 })).write 2 (slotBase 0 0) 8 0x11).fab.write 2
    (slotBase 0 1) 8 0x22).fab.write 2 (slotBase 0 2) 8 0x33).fab)
theorem test_view_read : (views0 [] none).fab.live = true ∧ (views0 [] none).fab.pwr.st ≠ 2 ∧ (views0 [] none).fab.err = [] ∧
    ((views0 [] none).fab.master 0).all = true ∧ (0 : Nat) % 16 + 16 ≤ 16 ∧ (views0 [] none).fab.stateOk 0 0 = true ∧
    ((views0 [] none).fab.share 0).comm < 4 ∧ (views0 [] none).fab.addrOn (slotBase 0 1) = true ∧
    ans (.committedViewRead 0 0 0 16) (views0 [] none) (fun g => g.out == [.answer 0 0x22 16 false] && g.get Reg.SQ_MCVFLAGS_VALID == 1 &&
      g.get Reg.SQ_MCVLAT_DCN == 3) = true ∧
    ans (.committedViewRead 0 0 0 16) (views0 [(Reg.SQ_VIEW_CTL_GRANTED 0, 1), (Reg.SQ_MCVFLAGS_VALID, 1)] (some 2)) (fun g =>
      g.out == [.answer 0 0x33 16 false] && g.get Reg.SQ_MCVFLAGS_MIXED == 1 && g.get Reg.SQ_MCVLAT_DCN == 0) = true := by decide +kernel
theorem test_view_write : (views0 [] none).fab.st 0 = 0 ∧ (views0 [] none).fab.stateOk 0 0x20 = false ∧
    (views0 [] none).fab.addrOn (slotBase 0 0) = true ∧
    ans (.committedViewWrite 0 0 0 2 0x5544) (views0 [] none) (fun g => readN g.mem (slotBase 0 0) 8 == 0x5544 &&
      readN g.mem (slotBase 0 1) 8 == 0x5544 && readN g.mem (slotBase 0 2) 8 == 0x33 && g.regs == (views0 [] none).fab.regs) = true ∧
    bec (.committedViewWrite 0 0 0x20 2 0x5544) (views0 [] none) (views0 [] none).fab = true ∧
    bec (.committedViewWrite 0 0 0 2 0x5544) (views0 [(Reg.SQ_STAT_STATE 0, 1)] none) (views0 [(Reg.SQ_STAT_STATE 0, 1)] none).fab = true := by
  decide +kernel

/-! ### Memory -/

/-- Unit 47 with an owner; the sweep is done. -/
def own0 (isD : Bool) (i o : Nat) (l : List (Fld × Nat)) : State := st (sets ([(ownFld isD i, o), (Reg.DDR_STAT_CAP, 1), (Reg.DDR_STAT_SET, 15),
  (Reg.DDR_SWEEP_WM, 0x10000000)] ++ l) State.reset.fab)
theorem test_owner_other : bec (.memOwnerWrite 6 false 47 3) (own0 false 47 8 []) ((own0 false 47 8 []).fab.set Reg.MEM_OWNSTAT_OWNERR 1) = true := by decide +kernel
theorem test_owner_free : (own0 true 15 8 []).fab.swept 15 = true ∧ (own0 true 16 8 []).fab.swept 16 = false ∧
    bec (.memOwnerWrite 0 true 15 7) (own0 true 15 8 []) ((own0 true 15 8 []).fab.set (ownFld true 15) 7) = true ∧
    bec (.memOwnerWrite 0 true 16 7) (own0 true 16 8 []) ((own0 true 16 8 []).fab.set Reg.MEM_OWNSTAT_OWNERR 1) = true ∧
    bec (.memOwnerWrite 0 false 47 8) (own0 false 47 8 []) (own0 false 47 8 []).fab = true ∧
    bec (.memOwnerWrite 0 false 47 9) (own0 false 47 8 []) ((own0 false 47 8 []).fab.set Reg.MEM_OWNSTAT_OWNERR 1) = true := by decide +kernel
theorem test_owner_taken : (own0 false 47 7 []).fab.runs 7 = false ∧ (own0 false 47 7 [(Reg.SQ_STAT_STATE 7, 2)]).fab.runs 7 = true ∧
    bec (.memOwnerWrite 0 false 47 7) (own0 false 47 7 []) (own0 false 47 7 []).fab = true ∧
    bec (.memOwnerWrite 0 false 47 8) (own0 false 47 7 []) ((((own0 false 47 7 []).fab.abandon false 47).set (ownFld false 47) 9).set Reg.MEM_OWNSTAT_WIPING 1) = true ∧
    bec (.memOwnerWrite 0 false 47 8) (own0 false 47 7 [(Reg.SQ_STAT_STATE 7, 2)])
      ((own0 false 47 7 [(Reg.SQ_STAT_STATE 7, 2)]).fab.set Reg.MEM_OWNSTAT_OWNERR 1) = true ∧
    bec (.memOwnerWrite 0 false 47 6) (own0 false 47 7 []) ((own0 false 47 7 []).fab.set Reg.MEM_OWNSTAT_OWNERR 1) = true ∧
    bec (.memOwnerWrite 0 false 47 8) (own0 false 47 9 []) ((own0 false 47 9 []).fab.set Reg.MEM_OWNSTAT_OWNERR 1) = true := by decide +kernel
theorem test_wipe : (own0 false 23 9 []).fab.mbx.job = none ∧ (own0 false 23 9 []).fab.get (ownFld false 23) = 9 ∧
    ans (.wipeComplete false 23) (st (((own0 false 23 9 []).fab.write 2 0xBFFFFF8 8 7).fab.updEng 191 (fun e => { e with pc := 8 }))) (fun g =>
      g.get (ownFld false 23) == 8 && g.mem == [] && g.engine 191 == Engine.reset && g.inbox == [(6, true, true)] &&
      (g.decodeWord (0xBFFFFF8 / 16)).out == .clean) = true ∧
    ans (.wipeComplete true 1) (st ((own0 true 1 9 []).fab.write 2 (ddrBase + 0xFFFFFF8) 16 (2 ^ 128 - 1)).fab) (fun g =>
      g.get (ownFld true 1) == 8 && g.mem.length == 8) = true := by decide +kernel

theorem test_bank_request : (own0 false 0 0 [(Reg.SQ_STAT_STATE 0, 2)]).fab.bankHeld false 0 0 (Reg.MEM_BSTATE0_BM 0 10) = true ∧
    bec (.memBstateWrite false 0 0 0) (own0 false 0 0 [(Reg.SQ_STAT_STATE 0, 2)])
      ((own0 false 0 0 [(Reg.SQ_STAT_STATE 0, 2)]).fab.set Reg.MEM_OWNSTAT_OWNERR 1) = true ∧
    (bstateFlds false 0 0).any (fun x => (own0 false 0 0 [(Reg.SQ_STAT_STATE 0, 2)]).fab.bankHeld false 0 0 x &&
      (own0 false 0 0 [(Reg.SQ_STAT_STATE 0, 2)]).fab.get x = 2 && fget 0 x.lo 2 < 2) = true ∧
    (bstateFlds false 23 8).any (fun x => State.reset.fab.bankHeld false 23 8 x && State.reset.fab.get x = 2 && fget 1 x.lo 2 < 2) = false ∧
    ans (.memBstateWrite false 23 8 1) State.reset (fun g => Store.get 0 g.breq (Reg.MEM_BSTATE_DM 23 7 0).key == 2 &&
      Store.get 0 g.breq (Reg.MEM_BSTATE_PM 23 7).key == 1 && g.regs == []) = true ∧
    ans (.memBstateWrite true 0 0 0xFFFF) State.reset (fun g => g.breq == []) = true := by decide +kernel
/-- A BM bank that is asked to go to a state, with a byte in it. -/
def bank0 (q s : Nat) : State := st ({ ((sets [(Reg.MEM_BSTATE0_BM 0 0, s)] State.reset.fab).write 2 0x0100000000 1 9).fab with
  breq := [((Reg.MEM_BSTATE0_BM 0 0).key, q + 1)], mem := [⟨0x0100000000, 9⟩, ⟨0x0100020000, 8⟩] })
theorem test_bank_transition : bankFld 0x0100000000 = some (Reg.MEM_BSTATE0_BM 0 0) ∧ (bank0 0 2).fab.borrowed 0x0100000000 = false ∧
    Store.get 0 (bank0 0 2).fab.breq (Reg.MEM_BSTATE0_BM 0 0).key = 1 ∧
    ans (.bankTransitionComplete 0x0100000000) (bank0 0 2) (fun g => g.get (Reg.MEM_BSTATE0_BM 0 0) == 0 && g.mem == [⟨0x0100020000, 8⟩] &&
      !g.addrOn 0x0100000000 && g.breq == []) = true ∧
    ans (.bankTransitionComplete 0x0100000000) (bank0 1 2) (fun g => g.get (Reg.MEM_BSTATE0_BM 0 0) == 1 && g.mem.length == 2 &&
      !g.addrOn 0x0100000000) = true ∧
    ans (.bankTransitionComplete 0x0100000000) (bank0 2 0) (fun g => g.addrOn 0x0100000000 && g.mem == [⟨0x0100020000, 8⟩]) = true := by decide +kernel

/-- Word 0x4000 with an error in symbol 3, or beyond correction, and its repair entry. -/
def torn0 (w : Flit) (r : Repair) : State := st { State.reset.fab with err := [(0x4000, w)], repair := [(State.reset.fab.repairKey 0x40000, r)] }
theorem test_repair : (0x40000 : Nat) < 2 ^ 40 ∧
    Store.get (⟨0, false⟩ : Repair) (torn0 0xAB000000 ⟨0x40001, false⟩).fab.repair (State.reset.fab.repairKey 0x40000) = ⟨16 * 0x4000 + 1, false⟩ ∧
    isDdr (16 * 0x4000) = false ∧ (rsDecode false 0xAB000000).out = .corrected ∧
    bec (.repairWriteback 0x40000) (torn0 0xAB000000 ⟨0x40001, false⟩) State.reset.fab = true := by decide +kernel
theorem test_poison : Store.get (⟨0, false⟩ : Repair) (torn0 0xABCD0000 ⟨0x40001, true⟩).fab.repair (State.reset.fab.repairKey 0x40000) =
      ⟨16 * 0x4000 + 1, true⟩ ∧ ans (.poisonRewrite 0x40000) (torn0 0xABCD0000 ⟨0x40001, true⟩) (fun g => (g.decodeWord 0x4000).out == .poison &&
      g.repair == [] && g.regs == []) = true := by decide +kernel

/-- The scrubber at word 0x100000, which holds `w`. -/
def scrub0 (w : Flit) : State := st { sets [(Reg.SCRUB_CTL_SRAM_EN, 1), (Reg.SCRUB_POS_SRAM_ADDR, 0x100000)] State.reset.fab with err := Store.set 0 [] 0x10000 w }
theorem test_scrub : (scrub0 0).fab.bit Reg.SCRUB_CTL_SRAM_EN = true ∧ (scrub0 0).fab.scrubNext false 0x100000 = some 0x100000 ∧
    (scrub0 0).fab.unswept 0x100000 = false ∧ (scrub0 0).fab.wipingAt 0x100000 = false ∧ (scrub0 0).fab.borrowed 0x100000 = false ∧
    ans (.scrubWord false) (scrub0 0) (fun g => g.get Reg.SCRUB_POS_SRAM_ADDR == 0x100010) = true ∧
    ans (.scrubPassOverrun false) (scrub0 0) (fun g => g.get Reg.SCRUB_STAT_SRAM_LAG == 1) = true := by decide +kernel
theorem test_scrub_waits : (let s := st (sets [(Reg.TEST_STAT_ACTIVE, 1), (Reg.TEST_POS_ADDR, 0x100000)] (scrub0 0).fab)
    s.fab.borrowed 0x100000 && ans (.scrubWord false) s (fun g => g.get Reg.MEM_MAINT_BUSY_SCRUB == 1 && g.get Reg.SCRUB_POS_SRAM_ADDR == 0x100000)) = true := by
  decide +kernel
theorem test_scrub_outcomes : ((scrub0 0xAB000000).fab.decodeWord 0x10000).out = .corrected ∧
    ((scrub0 0xABCD0000).fab.decodeWord 0x10000).out = .uncorrectable ∧ (scrub0 0).fab.addrPart 0x100000 = none ∧
    (scrub0 0xAB000000).fab.repair = [] ∧ ((scrub0 0).fab.scrubAt 0x100000 = (scrub0 0).fab) ∧
    (let g := (scrub0 0xAB000000).fab.scrubAt 0x100000; g.get Reg.SCRUB_ERRCNT_SRAM_CE == 1 &&
      Store.get (⟨0, false⟩ : Repair) g.repair (g.repairKey 0x100000) == ⟨0x100001, false⟩) = true ∧
    (let g := (scrub0 0xABCD0000).fab.scrubAt 0x100000; g.get Reg.SCRUB_ERRCNT_SRAM_UE == 1 && (g.decodeWord 0x10000).out == .poison &&
      g.get Reg.SCRUB_UE_LOG_VALID == 1 && g.get Reg.SCRUB_UE_LOG_ADDR == 0x100000 && g.inbox == [(2, true, true)]) = true := by decide +kernel

/-- The tester at BM bank 0 of block 0, which it may visit, before a chunk or in it. -/
def tester0 (n : Nat) : State := st (sets [(Reg.TEST_CTL_EN, 1), (Reg.TEST_POS_ADDR, 0x0100000000), (Reg.TEST_ELIG0_BM 0, 1), (Reg.TEST_STAT_ACTIVE, n)] State.reset.fab)
theorem test_tester : (tester0 0).fab.bit Reg.TEST_CTL_EN = true ∧ (tester0 0).fab.testNext 0x0100000000 20000 = some 0x0100000000 ∧
    (tester0 0).fab.wipingAt 0x0100000000 = false ∧ (tester0 1).fab.testNext (chunkNext 0x0100000000) 20000 = some 0x0100000400 ∧
    (tester0 0).fab.borrowed 0x0100000000 = false ∧ (tester0 1).fab.borrowed 0x0100000000 = true ∧ (tester0 1).fab.tBad = 0 ∧
    ans (.testerChunk false ⟨0, 0, 0⟩ 0) (tester0 1) (fun g => g.get Reg.TEST_POS_ADDR == 0x0100000400 && g.get Reg.TEST_STAT_ACTIVE == 0 && g.err == []) = true := by
  decide +kernel
theorem test_tester_fails : [BitVec.ofNat 64 (2 ^ 63)].all (fun x => ans (.testerChunk true ⟨63, 19, 5⟩ x) (tester0 1) (fun g =>
      g.get Reg.TEST_STAT_FAIL == 1 && g.get Reg.TEST_FAIL_LOG_VALID == 1 && g.get Reg.TEST_FAIL_LOG_SYM == 19 && g.get Reg.TEST_FAIL_LOG_ELEM == 5 &&
      g.inbox == [(4, true, true)] && (match (chunkWords 0x0100000000)[63]? with | some wa => (g.decodeWord wa).out == .poison | none => false))) = true := by
  decide +kernel
theorem test_tester_yields : (let g := (tester0 1).fab.yieldAt 0x0100000000; g.get Reg.TEST_STAT_ABORTS == 1 && g.get Reg.TEST_POS_ADDR == 0x0100000000 &&
      g.get Reg.TEST_STAT_ACTIVE == 0 && !g.borrowed 0x0100000000) = true ∧
    ((sets [(Reg.MEM_OWNER_OWN 0, 9)] (tester0 0).fab).wipingAt 0x0100000000) = true ∧
    ans (.testerChunk false ⟨0, 0, 0⟩ 0) (st (sets [(Reg.MEM_OWNER_OWN 0, 9)] (tester0 0).fab)) (fun g => g.get Reg.MEM_MAINT_BUSY_TEST == 1 &&
      g.get Reg.TEST_STAT_ACTIVE == 0) = true := by decide +kernel

/-- A word of SCRUB.INJECT that goes: kind, symbol 2, mask 5, address 0x40000. -/
def inject (kind : Nat) : Word := BitVec.ofNat 64 (0x40000 + 2 * 2 ^ 40 + kind * 2 ^ 45 + 5 * 2 ^ 48 + 2 ^ 63)
theorem test_inject : (inject 0).getLsbD 63 = true ∧
    (let f := State.reset.fab.setReg Reg.SCRUB_INJECT (inject 0 &&& 0x00FF7FFFFFFFFFFF)
     f.injectRefused (f.get Reg.SCRUB_INJECT_ADDR) = none ∧ f.borrowed (f.get Reg.SCRUB_INJECT_ADDR) = false ∧ f.unswept (f.get Reg.SCRUB_INJECT_ADDR) = false ∧ f.get Reg.SCRUB_INJECT_KIND = 0) ∧
    (let f := State.reset.fab.setReg Reg.SCRUB_INJECT (inject 3 &&& 0x00FF7FFFFFFFFFFF); f.get Reg.SCRUB_INJECT_KIND = 3) ∧
    ans (.scrubInject 0 (inject 0)) State.reset (fun g => g.err == [(0x4000, 0x50000)]) = true ∧
    ans (.scrubInject 0 (inject 3)) State.reset (fun g => (g.decodeWord 0x4000).out == .poison) = true := by decide +kernel
theorem test_inject_waits : (let v := inject 3 ||| BitVec.ofNat 64 ddrBase
     let f := (st (sets [(Reg.DDR_STAT_CAP, 1), (Reg.DDR_STAT_SET, 1)] State.reset.fab)).fab.setReg Reg.SCRUB_INJECT (v &&& 0x00FF7FFFFFFFFFFF)
     f.injectRefused (f.get Reg.SCRUB_INJECT_ADDR) == none && f.unswept (f.get Reg.SCRUB_INJECT_ADDR) &&
      bec (.scrubInject 0 v) (st (sets [(Reg.DDR_STAT_CAP, 1), (Reg.DDR_STAT_SET, 1)] State.reset.fab)) { f with injWait := true }) = true := by decide +kernel
/-- The sweep stands at word 2 of 16 GiB. -/
def sweep0 : State := st { sets [(Reg.DDR_STAT_CAP, 1), (Reg.DDR_STAT_SET, 1), (Reg.DDR_SWEEP_WM, 2)] State.reset.fab with
  mem := [⟨ddrBase + 31, 1⟩, ⟨ddrBase + 32, 2⟩, ⟨ddrBase + 47, 3⟩, ⟨ddrBase + 48, 4⟩] }
theorem test_sweep : sweep0.fab.get Reg.DDR_SWEEP_DONE = 0 ∧ sweep0.fab.injWait = false ∧ 0 < sweep0.fab.ddrBytes ∧
    ans (.ddrSweep 1) sweep0 (fun g => g.get Reg.DDR_SWEEP_WM == 3 && g.get Reg.DDR_SWEEP_DONE == 0 &&
      g.mem == [⟨ddrBase + 31, 1⟩, ⟨ddrBase + 48, 4⟩]) = true ∧
    ans (.ddrSweep (2 ^ 40)) sweep0 (fun g => g.get Reg.DDR_SWEEP_WM == sweep0.fab.ddrBytes / 16 && g.get Reg.DDR_SWEEP_DONE == 1) = true := by
  decide +kernel
/-- A conflict counter that wraps on the next conflict. -/
def conf0 : State := st (sets [(Reg.MEM_CONFCTL_EN 23, 32), (Reg.MEM_CONFCTL_OVFIRQ 23, 32), (Reg.MEM_CONF_COUNT 23 5, 2 ^ 48 - 1)] State.reset.fab)
theorem test_conflicts : (conf0.fab.get (Reg.MEM_CONFCTL_EN 23)).testBit 5 = true ∧ 2 ^ 48 ≤ conf0.fab.get (Reg.MEM_CONF_COUNT 23 5) + 1 ∧
    ans (.conflictCounterWrap 23 5 1) conf0 (fun g => g.get (Reg.MEM_CONF_COUNT 23 5) == 0 && g.get (Reg.MEM_CONFCTL_OVF 23) == 32 &&
      g.inbox == [(7, true, true)] && same [Reg.MEM_CONF 23 5, Reg.MEM_CONFCTL 23] conf0.fab g) = true := by decide +kernel

/-! ### Caluf ports -/

/-- Port 3 in a state, with the least latency. -/
def port3 (n : Nat) (l : List (Fld × Nat)) (g : LinkP → LinkP) : State :=
  st ((sets ([(Reg.LINK_STAT_STATE 3, n), (Reg.LINK_LAT_LAT 3, 16), (Reg.LINK_TBCTL_PARENT, 0x1F)] ++ l) State.reset.fab).updPort 3 (fun x => g { x with pos := 0 }))
theorem test_port_enable : (port3 0 [] id).fab.lst 3 = 0 ∧ ans (.linkCtlEn 3 true) (port3 0 [] id) (fun g => g.lst 3 == 1 &&
      g.get (Reg.LINK_CTL_EN 3) == 1 && same [Reg.LINK_CTL 3, Reg.LINK_STAT 3] (port3 0 [] id).fab g) = true ∧
    bec (.linkCtlEn 3 false) (port3 0 [] id) ((port3 0 [] id).fab.set (Reg.LINK_CTL_EN 3) 0) = true ∧
    [1, 5, 7].all (fun n => (port3 n [] id).fab.lst 3 == n && ans (.linkCtlEn 3 false) (port3 n [(Reg.LINK_CTL_EN 3, 1)] id) (fun g =>
      g.lst 3 == 0 && g.get (Reg.LINK_CTL_EN 3) == 0 && g.out == [.flit 3 (downFlit 0)])) = true := by decide +kernel
theorem test_port_retrain : (port3 7 [] id).fab.lst 3 = 7 ∧ ans (.linkCtlRetrain 3) (port3 7 [] id) (fun g => g.lst 3 == 1) = true := by
  decide +kernel
theorem test_port_latency : (port3 0 [] id).fab.portPart 3 = none ∧ (port3 0 [] id).fab.lst 3 ≠ 6 ∧
    bec (.linkLatWrite 3 15) (port3 0 [] id) ((port3 0 [] id).fab.set (Reg.LINK_LAT_LAT 3) 16) = true ∧
    bec (.linkLatWrite 3 4095) (port3 0 [] id) ((port3 0 [] id).fab.set (Reg.LINK_LAT_LAT 3) 4095) = true ∧
    ans (.linkLatWrite 3 17) (port3 6 [(Reg.LINK_MEAS_MEAS 3, 4)] (fun l => { l with probes := 64 })) (fun g => g.lst 3 == 5 &&
      g.get (Reg.LINK_LAT_LAT 3) == 17 && g.reg (Reg.LINK_MEAS 3) == 0 && (g.port 3).probes == 0) = true := by decide +kernel
theorem test_channels_idle : (List.range 32).all (fun k => ((port3 6 [] id).fab.ch k).stage == .none && ((port3 6 [] id).fab.ch k).wOut == []) = true := by
  decide +kernel
theorem test_channels_at_rest : (port3 6 [] id).fab.DmaAtRest := fun k hk => by
  simpa using List.all_eq_true.mp test_channels_idle k (List.mem_range.mpr hk)
theorem test_port_idle : (port3 1 [] id).fab.lst 3 = 1 ∧
    bec (.elecDone 3) (port3 1 [] id) (((port3 1 [] id).fab.set (Reg.LINK_STAT_STATE 3) 2).emit (.flit 3 (frameFlitOf 0))) = true ∧
    ans (.elecTimeout 3) (port3 1 [] id) (fun g => g.lst 3 == 7 && g.get (Reg.LINK_STAT_CAUSE 3) == 1 && g.inbox.contains (3, true, true)) = true := by
  decide +kernel
theorem test_port_align : (port3 2 [] (fun l => { l with lock := true })).fab.lst 3 = 2 ∧
    ((port3 2 [] (fun l => { l with lock := true })).fab.port 3).lock = true ∧
    ans (.alignLock 3 true 15) (port3 2 [] (fun l => { l with lock := true })) (fun g => g.lst 3 == 3 && g.get (Reg.LINK_STAT_LREV 3) == 1 &&
      g.get (Reg.LINK_STAT_LPOL 3) == 15 && g.out.length == 1) = true ∧
    ans (.alignFail 3) (port3 2 [] id) (fun g => g.lst 3 == 7 && g.get (Reg.LINK_STAT_CAUSE 3) == 2) = true := by decide +kernel
/-- Port 3 after its 64 probes. -/
def pin3 (m : Nat) : State := port3 5 [(Reg.LINK_LAT_LAT 3, 32), (Reg.LINK_TBCTL_VALID, 1), (Reg.LINK_MEAS_MEAS 3, m)] (fun l => { l with probes := 64 })
theorem test_port_pin : (pin3 16).fab.lst 3 = 5 ∧ ((pin3 16).fab.port 3).probes = 64 ∧ (pin3 16).fab.get Reg.LINK_TBCTL_VALID = 1 ∧
    ((pin3 16).fab.get (Reg.LINK_MEAS_MEAS 3) + (pin3 16).fab.get (Reg.LINK_CTL_MARGIN 3)) * (pin3 16).fab.portFreq 3 ≤
      (pin3 16).fab.get (Reg.LINK_LAT_LAT 3) * 160 ∧
    ans (.pinComplete 3 true) (pin3 16) (fun g => g.lst 3 == 6 && (g.port 3).credits == 32 && (g.port 3).replay == []) = true ∧
    ans (.pinComplete 3 false) (pin3 16) (fun g => g.lst 3 == 7 && g.get (Reg.LINK_STAT_CAUSE 3) == 6) = true ∧
    ans (.pinComplete 3 true) (pin3 17) (fun g => g.lst 3 == 7 && g.get (Reg.LINK_STAT_CAUSE 3) == 6) = true := by decide +kernel

/-- Is a control flit taken, with the fabric as it was but for the port's place in the frame? -/
def ctl3 (s : State) (pay ty : Nat) : Bool :=
  (s.fab.rxCtl 3 50 (rsEncode pay) ty).1 == some pay && decide ((s.fab.rxCtl 3 50 (rsEncode pay) ty).2 = s.fab.atPos 3 0)
/-- A TRAIN payload: DID 9, port 2, FEC, LAT. -/
def train3 (fec lat : Nat) : Nat := 0x30 + 9 * 2 ^ 8 + 2 * 2 ^ 22 + fec * 2 ^ 26 + lat * 2 ^ 27
/-- Port 3 in EXCHANGE that expects a peer at port 2 of a device. -/
def exch3 (did : Nat) (l : List (Fld × Nat)) : State :=
  port3 3 ([(Reg.LINK_EXPECT_DID 3, did), (Reg.LINK_EXPECT_PORT 3, 2), (Reg.LINK_EXPECT_CHECK 3, 1)] ++ l) id
theorem test_train : ctl3 (exch3 9 []) (train3 0 16) 0x30 = true ∧ (exch3 9 []).fab.lst 3 = 3 ∧
    ans (.train 3 50 (rsEncode (train3 1 16))) (exch3 9 []) (fun g => g.lst 3 == 7 && g.get (Reg.LINK_STAT_CAUSE 3) == 4) = true ∧
    ans (.train 3 50 (rsEncode (train3 0 17))) (exch3 9 []) (fun g => g.lst 3 == 7 && g.get (Reg.LINK_STAT_CAUSE 3) == 5) = true ∧
    ans (.train 3 50 (rsEncode (train3 0 16))) (exch3 8 []) (fun g => g.lst 3 == 7 && g.get (Reg.LINK_STAT_CAUSE 3) == 3) = true ∧
    natBits (train3 0 16) 8 14 = (exch3 9 []).fab.get (Reg.LINK_EXPECT_DID 3) ∧ natBits (train3 0 16) 22 4 = (exch3 9 []).fab.get (Reg.LINK_EXPECT_PORT 3) ∧
    natBits (train3 0 16) 26 1 = (exch3 9 []).fab.get (Reg.LINK_CTL_FEC 3) ∧ natBits (train3 0 16) 27 12 = (exch3 9 []).fab.get (Reg.LINK_LAT_LAT 3) := by
  decide +kernel
theorem test_timesync : ctl3 (port3 6 [] id) 0x10 0x10 = true ∧ [3, 6].all (fun n =>
      bec (.timesync 3 50 (rsEncode 0x10)) (port3 n [] id) ((((port3 n [] id).fab.atPos 3 0).seenTb 50).emit (.flit 3 (stampFlit 0x11 50)))) = true := by decide +kernel
theorem test_timesync_echo : ctl3 (port3 4 [(Reg.LINK_TBCTL_PARENT, 3)] id) (0x11 + (2 ^ 64 - 1) * 2 ^ 64) 0x11 = true ∧
    (port3 4 [(Reg.LINK_TBCTL_PARENT, 3)] id).fab.lst 3 = 4 ∧
    ans (.timesyncEcho 3 50 9 (rsEncode (0x11 + (2 ^ 64 - 1) * 2 ^ 64))) (port3 4 [(Reg.LINK_TBCTL_PARENT, 3)] id) (fun g =>
      g.tbNow == 3 && g.get Reg.LINK_TBCTL_VALID == 1 && g.lst 3 == 5) = true := by decide +kernel
theorem test_latprobe : ctl3 (port3 5 [] id) (0x12 + 20 * 2 ^ 64) 0x12 = true ∧ (20 : Nat) ≤ 50 ∧ 50 - 20 < 2 ^ 16 ∧
    ans (.latprobe 3 50 (rsEncode (0x12 + 20 * 2 ^ 64))) (port3 5 [] (fun l => { l with probes := 64 })) (fun g =>
      g.get (Reg.LINK_MEAS_MEAS 3) == 30 && (g.port 3).probes == 64) = true ∧
    ans (.latprobe 3 50 (rsEncode (0x12 + 20 * 2 ^ 64))) (port3 6 [] id) (fun g =>
      g.get (Reg.LINK_MEAS_MAX 3) == 30 && g.get (Reg.LINK_STAT_LATWARN 3) == 1 && g.inbox == [(5, true, true)]) = true ∧
    ans (.latprobe 3 50 (rsEncode (0x12 + 34 * 2 ^ 64))) (port3 6 [(Reg.LINK_LAT_LAT 3, 32)] id) (fun g =>
      g.get (Reg.LINK_MEAS_MAX 3) == 16 && g.get (Reg.LINK_STAT_LATWARN 3) == 0 && g.inbox == []) = true := by decide +kernel
theorem test_latprobe_send : [5, 6].all (fun n => bec (.latprobeSend 3 50) (port3 n [] id)
    (((port3 n [] id).fab.seenTb 50).emit (.flit 3 (stampFlit 0x12 50)))) = true := by decide +kernel
theorem test_tblsync : ctl3 (port3 6 [(Reg.LINK_TBL_RXCNT 3, 4096)] id) (0x13 + 4096 * 2 ^ 16) 0x13 = true ∧
    bec (.tblsync 3 50 (rsEncode (0x13 + 4096 * 2 ^ 16))) (port3 6 [(Reg.LINK_TBL_RXCNT 3, 4096)] id) ((port3 6 [(Reg.LINK_TBL_RXCNT 3, 4096)] id).fab.atPos 3 0) = true ∧
    bec (.tblsync 3 50 (rsEncode (0x13 + 4096 * 2 ^ 16))) (port3 6 [] id) (((port3 6 [] id).fab.atPos 3 0).set (Reg.LINK_STAT_TBLERR 3) 1) = true := by
  decide +kernel
/-- Port 0 ACTIVE, of partition 0, whose share runs. -/
def active0 (l : List (Fld × Nat)) (g : LinkP → LinkP) : State := st ((tree0 ([(Reg.LINK_TBCTL_PARENT, 0x1F), (Reg.LINK_STAT_STATE 1, 6)] ++ l) id).fab.updPort 0 g)
theorem test_port_lost : (active0 [] id).fab.lst 0 = 6 ∧ (active0 [] id).fab.get Reg.LINK_TBCTL_PARENT ≠ 0 ∧
    ((active0 [] (fun l => { l with lock := true, miss := 4 })).fab.port 0).miss = 4 ∧
    ((active0 [] id).fab.rxCtl 0 5 (downFlit 0) 0x3F).1 = some 0x3F ∧
    [(Instr.lossOfSignal 0, 7), (.lossOfFrameLock 0, 8), (.ebOverflow 0, 10), (.down 0 5 (downFlit 0), 11)].all (fun x =>
      ans x.1 (active0 [] (fun l => { l with lock := true, miss := 4, held := [5] })) (fun g => g.lst 0 == 7 && g.get (Reg.LINK_STAT_CAUSE 0) == x.2 &&
        (g.port 0).held == [] && g.inbox.contains (3, true, true) && g.inbox.contains (33, true, true) && g.out.contains (.flit 0 (downFlit x.2)) &&
        g.lst 1 == 6 && g.st 0 == 5 && g.get (Reg.SQ_STAT_HALTCAUSE 0) == 3)) = true := by decide +kernel
theorem test_parent_lost : (active0 [(Reg.LINK_TBCTL_PARENT, 0)] id).fab.get Reg.LINK_TBCTL_PARENT = 0 ∧
    ans (.lossOfSignal 0) (active0 [(Reg.LINK_TBCTL_PARENT, 0), (Reg.LINK_TBCTL_VALID, 1)] id) (fun g => g.get Reg.LINK_TBCTL_HOLDOVER == 1 &&
      g.get Reg.LINK_TBCTL_VALID == 0 && g.lst 0 == 7 && g.lst 1 != 6 && g.st 0 == 5) = true := by decide +kernel

theorem test_frame : (2 : Nat) ≤ (port3 2 [] id).fab.lst 3 ∧ (rsDecode false (rsEncode 0x77 ^^^ framePattern ^^^ framePattern)).out = .clean ∧
    ans (.frameFlit 3 50 (rsEncode 0x77 ^^^ framePattern)) (port3 2 [] (fun l => { l with hits := 3, miss := 2 })) (fun g => (g.port 3).hits == 4 &&
      (g.port 3).miss == 0 && (g.port 3).map == 0x77 && (g.port 3).lock) = true ∧
    (rsDecode false (zeroMarker ^^^ framePattern ^^^ framePattern)).out = .uncorrectable ∧
    ans (.frameFlit 3 50 (zeroMarker ^^^ framePattern)) (port3 2 [] (fun l => { l with hits := 3, miss := 3, lock := true })) (fun g =>
      (g.port 3).hits == 0 && (g.port 3).miss == 4 && (g.port 3).mapBad) = true := by decide +kernel
theorem test_frame_corrected : (rsDecode false (rsEncode 0x77 ^^^ 0x800)).out = .corrected ∧
    ans (.frameFlit 3 50 (rsEncode 0x77 ^^^ 0x800 ^^^ framePattern)) (port3 6 [] (fun l => { l with hits := 3, miss := 2, lock := true })) (fun g =>
      (g.port 3).hits == 0 && (g.port 3).miss == 3 && (g.port 3).lock && (g.port 3).map == 0x77 && g.get (Reg.LINK_ERRCNT_CE 3) == 1) = true := by decide +kernel

/-- Position 8 of the port's frame is for a scheduled flit. -/
def marked0 (l : LinkP) : LinkP := { l with map := 1, pos := 0 }
theorem test_scheduled : (active0 [] marked0).fab.nextPos 0 true = some 8 ∧ (active0 [] marked0).fab.nextPos 0 false = some 0 ∧
    (active0 [] id).fab.nextPos 0 true = none ∧ bec (.scheduledFlit 0 7 (rsEncode 5)) (active0 [] id) (active0 [] id).fab = true ∧
    ((active0 [] marked0).fab.port 0).mapBad = false ∧ ans (.scheduledFlit 0 7 (rsEncode 5)) (active0 [] (fun l => { marked0 l with rel := 1 })) (fun g =>
      (g.port 0).held == [] && (g.port 0).k == 1 && (g.port 0).pos == 9) = true ∧ (active0 [] id).fab.portPart 0 = some 0 ∧ (active0 [] id).fab.st 0 = 2 ∧ ((active0 [] id).fab.port 0).rel ≤ ((active0 [] id).fab.port 0).k ∧
    (rsDecode false (rsEncode 5)).out = .clean ∧ (rsDecode false (rsEncode 5 ^^^ 0x800)).out = .corrected ∧
    ans (.scheduledFlit 0 7 (rsEncode 5)) (active0 [] marked0) (fun g => (g.port 0).held == [rsEncode 5] && (g.port 0).k == 1) = true ∧
    ans (.scheduledFlit 0 7 (rsEncode 5 ^^^ 0x800)) (active0 [] marked0) (fun g => (g.port 0).held == [rsEncode 5] && g.get (Reg.LINK_ERRCNT_CE 0) == 1) = true := by
  decide +kernel
/-- Port 0 with one transmit and one receive slot at offset 5, for the first 16 bytes of engine 0's exchange area. -/
def slots0 (held : List Flit) : State := st ((((active0 [(Reg.LINK_TBL_RXCNT 0, 1), (Reg.LINK_TBL_TXCNT 0, 1)] (fun l => { l with held := held })).fab.write 2
  0x0300400000 8 (2 ^ 63 + 5)).fab.write 2 0x0300408000 8 (2 ^ 63 + 5)).fab.write 2 (arcBase 0) 8 0x77).fab
theorem test_flit_release : (slots0 []).fab.get (Reg.LINK_TBL_RXCNT 0) ≠ 0 ∧ (slots0 []).fab.barrierMode 0 = false ∧
    (slots0 []).fab.slotEntry 0 true 0 = 2 ^ 63 + 5 ∧ ((slots0 []).fab.share 0).relFirst + 0 = (slots0 []).fab.curDc 0 ∧
    ((slots0 []).fab.share 0).openB + entOff (2 ^ 63 + 5) = 5 ∧ ((slots0 [rsEncode 9]).fab.port 0).held = [rsEncode 9] ∧
    (rsDecode false (rsEncode 9)).out ≠ .uncorrectable ∧ ((slots0 []).fab.port 0).held = [] ∧
    ans (.flitRelease 0 5) (slots0 [rsEncode 9]) (fun g => (g.port 0).rel == 1 && (g.port 0).held == [] && g.puts.length == 1) = true ∧
    ans (.flitRelease 0 5) (slots0 []) (fun g => g.get (Reg.LINK_STAT_LATE 0) == 1 && g.get (Reg.LINK_ERRCNT_LATE 0) == 1 &&
      g.get (Reg.SQ_STAT_FAILCAUSE 0) == 3) = true := by decide +kernel
theorem test_link_read : 0 < (slots0 []).fab.get (Reg.LINK_TBL_TXCNT 0) ∧ (slots0 []).fab.slotEntry 0 false 0 = 2 ^ 63 + 5 ∧
    entEng (2 ^ 63 + 5) = 0 ∧ entByte (2 ^ 63 + 5) = 0 ∧ (slots0 []).fab.err = [] ∧ ((slots0 []).fab.engine 0).portA = [] ∧
    Store.get 0 (slots0 []).fab.pbT 0 ≤ 5 ∧ ans (.linkRead 0 5) (slots0 []) (fun g => (g.port 0).txIdx == 1 && (g.port 0).txDcn == 1 &&
      Store.get 0 g.pbT 0 == 6 && g.puts.map (fun u => (u.tgt, u.vis, u.data)) == [(192, 7, BitVec.ofNat 256 (rsEncode 0x77).toNat)]) = true := by
  decide +kernel

theorem test_idle_wake : ctl3 (port3 6 [] id) 0 0 = true ∧ bec (.idleFlit 3 50 (rsEncode 0)) (port3 6 [] id) ((port3 6 [] id).fab.atPos 3 0) = true ∧
    ctl3 (port3 6 [] id) 0x3E 0x3E = true ∧ bec (.wake 3 50 (rsEncode 0x3E)) (port3 6 [] id) (((port3 6 [] id).fab.atPos 3 0).set Reg.PWR_WAKE_STAT_LINK 8) = true := by
  decide +kernel
/-- A background header: one word for DM of engine 0, sequence number 0 or 5. -/
def hdr3 (seq : Nat) : Nat := 0x01 + 1 * 2 ^ 8 + seq * 2 ^ 16 + 0x40000 * 2 ^ 32
theorem test_background : ctl3 (port3 6 [] id) (hdr3 0) 0x01 = true ∧ natBits (hdr3 0) 8 8 = 1 ∧ natBits (hdr3 5) 16 12 ≠ ((port3 6 [] id).fab.port 3).rxSeq ∧
    (rsDecode false (rsEncode 7)).out = .clean ∧ ((((port3 6 [] id).fab.atPos 3 0).dataFlit 3 50 (rsEncode 7)).bgWords 3 (natBits (hdr3 0) 32 40) [rsEncode 7]).wait = false ∧
    bec (.bgHdr 3 50 (rsEncode (hdr3 5)) [rsEncode 7]) (port3 6 [] id) ((((port3 6 [] id).fab.atPos 3 0).dataFlit 3 50 (rsEncode 7)).sendAck 3 0 true) = true ∧
    bec (.bgHdr 3 50 (rsEncode (hdr3 0)) [zeroMarker]) (port3 6 [] id) ((((port3 6 [] id).fab.atPos 3 0).dataFlit 3 50 zeroMarker).sendAck 3 0 true) = true ∧
    ans (.bgHdr 3 50 (rsEncode (hdr3 0)) [rsEncode 7]) (port3 6 [] id) (fun g => (g.port 3).rxSeq == 1 && g.out.length == 2) = true := by decide +kernel
/-- Port 3 with two packets not yet acknowledged. -/
def sent3 (n : Nat) : State := port3 6 [] (fun l => { l with replay := [⟨4095, 0, 0x40000, [7]⟩, ⟨0, 0, 0x40010, [8]⟩], resend := n })
theorem test_ack : ctl3 (sent3 6) (0x02 + 2 ^ 28) 0x02 = true ∧ natBits (0x02 + 2 ^ 28) 28 1 = 1 ∧ natBits (0x02 : Nat) 28 1 = 0 ∧
    ((sent3 6).fab.port 3).replay.findIdx? (fun k => k.seq == natBits (0x02 + 2 ^ 28) 16 12) = some 1 ∧ ((sent3 6).fab.port 3).txq = [] ∧
    (∀ k, k < 32 → ((sent3 6).fab.ch k).wOut = [] ∨ ((sent3 6).fab.ch k).dstSp ≠ 2 ∨ ((sent3 6).fab.ch k).cport ≠ 3) ∧
    ans (.ackFlit 3 50 (rsEncode (0x02 + 2 ^ 28))) (sent3 6) (fun g => (g.port 3).resend == 7 && g.out.length == 2) = true ∧
    ans (.ackFlit 3 50 (rsEncode (0x02 + 2 ^ 28))) (sent3 7) (fun g => g.lst 3 == 7 && g.get (Reg.LINK_STAT_CAUSE 3) == 9) = true ∧
    ans (.ackFlit 3 50 (rsEncode 0x02)) (sent3 6) (fun g => (g.port 3).replay == [] && (g.port 3).resend == 0) = true := by decide +kernel
theorem test_credit : ctl3 (port3 6 [] (fun l => { l with credits := 3 })) (0x03 + 40 * 2 ^ 8) 0x03 = true ∧
    ans (.credit 3 50 (rsEncode (0x03 + 40 * 2 ^ 8))) (port3 6 [] (fun l => { l with credits := 3 })) (fun g => (g.port 3).credits == 32) = true := by
  decide +kernel

/-! ### Host ports and mailboxes -/

/-- Partition 0 bound to host port 0, with a byte in engine 0's DM and one in engine 8's. -/
def host0 (l : List (Fld × Nat)) : State := st { part0 ([(Reg.HP_BIND_PARTS 0, 1)] ++ l) with mem := [⟨0x40000, 7⟩, ⟨0x7E000, 9⟩, ⟨0x840000, 8⟩] }
theorem test_host_read : (host0 []).fab.pwr.perst.contains 0 = false ∧ (host0 []).fab.live = true ∧ (host0 []).fab.pwr.st ≠ 2 ∧
    (host0 []).fab.get Reg.DEV_BOOTSTAT_FAILED = 0 ∧ (0x40000 : Nat) % 16 + 16 ≤ 16 ∧ inEcs 0x40000 = false ∧
    (host0 []).fab.refusal ((host0 []).fab.host 0) 0x40000 false = none ∧ (host0 []).fab.fencedBy 0x40000 false = none ∧ (host0 []).fab.err = [] ∧
    bec (.hostMemoryRead 0 2 0x40000 16) (host0 []) ((host0 []).fab.emit (.answer 2 7 16 false)) = true := by decide +kernel
theorem test_host_read_refused : (host0 []).fab.refusal ((host0 []).fab.host 0) 0x840000 false = some 2 ∧ (host0 []).fab.get Reg.MEM_ERRLOG_VALID = 0 ∧
    ans (.hostMemoryRead 0 2 0x840000 1) (host0 []) (fun g => g.out == [.answer 2 255 1 false] && g.get (Reg.HP_ERRCNT_REFUSED 0) == 1 &&
      g.get Reg.MEM_ERRLOG_VALID == 1 && g.get Reg.MEM_ERRLOG_ADDR == 0x840000 && g.get Reg.MEM_ERRLOG_KIND == 2 && g.get Reg.MEM_ERRLOG_MASTER == 2 &&
      same [Reg.HP_ERRCNT 0, Reg.MEM_ERRLOG] (host0 []).fab g) = true := by decide +kernel
theorem test_host_read_fenced : (host0 [(Reg.SQ_STAT_STATE 0, 2)]).fab.refusal ((host0 [(Reg.SQ_STAT_STATE 0, 2)]).fab.host 0) 0x7E000 false = none ∧
    (host0 [(Reg.SQ_STAT_STATE 0, 2)]).fab.fencedBy 0x7E000 false = some 0 ∧ (host0 [(Reg.SQ_STAT_STATE 0, 2)]).fab.get (Reg.SQ_FENCE_VALID 0) = 0 ∧
    ans (.hostMemoryRead 0 2 0x7E000 1) (host0 [(Reg.SQ_STAT_STATE 0, 2)]) (fun g => g.out == [.answer 2 255 1 false] &&
      g.get (Reg.SQ_FENCE_VALID 0) == 1 && g.get (Reg.SQ_FENCE_ADDR 0) == 0x7E000 && g.get (Reg.SQ_FENCE_MASTER 0) == 2) = true := by decide +kernel
theorem test_host_write : (0x40000 : Nat) + 2 ≤ barSize 2 ∧ ¬ (0x40000 < 0x0C000000 ∧ 0x40000 % 0x100000 < 0x30000) ∧
    (host0 []).fab.refusal ((host0 []).fab.host 0) 0x4000E true = none ∧ (host0 []).fab.fencedBy 0x4000E true = none ∧
    (host0 []).fab.refusal ((host0 []).fab.host 0) 0x840000 true = some 2 ∧
    ans (.hostMemoryWrite 0 2 0x40000 [1, 2] true 5) (host0 []) (fun g => g.get (Reg.HP_ERRCNT_EPRX 0) == 1 && g.mem == (host0 []).fab.mem &&
      (g.cfgWord 0 65).getLsbD 12 && same [Reg.HP_ERRCNT 0] (host0 []).fab g) = true ∧ (host0 []).fab.pwr.req = none ∧ (host0 []).fab.inD3 0 = false ∧
    ans (.hostMemoryWrite 0 2 0x4000E [1, 2] false 5) (host0 []) (fun g => readN g.mem 0x4000E 2 == 0x201 && g.mem.length == 5 &&
      g.regs == (host0 []).fab.regs) = true ∧
    ans (.hostMemoryWrite 0 2 0x840000 [1, 2] false 5) (host0 []) (fun g => g.mem == (host0 []).fab.mem && g.get (Reg.HP_ERRCNT_REFUSED 0) == 1) = true := by
  decide +kernel
theorem test_host_sleeps : (let s := st { (host0 []).fab with pcfg := [(17, 3)] }
    s.fab.inD3 0 && decide (0x40000 + 2 ≤ barSize 2) && bec (.hostMemoryWrite 0 2 0x40000 [1, 2] false 5) s s.fab) = true := by decide +kernel
theorem test_completer_abort : bec (.completerAbort 3 true) State.reset ((State.reset.fab.stick (Reg.HP_ERRCNT_CA 3) 1).emit (.abort 3)) = true ∧
    bec (.completerAbort 3 false) State.reset (State.reset.fab.stick (Reg.HP_ERRCNT_CA 3) 1) = true := by decide +kernel
/-- Partition 0 of port 0 has DMA channels, an MSI-X message waits, and a request of port 0. -/
def flr0 (ch : Nat) : State := st { part0 [(Reg.HP_BIND_PARTS 0, 1), (Reg.HP_PDMA_CH 0, ch), (Reg.HP_STAT_BME 0, 1), (Reg.MGMT_MBX_CTL_IRQEN 0, 1)] with
  msixPend := [(0, 3), (1, 4)], mbx := { State.reset.fab.mbx with queue := [(0, 1, false), (1, 1, false)] } }
theorem test_function_reset : (flr0 (2 ^ 31)).fab.chanPart 31 = some 0 ∧
    ((flr0 0).fab.get (Reg.HP_BIND_PARTS 0)).testBit 0 = true ∧ (flr0 0).fab.get (Reg.HP_BIND_PARTS 1) = 0 ∧
    ans (.functionLevelReset 0) (flr0 0) (fun g => g.get (Reg.HP_STAT_FLR 0) == 1 && g.get (Reg.HP_STAT_BME 0) == 0 &&
      g.reg (Reg.MGMT_MBX_CTL 0) == regReset (Reg.MGMT_MBX_CTL 0) && g.msixMasked 0 255 && g.msixPend == [(1, 4)] &&
      g.mbx.queue == [(0, 1, true), (1, 1, false)]) = true := by decide +kernel
/-- Port 0 is held in reset. -/
def perst0 : State := st { State.reset.fab with pwr := { State.reset.fab.pwr with perst := [0] } }
theorem test_perst : perst0.fab.pwr.perst.contains 0 = true ∧ perst0.fab.pwr.st = 3 ∧ (flr0 0).fab.pwr.perst.contains 0 = false ∧
    ans (.perstN 0 false 5 8) perst0 (fun g => g.pwr.perst == [] && g.get (Reg.HP_STAT_LINKUP 0) == 1 && g.get (Reg.HP_STAT_SPEED 0) == 5 &&
      g.get (Reg.HP_STAT_WIDTH 0) == 8) = true ∧
    ans (.perstN 0 true 5 8) (flr0 0) (fun g => g.pwr.perst.contains 0 && g.get (Reg.HP_STAT_LINKUP 0) == 0 && g.get (Reg.HP_STAT_BME 0) == 0 &&
      g.get (Reg.HP_STAT_FLR 0) == 1 && g.msixPend == [(1, 4)]) = true := by decide +kernel
theorem test_features : State.reset.fab.get (Reg.HP_BIND_PARTS 1) = 0 ∧ (flr0 0).fab.get (Reg.HP_BIND_PARTS 0) ≠ 0 ∧
    bec (.featAcceptWrite 3 1 (BitVec.allOnes 64)) State.reset (State.reset.fab.setReg (Reg.DEV_FEAT_ACCEPT 1) (State.reset.fab.reg Reg.DEV_FEAT_OFFER)) = true ∧
    ans (.featAcceptWrite 2 0 1) (flr0 0) (fun g => g.get (Reg.HP_STAT_FEATERR 0) == 1 && g.get (Reg.HP_STAT_FEATBIT 0) == 127 &&
      g.get (Reg.HP_EVENT_FEAT 0) == 1) = true := by decide +kernel

/-- A request: opcode, SEQ 5, LENGTH, payload. -/
def rq (op len pay : Nat) : Nat := op + 5 * 2 ^ 8 + len * 2 ^ 16 + pay * 2 ^ 64
/-- The request buffer of port 0 holds a QUERY. -/
def bell0 (b : Nat) : State := st { sets [(Reg.MGMT_MBX_STAT_BUSY 0, b)] State.reset.fab with mbx := { State.reset.fab.mbx with req := [(0, w64 (rq 1 0 0))] } }
theorem test_doorbell : (3 : Word).getLsbD 0 = true ∧ (bell0 1).fab.get (Reg.MGMT_MBX_STAT_BUSY 0) = 1 ∧ (bell0 0).fab.mbx.queue = [] ∧
    rqKnown (rqOp ((bell0 0).fab.reqBuf 0)) = true ∧
    bec (.doorbell 0 3) (bell0 1) ((bell0 1).fab.set (Reg.MGMT_MBX_CTL_IRQEN 0) 1) = true ∧
    ans (.doorbell 0 3) (bell0 0) (fun g => g.get (Reg.MGMT_MBX_STAT_BUSY 0) == 1 && g.mbx.queue == [(0, rq 1 0 0, false)] && g.mbx.job == none) = true := by
  decide +kernel
/-- Firmware runs and request `r` of port 0 is at the head; port 0 has every feature and partition 0. -/
def head0 (r : Nat) (l : List (Fld × Nat)) : State := st { part0 ([(Reg.HP_BIND_PARTS 0, 1), (Reg.DEV_FEAT_ACCEPT_ACCEPT 0, 0x1FFF), (Reg.MGMT_MBX_STAT_BUSY 0, 1)] ++ l) with
  mgmt := { State.reset.fab.mgmt with running := true }, mbx := { State.reset.fab.mbx with queue := [(0, r, false)] } }
theorem test_at_head (r : Nat) (l : List (Fld × Nat)) (h : (head0 r l).fab.fwUp = true) : (head0 r l).fab.AtHead 0 r [] :=
  ⟨rfl, rfl, h, fun _ hx => by cases hx⟩
theorem test_respond : (head0 (rq 1 0 0) []).fab.fwUp = true ∧ (1016 : Nat) ≤ 1016 ∧
    (let g := (head0 (rq 1 0 0) []).fab.respond 255 7 [1, 2, 3, 4, 5, 6, 7, 8, 255]
     g.get (Reg.MGMT_MBX_STAT_BUSY 0) == 0 && g.get (Reg.MGMT_MBX_STAT_DONE 0) == 1 && g.get (Reg.MGMT_MBX_STAT_SEQ 0) == 5 && g.mbx.queue == [] &&
      Store.get 0 g.mbx.rsp 0 == w64 (1 + 5 * 2 ^ 8 + 255 * 2 ^ 16 + 7 * 2 ^ 24 + 9 * 2 ^ 32) && Store.get 0 g.mbx.rsp 2 == 255) = true := by decide +kernel
theorem test_query : rqOp (rq 1 0 0) = 1 ∧ rqForm (rq 1 0 0) 0 = true ∧ rqForm (rq 1 8 0) 0 = false ∧ (head0 (rq 1 8 0) []).fab.fwUp = true ∧
    ans (.query 0) (head0 (rq 1 0 0) []) (fun g => Store.get 0 g.mbx.rsp 1 == (head0 (rq 1 0 0) []).fab.reg (Reg.HP_PCFG 0) &&
      decide (g = (head0 (rq 1 0 0) []).fab.respond 0 0 (toBytes ((head0 (rq 1 0 0) []).fab.reg (Reg.HP_PCFG 0)).toNat 8))) = true ∧
    bec (.query 0) (head0 (rq 1 8 0) []) ((head0 (rq 1 8 0) []).fab.respond 1 0 []) = true := by decide +kernel
/-- A CREATE of block 23 with engine 191 active and DMA channel 31. -/
def create0 : Nat := rq 2 36 (2 ^ 23 + 2 ^ 31 * 2 ^ 64 + 128 * 2 ^ (8 * 35))
theorem test_create : rqOp create0 = 2 ∧ (head0 create0 []).fab.crStatus 0 create0 = 0 ∧ (head0 create0 []).fab.get (Reg.HP_PCFG_VALID 1) = 0 ∧
    (∀ q, q < 1 → (head0 create0 []).fab.get (Reg.HP_PCFG_VALID q) = 1) ∧ crDx48 create0 = false ∧ crBlocks create0 = [23] ∧
    (head0 create0 []).fab.fwUp = true ∧ (head0 (rq 2 35 0) []).fab.crStatus 0 (rq 2 35 0) = 1 ∧
    bec (.create 0) (head0 (rq 2 35 0) []) ((head0 (rq 2 35 0) []).fab.respond 1 0 []) = true := by decide +kernel
theorem test_destroy : rqOp (rq 3 1 0) = 3 ∧ rqForm (rq 3 1 0) 1 = true ∧ rqBits (rq 3 1 0) 0 8 = 0 ∧ (head0 (rq 3 1 0) []).fab.fwUp = true ∧
    (head0 (rq 3 1 0) []).fab.accepted 0 0 = true ∧ (head0 (rq 3 1 0) []).fab.boundTo 0 0 = true ∧ (head0 (rq 3 1 0) []).fab.atRest 0 = true ∧
    (head0 (rq 3 1 0) []).fab.unitPart 0 = some 0 ∧
    bec (.destroy 0) (head0 (rq 3 1 0) [(Reg.DEV_FEAT_ACCEPT_ACCEPT 0, 0)]) ((head0 (rq 3 1 0) [(Reg.DEV_FEAT_ACCEPT_ACCEPT 0, 0)]).fab.respond 2 0 []) = true ∧
    bec (.destroy 0) (head0 (rq 3 1 7) []) ((head0 (rq 3 1 7) []).fab.respond 7 7 []) = true ∧
    bec (.destroy 0) (head0 (rq 3 1 0) [(Reg.SQ_STAT_STATE 0, 1)]) ((head0 (rq 3 1 0) [(Reg.SQ_STAT_STATE 0, 1)]).fab.respond 5 0 []) = true ∧
    ans (.destroy 0) (head0 (rq 3 1 0) []) (fun g => g.get (Reg.HP_BIND_PARTS 0) == 0 && g.get (Reg.MEM_OWNER_OWN 0) == 9 &&
      g.mbx.job.isSome && g.mbx.queue.length == 1 && Store.get 0 g.keys 0 == 0) = true := by decide +kernel
theorem test_keys_wait : (head0 create0 [(Reg.MEM_VAULT_WIPING, 1)]).fab.crStatus 0 create0 = 0 ∧
    bec (.create 0) (head0 create0 [(Reg.MEM_VAULT_WIPING, 1)]) (head0 create0 [(Reg.MEM_VAULT_WIPING, 1)]).fab = true ∧
    bec (.destroy 0) (head0 (rq 3 1 0) [(Reg.MEM_VAULT_WIPING, 1)]) (head0 (rq 3 1 0) [(Reg.MEM_VAULT_WIPING, 1)]).fab = true := by decide +kernel
/-- Granules 0 and 1 for partition 0. -/
def gran0 (op : Nat) : Nat := rq op 6 (2 * 2 ^ 32)
/-- 16 GiB of swept memory. -/
def ddr0 : List (Fld × Nat) := [(Reg.DDR_STAT_CAP, 1), (Reg.DDR_STAT_SET, 1), (Reg.DDR_SWEEP_WM, 2 ^ 30)]
theorem test_ddr_add : ddrForm (gran0 4) = true ∧ rqGrans (gran0 4) = [0, 1] ∧ rqOp (gran0 4) = 4 ∧ (head0 (gran0 4) ddr0).fab.boundTo 0 0 = true ∧
    (head0 (gran0 4) ddr0).fab.fwUp = true ∧ (head0 (gran0 4) ddr0).fab.swept 1 = true ∧
    bec (.ddrAdd 0) (head0 (gran0 4) [(Reg.DEV_FEAT_ACCEPT_ACCEPT 0, 0)]) ((head0 (gran0 4) [(Reg.DEV_FEAT_ACCEPT_ACCEPT 0, 0)]).fab.respond 2 0 []) = true ∧
    ans (.ddrAdd 0) (head0 (gran0 4) ddr0) (fun g => g.get (Reg.MEM_DOWNER_OWN 0) == 0 && g.get (Reg.MEM_DOWNER_OWN 1) == 0 && g.get (Reg.MEM_DOWNER_OWN 2) == 8 &&
      Store.get 0 g.mbx.rsp 0 == w64 (4 + 5 * 2 ^ 8)) = true := by decide +kernel
theorem test_ddr_release : rqOp (gran0 5) = 5 ∧ (head0 (gran0 5) [(Reg.MEM_DOWNER_OWN 0, 0), (Reg.MEM_DOWNER_OWN 1, 0)]).fab.granPart 1 = some 0 ∧
    bec (.ddrRelease 0) (head0 (gran0 5) [(Reg.SQ_STAT_STATE 0, 1)]) ((head0 (gran0 5) [(Reg.SQ_STAT_STATE 0, 1)]).fab.respond 5 0 []) = true ∧
    ans (.ddrRelease 0) (head0 (gran0 5) [(Reg.MEM_DOWNER_OWN 0, 0), (Reg.MEM_DOWNER_OWN 1, 0)]) (fun g => g.get (Reg.MEM_DOWNER_OWN 1) == 9 &&
      g.get Reg.MEM_OWNSTAT_WIPING == 1 && g.mbx.job == some ⟨none, [(true, 0), (true, 1)]⟩ && g.mbx.queue.length == 1) = true := by decide +kernel
/-- A DECLARE for partition 0 of one record: block, word `w` of it, design state 3, eligible 5. -/
def declare0 (b w : Nat) : Nat := rq 6 24 ((b * 2 ^ 8 + w * 2 ^ 16 + 3 * 2 ^ 32 + 5 * 2 ^ 64) * 2 ^ 64)
theorem test_declare : rqOp (declare0 0 8) = 6 ∧ rqForm (declare0 0 8) 24 = true ∧ rqBits (declare0 0 8) 1 56 = 0 ∧ dcForm (dcRec (declare0 0 8) 0) = true ∧
    natBits (dcRec (declare0 0 8) 0) 0 8 = 0 ∧ natBits (dcRec (declare0 0 8) 0) 16 8 = 8 ∧ (head0 (declare0 0 8) []).fab.fwUp = true ∧
    bec (.declare 0) (head0 (declare0 0 8) [(Reg.SQ_STAT_STATE 0, 1)]) ((head0 (declare0 0 8) [(Reg.SQ_STAT_STATE 0, 1)]).fab.respond 5 0 []) = true ∧
    bec (.declare 0) (head0 (declare0 23 8) []) ((head0 (declare0 23 8) []).fab.respond 3 0 []) = true ∧
    ans (.declare 0) (head0 (declare0 0 8) []) (fun g => g.reg (Reg.SQ_JMEM 0 7) == 3 && g.reg (Reg.TEST_ELIG 0 7) == 5) = true ∧
    ans (.declare 0) (head0 (declare0 0 0) []) (fun g => g.reg (Reg.SQ_JMEM0 0) == 3 && g.reg (Reg.TEST_ELIG0 0) == 5) = true := by decide +kernel

/-! ### DMA -/

/-- Channel 31 is of partition 0, with further fields. -/
def dma0 (l : List (Fld × Nat)) : State :=
  st (part0 ([(Reg.HP_BIND_PARTS 0, 1), (Reg.HP_PDMA_CH 0, 2 ^ 31), (Reg.DMA_CH_CFG_BUDGET 31, 1), (Reg.HP_STAT_BME 0, 1)] ++ l))
theorem test_dma_start : (dma0 []).fab.chanPart 31 = some 0 ∧ (dma0 []).fab.portOf 0 = 0 ∧ State.reset.fab.chanPart 31 = none ∧
    (dma0 []).fab.get (Reg.DMA_CH_STAT_STATE 31) = 0 ∧ (dma0 []).fab.active = true ∧ (dma0 []).fab.chanBme 31 = true ∧
    ans (.dmaStart 2 31) (dma0 [(Reg.DMA_CH_HEAD_ADDR 31, 3)]) (fun g => g.get (Reg.DMA_CH_STAT_STATE 31) == 1 && g.get (Reg.DMA_CH_CUR_ADDR 31) == 192 &&
      (g.ch 31).stage == .fetch && (g.ch 31).fetched == 1 && g.out == []) = true ∧
    ans (.dmaStart 2 31) (dma0 [(Reg.DMA_CH_HEAD_ADDR 31, 3), (Reg.DMA_CH_CFG_HEADSP 31, 1)]) (fun g => (g.ch 31).stage == .fetch && g.out == [.hostRead 0 192 64]) = true ∧
    ans (.dmaStart 2 31) (dma0 [(Reg.HP_STAT_BME 0, 0), (Reg.DMA_CH_CFG_HEADSP 31, 1)]) (fun g => g.get (Reg.DMA_CH_STAT_STATE 31) == 2 &&
      g.get (Reg.DMA_CH_STAT_STATUS 31) == 6 && g.inbox == [(112, true, true)] && g.out == []) = true ∧
    ans (.dmaStart 0 31) (dma0 [(Reg.DMA_CH_STAT_STATE 31, 2), (Reg.DMA_CH_STAT_QUIESCE 31, 1)]) (fun g => g.get (Reg.DMA_CH_STAT_STATE 31) == 1 &&
      g.get (Reg.DMA_CH_STAT_QUIESCE 31) == 0) = true ∧
    ans (.dmaStart 0 31) (dma0 [(Reg.DMA_CH_CFG_BUDGET 31, 0)]) (fun g => g.get (Reg.DMA_CH_STAT_STATUS 31) == 7) = true := by
  decide +kernel
theorem test_dma_start_refused : bec (.dmaStart 1 31) State.reset (State.reset.fab.set (Reg.DMA_CH_STAT_STARTERR 31) 1) = true ∧
    bec (.dmaStart 2 31) (dma0 [(Reg.DMA_CTL_DISABLE, 1)]) ((dma0 [(Reg.DMA_CTL_DISABLE, 1)]).fab.set (Reg.DMA_CH_STAT_STARTERR 31) 1) = true ∧
    bec (.dmaStart 2 31) (dma0 [(Reg.DMA_CH_STAT_STATE 31, 1)]) ((dma0 [(Reg.DMA_CH_STAT_STATE 31, 1)]).fab.set (Reg.DMA_CH_STAT_STARTERR 31) 1) = true := by
  decide +kernel
theorem test_dma_disable : (List.range 32).all (fun j => decide (((dma0 []).fab.ch j).stage ≠ .want ∧ ((dma0 []).fab.ch j).stage ≠ .run)) = true ∧
    (dma0 [(Reg.DMA_CH_STAT_STATE 31, 1)]).fab.get (Reg.DMA_CH_STAT_STATE 31) = 1 ∧
    bec (.dmaCtlDisable false) (dma0 [(Reg.DMA_CTL_DISABLE, 1)]) (dma0 [(Reg.DMA_CTL_DISABLE, 0)]).fab = true := by decide +kernel
theorem test_dma_quiesce : (dma0 [(Reg.DMA_CH_STAT_STATE 31, 2)]).fab.mbx.job = none ∧ ((dma0 [(Reg.DMA_CH_STAT_STATE 31, 2)]).fab.ch 31).wOut = [] ∧
    ans (.dmaQuiesce 31) (dma0 [(Reg.DMA_CH_STAT_STATE 31, 2)]) (fun g => g.get (Reg.DMA_CH_STAT_QUIESCE 31) == 1) = true ∧
    bec (.dmaQuiesce 31) (dma0 []) (dma0 []).fab = true := by decide +kernel

/-- Channel 31 in a stage with a descriptor. -/
def chan0 (d : BitVec 512) (g : DmaCh → DmaCh) (l : List (Fld × Nat)) : State := st ((dma0 l).fab.updCh 31 (fun x => g { x with desc := d }))
/-- A descriptor: SRC, DST, length, source space, destination space, control bits. -/
def desc0 (src dst n ss ds ctl next : Nat) : BitVec 512 :=
  BitVec.ofNat 512 (src + dst * 2 ^ 64 + n * 2 ^ 128 + ss * 2 ^ 160 + ds * 2 ^ 162 + ctl * 2 ^ 168 + next * 2 ^ 192)
theorem test_descriptor_fetch :
    (let s := chan0 0 (fun x => { x with stage := .fetch, curHost := true }) [(Reg.DMA_CH_CFG_BUFMAX 31, 4)]
     (s.fab.ch 31).stage == .fetch && (s.fab.ch 31).curHost &&
     ans (.descriptorFetch 31 false 0) s (fun g => g.get (Reg.DMA_CH_STAT_STATE 31) == 2 && g.get (Reg.DMA_CH_STAT_STATUS 31) == 6 && g.inbox == [(112, true, true)]) &&
     ans (.descriptorFetch 31 true (desc0 1 0 0 3 0 2 0)) s (fun g => g.get (Reg.DMA_CH_STAT_STATE 31) == 2 && g.get (Reg.DMA_CH_STAT_STATUS 31) == 6) &&
     ans (.descriptorFetch 31 true (desc0 0x400FE 0x41000 5 0 0 2 0)) s (fun g => (g.ch 31).stage == .run && (g.ch 31).rq == [⟨0, 2, 0⟩, ⟨2, 3, 1⟩] &&
       g.get (Reg.DMA_CH_COUNT_COUNT 31) == 0) &&
     ans (.descriptorFetch 31 true (desc0 0x400FE 0x41000 0 0 0 2 0)) s (fun g => (g.ch 31).stage == .done && g.get (Reg.DMA_CH_COUNT_COUNT 31) == 0)) = true := by
  decide +kernel
theorem test_descriptor_complete :
    (let s := chan0 (desc0 0 0 0 0 0 2 0) (fun x => { x with stage := .done, status := 1 }) []
     let h := chan0 (desc0 0 0 0 0 0 0 0x80) (fun x => { x with stage := .done, status := 1, fetched := 0 }) []
     let e := chan0 (desc0 0 0 0 0 0 8 0x80) (fun x => { x with stage := .done, status := 3 }) [(Reg.DMA_CH_STAT_DONE 31, 65535)]
     (s.fab.ch 31).stop && !(s.fab.ch 31).wb && !(h.fab.ch 31).stop && !(h.fab.ch 31).nxtSp && (e.fab.ch 31).irq &&
     ans (.descriptorComplete 31 true) s (fun g => g.get (Reg.DMA_CH_STAT_STATE 31) == 2 && g.get (Reg.DMA_CH_STAT_STATUS 31) == 1 && g.get (Reg.DMA_CH_STAT_DONE 31) == 1 &&
       g.inbox == [(112, true, true)]) &&
     ans (.descriptorComplete 31 true) e (fun g => g.get (Reg.DMA_CH_STAT_STATUS 31) == 3 && g.inbox == [(112, true, true)] &&
       g.get (Reg.DMA_CH_STAT_DONE 31) == 65536 % 2 ^ (Reg.DMA_CH_STAT_DONE 31).w) &&
     ans (.descriptorComplete 31 true) h (fun g => g.get (Reg.DMA_CH_CUR_ADDR 31) == 0x80 && (g.ch 31).stage == .fetch && (g.ch 31).fetched == 1 && g.inbox == [])) = true := by
  decide +kernel
theorem test_descriptor_budget :
    (let s := chan0 (desc0 0 0 0 0 0 0 0x80) (fun x => { x with stage := .done, status := 1, fetched := 1 }) []
     !(s.fab.ch 31).stop && !(s.fab.ch 31).wb && !(s.fab.ch 31).nxtSp && decide (s.fab.get (Reg.DMA_CH_CFG_BUDGET 31) ≤ (s.fab.ch 31).fetched) &&
     ans (.descriptorComplete 31 true) s (fun g => g.get (Reg.DMA_CH_STAT_STATUS 31) == 7 && g.inbox == [(112, true, true)])) = true := by decide +kernel
/-- External memory of 16 GiB whose sweep stands at its start, granule 0 of partition 0. -/
def dark0 : List (Fld × Nat) := [(Reg.DDR_STAT_CAP, 1), (Reg.DDR_STAT_SET, 1), (Reg.MEM_DOWNER_OWN 0, 0)]
theorem test_channel_waits :
    (let s := chan0 0 (fun x => { x with stage := .fetch }) (dark0 ++ [(Reg.DMA_CH_CUR_ADDR 31, ddrBase)])
     let q := chan0 (desc0 ddrBase 0x40000 16 0 0 0 0) (fun x => { x with stage := .run, off := 16, rq := [⟨0, 16, 0⟩] }) dark0
     let w := chan0 (desc0 0x40000 ddrBase 16 0 0 0 0) (fun x => { x with stage := .run, off := 16, wOff := 16, wOut := [⟨ddrBase, 16, 7, 0⟩] }) dark0
     (s.fab.rdAny (s.fab.chan 31) ddrBase 64 false).wait && (q.fab.rdAny (q.fab.chan 31) ddrBase 16 false).wait &&
     (w.fab.wrAny (w.fab.chan 31) ddrBase 16 7 0).wait && s.fab.chUnswept 31 false && w.fab.chUnswept 31 true &&
     bec (.descriptorFetch 31 true 0) s s.fab && bec (.dmaReadResponse 31 true 0) q q.fab && bec (.dmaWriteResponse 31 true) w w.fab &&
     bec (.dmaTimeout ⟨31, true⟩) w w.fab.dmaRun) = true := by decide +kernel
theorem test_channel_refused :
    (let s := chan0 0 (fun x => { x with stage := .fetch }) [(Reg.DMA_CH_CUR_ADDR 31, 0x840000)]
     let w := chan0 (desc0 0x40000 0x840000 16 0 0 0 0) (fun x => { x with stage := .run, off := 16, wOff := 16, wOut := [⟨0x840000, 16, 7, 0⟩] }) []
     (s.fab.rdAny (s.fab.chan 31) 0x840000 64 false).refused && (w.fab.wrAny (w.fab.chan 31) 0x840000 16 7 0).refused &&
     ans (.descriptorFetch 31 true 0) s (fun g => g.get (Reg.DMA_CH_STAT_STATUS 31) == 6) &&
     ans (.dmaWriteResponse 31 true) w (fun g => (g.ch 31).status == 3 && (g.ch 31).stage == .done && g.get (Reg.DMA_CH_ERRADDR_ADDR 31) == 0x840000)) = true := by
  decide +kernel
theorem test_descriptor_writeback :
    (let s := chan0 (desc0 0 0 0 0 0 6 0) (fun x => { x with stage := .done, status := 1, curHost := true }) []
     (s.fab.ch 31).wb && (s.fab.ch 31).stop && s.fab.chanBme 31 &&
     ans (.descriptorComplete 31 true) s (fun g => g.get (Reg.DMA_CH_STAT_STATUS 31) == 1 && g.out == [.hostWrite 0 32 8 1]) &&
     ans (.descriptorComplete 31 false) s (fun g => g.get (Reg.DMA_CH_STAT_STATUS 31) == 3 && g.out == [.hostWrite 0 32 8 1])) = true := by
  decide +kernel
/-- A write of channel 31 whose response is owed, after a request of a chunk. -/
def owed0 : State := chan0 (desc0 0x40000 0x40010 16 0 0 0 0) (fun x => { x with stage := .run, off := 16, wOff := 16, wOut := [⟨0x40010, 16, 0x0B0A, 0⟩] }) []
theorem test_dma_timeout :
    (let s := chan0 0 (fun x => { x with stage := .fetch }) []
     let q := chan0 (desc0 0x40000 0x1000 16 0 0 0 0) (fun x => { x with stage := .run, off := 16, rq := [⟨0, 16, 0⟩], status := 1 }) []
     !s.fab.chUnswept 31 false && !q.fab.chUnswept 31 false && !owed0.fab.chUnswept 31 true && (owed0.fab.ch 31).dst + (owed0.fab.ch 31).dlen ≤ ddrBase &&
     ans (.dmaTimeout ⟨31, false⟩) s (fun g => g.get (Reg.DMA_CH_STAT_STATUS 31) == 5 && g.inbox == [(112, true, true)]) &&
     ans (.dmaTimeout ⟨31, false⟩) q (fun g => (g.ch 31).rq == [] && (g.ch 31).status == 4 && (g.ch 31).ended && g.get (Reg.DMA_CH_ERRADDR_ADDR 31) == 0x40000) &&
     ans (.dmaTimeout ⟨31, true⟩) owed0 (fun g => (g.ch 31).stage == .done && (g.ch 31).status == 4 && (g.ch 31).ended && g.get (Reg.DMA_CH_ERRADDR_ADDR 31) == 0x40010)) = true := by
  decide +kernel
theorem test_dma_read :
    (let s := chan0 (desc0 0x1000 0x40010 128 1 0 0 0) (fun x => { x with stage := .run, off := 128, rq := [⟨0, 128, 1023⟩] }) []
     let d := chan0 (desc0 0x40000 0x40010 16 0 0 0 0) (fun x => { x with stage := .run, off := 16, rq := [⟨0, 16, 0⟩] }) []
     let r := d.fab.rdAny (d.fab.chan 31) 0x40000 16 false
     (s.fab.ch 31).srcSp == 1 && (s.fab.ch 31).dstSp == 0 && (d.fab.ch 31).srcSp == 0 && !r.wait && !r.bad && !r.refused && decide (r.fab.dma = d.fab.dma) &&
     ans (.dmaReadResponse 31 true (BitVec.ofNat 2048 (2 ^ 1024 + 7))) s (fun g => (g.ch 31).wOut.map (fun w => (w.addr, w.len)) == [(0x40010, 128)] && (g.ch 31).fl == [] && (g.ch 31).rq == []) &&
     ans (.dmaReadResponse 31 false 0) s (fun g => (g.ch 31).status == 2 && g.get (Reg.DMA_CH_ERRADDR_ADDR 31) == 0x1000) &&
     ans (.dmaReadResponse 31 true 0) { d with fab := { d.fab with mem := [⟨0x40001, 5⟩] } } (fun g => (g.ch 31).wOut.map (fun w => (w.addr, w.len)) == [(0x40010, 16)]) &&
     (d.fab.rdAny (d.fab.chan 31) 0x40001 1 false).data == 0) = true := by
  decide +kernel
theorem test_dma_write :
    (let r := owed0.fab.wrAny (owed0.fab.chan 31) 0x40010 16 0x0B0A 0
     !(owed0.fab.ch 31).ovl && !r.wait && !r.bad && !r.refused &&
     ans (.dmaWriteResponse 31 true) owed0 (fun g => (g.ch 31).stage == .done && (g.ch 31).wOut == [] && readN g.mem 0x40010 16 == 0x0B0A)) = true := by
  decide +kernel
theorem test_dma_flush : (let s := chan0 (desc0 0x40000 0x1000 16 0 1 0 0) (fun x => { x with stage := .flush, wOff := 16 }) []
     bec (.dmaWriteResponse 31 true) s (s.fab.updCh 31 (fun y => { y with stage := .done })) &&
     ans (.dmaWriteResponse 31 false) s (fun g => (g.ch 31).status == 3 && g.get (Reg.DMA_CH_ERRADDR_ADDR 31) == 0x100F)) = true := by decide +kernel
theorem test_dma_turns : turnOf 31 (fun k => k == 0 || k == 31) = some 0 ∧ turnOf 0 (fun k => k == 0 || k == 31) = some 31 ∧ turnOf 5 (fun _ => false) = none ∧
    (let s := chan0 (desc0 0x1FFF 0x40010 600 1 0 0 0) (fun x => { x with stage := .run }) [(Reg.DMA_CH_CFG_BUFMAX 31, 1)]
     s.fab.canRead 31 && !s.fab.canWrite 31 && s.fab.rdLen 31 == 1 && (s.fab.readTurn 31).out == [.hostRead 0 0x1FFF 1]) = true ∧
    (let s := chan0 (desc0 0x40000 0x10FF 4 0 1 0 0) (fun x => { x with stage := .run, off := 4, fl := [⟨3, 252, 4⟩] }) []
     s.fab.canWrite 31 && s.fab.wrLen 31 == 1 && (s.fab.writeTurn 31).out == [.hostWrite 0 0x10FF 1 0]) = true := by decide +kernel
theorem test_dma_turns_off :
    (let s := chan0 (desc0 0x1FFF 0x40010 600 1 0 0 0) (fun x => { x with stage := .run }) [(Reg.DMA_CH_CFG_BUFMAX 31, 1), (Reg.HP_STAT_BME 0, 0)]
     s.fab.canRead 31 && ((s.fab.readTurn 31).ch 31).status == 2 && (s.fab.readTurn 31).out == []) = true ∧
    (let s := chan0 (desc0 0x0807 0x40010 600 2 0 0 0) (fun x => { x with stage := .run }) [(Reg.DMA_CH_CFG_BUFMAX 31, 1)]
     s.fab.canRead 31 && (s.fab.ch 31).srcSp == 2 && s.fab.rdLen 31 == 256) = true ∧
    (let s := chan0 (desc0 0x40000 0x10FF 4 0 1 0 0) (fun x => { x with stage := .run, off := 4, fl := [⟨3, 252, 4⟩] }) [(Reg.HP_STAT_BME 0, 0)]
     s.fab.canWrite 31 && ((s.fab.writeTurn 31).ch 31).status == 3 && (s.fab.writeTurn 31).get (Reg.DMA_CH_ERRADDR_ADDR 31) == 0x10FF) = true := by decide +kernel
/-- A descriptor of channel 31 sends to link port 3, and a packet of it waits for an ACK. -/
def linkCh0 : State := chan0 (desc0 0x40000 0x40010 16 0 2 (3 * 2 ^ 5) 0) (fun x => { x with stage := .run, off := 16, wOff := 16, wOut := [⟨0x40010, 16, 0, 5⟩] }) []
theorem test_lost_channel : (linkCh0.fab.ch 31).dstSp = 2 ∧ (linkCh0.fab.ch 31).wOut = [⟨0x40010, 16, 0, 5⟩] ∧ (linkCh0.fab.ch 31).status < 3 ∧
    (let g := linkCh0.fab.dmaPortLost (linkCh0.fab.ch 31).cport
     (g.ch 31).stage == .done && (g.ch 31).status == 3 && g.get (Reg.DMA_CH_ERRADDR_ADDR 31) == 0x40010) = true := by decide +kernel

/-! ### Interrupt steering -/

/-- Source `k` in a state with a count, owned by partition 0, with a message in the inbox. -/
def isc0 (m : List (Nat × Bool × Bool)) (l : List (Fld × Nat)) : State := st { part0 l with inbox := m }
theorem test_isc_message : (isc0 [(255, true, true)] []).fab.pwr.st = 3 ∧ isSource 255 = false ∧ isSource 254 = true ∧ (isc0 [] []).fab.pwr.req = none ∧
    ans .iscMessage (isc0 [(255, true, true)] []) (fun g => g.get Reg.ISC_STAT_DBERR == 1 && g.get Reg.ISC_STAT_DBSRC == 255 && g.inbox == []) = true ∧
    ans .iscMessage (isc0 [(254, true, false), (1, true, true)] []) (fun g => g.get Reg.ISC_STAT_DBSRC == 254 && g.inbox == [(1, true, true)]) = true := by decide +kernel
theorem test_isc_edge : (isc0 [] []).fab.get (Reg.ISC_SCFG_KIND 113) = 0 ∧ (isc0 [] []).fab.get (Reg.ISC_SCFG_EN 113) = 1 ∧
    ans .iscMessage (isc0 [(113, true, true)] [(⟨Reg.ISC_SMASK 113 0, 0, 64⟩, 1)]) (fun g => g.get (Reg.ISC_SSTAT_COUNT 113) == 1 && g.get (Reg.ISC_SSTAT_STATE 113) == 2 &&
      g.pres == [(113, 0)] && g.get (Reg.ISC_TSTAT_PEND 0) == 1 && (g.engine 0).get Ecs.INTSTAT_PEND == 1) = true ∧
    ans .iscMessage (isc0 [(113, true, true)] [(Reg.ISC_SCFG_CCOUNT 113, 3)]) (fun g => g.get (Reg.ISC_SSTAT_COUNT 113) == 1 && g.get (Reg.ISC_SSTAT_STATE 113) == 1) = true ∧
    ans .iscMessage (isc0 [(113, true, true)] [(Reg.ISC_SSTAT_STATE 113, 3), (Reg.ISC_SSTAT_COUNT 113, 255)]) (fun g => g.get (Reg.ISC_SSTAT_COUNT 113) == 255 &&
      g.get (Reg.ISC_SSTAT_STATE 113) == 3) = true := by decide +kernel
theorem test_isc_level : (isc0 [] []).fab.get (Reg.ISC_SCFG_KIND 9) = 1 ∧
    ans .iscMessage (isc0 [(9, true, true)] []) (fun g => g.get (Reg.ISC_SSTAT_LEVEL 9) == 1 && g.get (Reg.ISC_SSTAT_STATE 9) == 2) = true ∧
    ans .iscMessage (isc0 [(9, false, true)] [(Reg.ISC_SSTAT_LEVEL 9, 1), (Reg.ISC_SSTAT_STATE 9, 2)]) (fun g => g.get (Reg.ISC_SSTAT_LEVEL 9) == 0 &&
      g.get (Reg.ISC_SSTAT_STATE 9) == 0) = true := by decide +kernel
/-- Dormant, wake entry 31 on source 14. -/
def asleep0 (k : Nat) : State := st { sets [(Reg.ISC_WAKE_SRC 3 7, 14), (Reg.ISC_WAKECTL_EN, 2 ^ 31)] State.reset.fab with
  inbox := [(k, true, true)], pwr := { State.reset.fab.pwr with st := 1 } }
theorem test_isc_wake : (asleep0 14).fab.wakeEntry 14 = some 31 ∧ (asleep0 15).fab.wakeEntry 15 = none ∧
    ans .iscMessage (asleep0 14) (fun g => (g.get Reg.ISC_WAKECTL_PEND).testBit 31 && g.get Reg.PWR_WAKE_STAT_ISC == 1 && g.latched == [(14, true)] && g.inbox == []) = true ∧
    bec .iscMessage (asleep0 15) { (asleep0 15).fab with inbox := [] } = true := by decide +kernel
/-- Source 113 of partition 0 is pending with count 4 and presented to engine 0, the Damson core and the host. -/
def pend0 (l : List (Fld × Nat)) (p : List (Nat × Nat)) : State := st { part0 ([(Reg.ISC_SSTAT_STATE 113, 2), (Reg.ISC_SSTAT_COUNT 113, 4),
  (Reg.ISC_SCFG_OWNER 113, 0), (Reg.ISC_SCFG_DEV 113, 0), (Reg.HP_BIND_PARTS 0, 1)] ++ l) with pres := p }
theorem test_isc_claim : (pend0 [] [(113, 0), (113, 192), (113, 193)]).fab.lowest 0 = some 113 ∧
    ans (.iscClaim 0 0) (pend0 [] [(113, 0), (113, 192), (113, 193)]) (fun g => g.out == [.answer 16 113 8 false] && g.get (Reg.ISC_SSTAT_STATE 113) == 3 &&
      g.get (Reg.ISC_SSTAT_CLAIMER 113) == 0 && g.get (Reg.ISC_SSTAT_LASTCNT 113) == 4 && g.get (Reg.ISC_SSTAT_COUNT 113) == 0 && g.istack 0 == [113] &&
      g.pres == [] && g.get (Reg.ISC_TSTAT_WITHDRAWN 0) == 0 && g.get (Reg.ISC_TSTAT_WITHDRAWN 192) == 1 && g.get (Reg.ISC_SSTAT_HWD 113) == 1) = true ∧
    (pend0 [] []).fab.lowest 192 = none ∧
    bec (.iscClaim 192 0) (pend0 [(Reg.ISC_TSTAT_WITHDRAWN 192, 1)] []) ((pend0 [] []).fab.emit (.answer 208 255 8 false)) = true := by decide +kernel
theorem test_host_claim : (pend0 [] []).fab.ownsSource ((pend0 [] []).fab.host 0) 113 = true ∧ (pend0 [] []).fab.pres.contains (113, 193) = false ∧
    ans (.iscClaim 193 113) (pend0 [] [(113, 193)]) (fun g => g.out == [.answer 209 113 8 false] && g.get (Reg.ISC_SSTAT_STATE 113) == 3 &&
      g.get (Reg.ISC_SSTAT_CLAIMER 113) == 193 && g.pres == [] && g.get (Reg.ISC_SSTAT_HWD 113) == 0) = true ∧
    bec (.iscClaim 193 113) (pend0 [(Reg.ISC_SSTAT_HWD 113, 1)] []) ((pend0 [] []).fab.emit (.answer 209 255 8 false)) = true := by decide +kernel
/-- Source 113 is claimed by target `t`. -/
def held0 (t : Nat) (l : List (Fld × Nat)) : State := st { (pend0 ([(Reg.ISC_SSTAT_STATE 113, 3), (Reg.ISC_SSTAT_CLAIMER 113, t), (Reg.ISC_CTL_MAINT, 0)] ++ l) []).fab with
  istk := if t < 193 then [(t, [113])] else [] }
theorem test_isc_complete : (held0 0 []).fab.get Reg.ISC_CTL_MAINT = 0 ∧ (held0 0 []).fab.istack 0 = [113] ∧
    ans (.iscComplete 0 113) (held0 0 []) (fun g => g.istack 0 == [] && g.get (Reg.ISC_SSTAT_STATE 113) == 2) = true ∧
    ans (.iscComplete 196 113) (held0 196 [(Reg.ISC_SCFG_CCOUNT 113, 5)]) (fun g => g.get (Reg.ISC_SSTAT_STATE 113) == 1) = true ∧
    ans (.iscComplete 0 113) (held0 0 [(Reg.ISC_SCFG_KIND 113, 1)]) (fun g => g.get (Reg.ISC_SSTAT_STATE 113) == 0) = true ∧
    ans (.iscComplete 1 113) (held0 0 []) (fun g => g.get Reg.ISC_STAT_CERR == 1 && g.get Reg.ISC_STAT_CSRC == 113 && g.get Reg.ISC_STAT_CTGT == 1 &&
      same [Reg.ISC_STAT] (held0 0 []).fab g) = true := by decide +kernel
theorem test_isc_eoi : (held0 192 [(Reg.ISC_CTL_MAINT, 1)]).fab.get Reg.ISC_CTL_MAINT = 1 ∧
    ((held0 192 [(Reg.ISC_CTL_MAINT, 1)]).fab.istack 192).head? = some 113 ∧
    ans (.iscEoi 192) (held0 192 [(Reg.ISC_CTL_MAINT, 1)]) (fun g => g.istack 192 == [] && g.get (Reg.ISC_SSTAT_STATE 113) == 2) = true ∧
    ans (.iscEoi 192) (held0 192 []) (fun g => g.get Reg.ISC_STAT_CERR == 1 && g.get Reg.ISC_STAT_CTGT == 192 && same [Reg.ISC_STAT] (held0 192 []).fab g) = true := by
  decide +kernel
theorem test_coalescing_timer :
    (let s := st { (pend0 [(Reg.ISC_SSTAT_STATE 113, 1), (⟨Reg.ISC_SMASK 113 3, 0, 64⟩, 2)] []).fab with itim := [113] }
     s.fab.itim.contains 113 && s.fab.get (Reg.ISC_SSTAT_STATE 113) == 1 && ans (.coalescingTimer 113) s (fun g => g.get (Reg.ISC_SSTAT_STATE 113) == 2 && g.itim == [] &&
      g.get (Reg.ISC_SSTAT_COUNT 113) == 4 && g.pres == [(113, 193)])) = true := by decide +kernel
theorem test_source_config : (pend0 [] []).fab.ownsSource ((pend0 [] []).fab.master 2) 113 = true ∧ (pend0 [] []).fab.ownsSource ((pend0 [] []).fab.master 3) 113 = false ∧
    bec (.iscScfgWrite 3 113 7) (pend0 [] []) (pend0 [] []).fab = true ∧ bec (.iscSmaskWrite 3 113 3 7) (pend0 [] []) (pend0 [] []).fab = true ∧
    ans (.iscScfgWrite 2 113 0x50000) (pend0 [] []) (fun g => g.get (Reg.ISC_SCFG_EN 113) == 0 && g.get (Reg.ISC_SCFG_CCOUNT 113) == 1 && g.get (Reg.ISC_SCFG_CTIME 113) == 5 &&
      g.get (Reg.ISC_SSTAT_STATE 113) == 0 && g.get (Reg.ISC_SSTAT_COUNT 113) == 0) = true ∧
    ans (.iscScfgWrite 0 9 1) (pend0 [(Reg.ISC_SCFG_EN 9, 0), (Reg.ISC_SSTAT_LEVEL 9, 1)] []) (fun g => g.get (Reg.ISC_SSTAT_STATE 9) == 2 &&
      g.get (Reg.ISC_SCFG_KIND 9) == 1) = true ∧
    ans (.iscSmaskWrite 2 113 3 0xFF) (pend0 [] []) (fun g => g.reg (Reg.ISC_SMASK 113 3) == 2 && g.pres == [(113, 193)]) = true := by decide +kernel
theorem test_isc_control : (pend0 [] []).fab.istk = [] ∧ (held0 0 []).fab.istk ≠ [] ∧ bec (.iscCtlWrite 1 0) (pend0 [] []) (pend0 [] []).fab = true ∧
    ans (.iscCtlWrite 0 0) (pend0 [] []) (fun g => g.get Reg.ISC_CTL_MAINT == 0) = true ∧
    ans (.iscCtlWrite 0 1) (held0 0 []) (fun g => g.get Reg.ISC_STAT_MODEERR == 1 && g.get Reg.ISC_CTL_MAINT == 0) = true ∧
    ans (.iscSraise 2 false 113 true) (pend0 [] []) (fun g => g.inbox == [(113, true, true)]) = true ∧
    ans (.iscSraise 3 false 113 true) (pend0 [] []) (fun g => g.inbox == [(113, true, false)]) = true ∧
    bec (.iscSraise 3 true 113 true) (pend0 [] []) (pend0 [] []).fab = true := by decide +kernel

/-! ### DDR ports -/

/-- Port 0 is in use. -/
def port0 : State := S (sets [(Reg.DDR_PSTAT_STATE 3, 2)])
theorem test_dimm_temperature : State.reset.fab.get (Reg.DDR_PSTAT_STATE 3) ≠ 2 ∧ bec (.refresh 3) State.reset State.reset.fab = true ∧
    bec (.dimmTemperatureRead 3 96 false) State.reset State.reset.fab = true ∧
    ans (.dimmTemperatureRead 3 96 false) port0 (fun g => g.get (Reg.DDR_PSTAT_TEMP 3) == 96 && g.get (Reg.DDR_PSTAT_REFDBL 3) == 1 && g.get (Reg.DDR_PSTAT_HOT 3) == 1 &&
      g.inbox == [(8, true, true)]) = true ∧
    ans (.dimmTemperatureRead 3 0xFF false) port0 (fun g => g.get (Reg.DDR_PSTAT_TEMP 3) == 255 && g.get (Reg.DDR_PSTAT_REFDBL 3) == 0 && g.inbox == []) = true := by decide +kernel
theorem test_refresh_doubled : (let s := S (fun f => { sets [(Reg.DDR_PSTAT_STATE 3, 2)] f with ref2x := [3] })
    ans (.dimmTemperatureRead 3 0xFF false) s (fun g => g.get (Reg.DDR_PSTAT_REFDBL 3) == 1)) = true := by decide +kernel
/-- Row 27 is row [2:0] = 3 and row [4:3] = 3, so bank group 0 becomes 3 and bank 0 becomes 3; then the highest port address with
16 row bits and one rank bit. -/
theorem test_dram_places : dramSplit 16 1 0 (27 * 2 ^ 19 + 2 ^ 35 + 5 * 2 ^ 7 + 0x60) = ⟨6, 5, 3, 3, 27, 1, 0⟩ ∧ (2 ^ 36 - 16) % 16 = 0 ∧ dramJoin 16 1 (dramSplit 16 1 0 (2 ^ 36 - 16)) = 2 ^ 36 - 16 ∧
    (dramSplit 16 1 0 (2 ^ 36 - 16)).word = 7 ∧ (dramSplit 16 1 0 (2 ^ 36 - 16)).col = 127 ∧
    ((port0.fab.set Reg.DDR_STAT_SET 15).ddrPort 0x300) = 3 := by decide +kernel
theorem test_parity_alert : bec (.caParityAlert 3 false []) port0 (port0.fab.stick (Reg.DDR_PERR_ALERTS 3) 1) = true ∧
    ans (.caParityAlert 3 true []) port0 (fun g => g.get (Reg.DDR_PERR_DOUBLE 3) == 1 && g.get (Reg.DDR_PERR_ALERTS 3) == 1) = true ∧
    (let s := S (sets [(Reg.DDR_STAT_CAP, 1), (Reg.DDR_STAT_SET, 1), (Reg.DDR_PSTAT_STATE 0, 2)])
     let x := s.fab.dramOf 0x123450
     s.fab.dramAt 0 x == ddrBase + 0x123450 && s.fab.dramOf 0x123450 == x && decide (ddrBase + 0x123450 < ddrBase + s.fab.ddrBytes) &&
     s.fab.ddrPort 0x123450 == 0 && (rsDecode true 0xFF00FF).out == .uncorrectable &&
     ans (.caParityAlert 0 true [(x, 0xFF00FF)]) s (fun g => Store.get 0 g.err ((ddrBase + 0x123450) / 16) == 0xFF00FF)) = true := by decide +kernel
/-- A DIMM of a capacity code. -/
def dimm (cap : Nat) : Dimm := ⟨0, 1, 0, false, cap, 7, 1⟩
theorem test_retrain : State.reset.fab.ddrFree = true ∧ (part0 [(Reg.MEM_DOWNER_OWN 0, 0)]).ddrFree = false ∧
    bec (.ddrRetrain 1 [dimm 1, dimm 1, dimm 1, dimm 1]) State.reset State.reset.fab = true ∧
    ans (.ddrRetrain 0 [dimm 1, dimm 1, dimm 1, dimm 1]) (st (part0 [(Reg.MEM_DOWNER_OWN 0, 0)])) (fun g => g.get Reg.DDR_STAT_RTERR == 1) = true ∧
    ans (.ddrRetrain 0 [dimm 1, dimm 1, dimm 2, dimm 1]) (S (sets [(Reg.DDR_PCFG_EN 0, 1), (Reg.DDR_PCFG_EN 1, 1), (Reg.DDR_PCFG_EN 2, 1), (Reg.DDR_PCFG_EN 3, 1)]))
      (fun g => g.get Reg.DDR_STAT_SET == 3 && g.get Reg.DDR_STAT_TRAINED == 1 && g.get (Reg.DDR_PSTAT_STATE 2) == 3 && g.get (Reg.DDR_PSTAT_STATE 3) == 4 &&
      g.dimms.length == 4) = true := by decide +kernel

/-! ### The resident monitor and the test access port -/

/-- A monitor request of opcode, length and payload: over UART0 while debug access is open, firmware running. -/
def mon0 (l : List (Fld × Nat)) (g : Fab → Fab) : State := st (g { part0 ([(Reg.HP_BIND_PARTS 0, 1), (Reg.DEV_FEAT_ACCEPT_ACCEPT 0, 0x1FFF), (Reg.DBG_STAT_OPEN, 1)] ++ l) with
  mgmt := { State.reset.fab.mgmt with running := true } })
/-- The request that stands at the head of port 0's mailbox. -/
def monHead (op len pay : Nat) (l : List (Fld × Nat)) : State :=
  mon0 ([(Reg.MGMT_MBX_STAT_BUSY 0, 1)] ++ l) (fun f => { f with mbx := { f.mbx with queue := [(0, rq op len pay, false)], job := none } })
theorem test_asks_mailbox (op len pay : Nat) (l : List (Fld × Nat)) (h : (monHead op len pay l).fab.live = true ∧ (monHead op len pay l).fab.fwUp = true ∧
    rqOp (rq op len pay) = op ∧ (monHead op len pay l).fab.accepted 0 12 = true ∧ rqBits (rq op len pay) 0 8 < 8 ∧
    (monHead op len pay l).fab.boundTo 0 (rqBits (rq op len pay) 0 8) = true) :
    (monHead op len pay l).fab.MonAsks (.mailbox 0) op (rq op len pay) (some 0) :=
  ⟨h.1, h.2.1, by decide, rfl, rfl, ⟨[], rfl⟩, h.2.2⟩
theorem test_asks_uart : (mon0 [] id).fab.MonAsks (.uart 5 [0]) 0x10 (0x10 + 5 * 2 ^ 8 + 1 * 2 ^ 16 + 2 ^ 64 * 0) none := by
  refine ⟨by decide +kernel, by decide +kernel, rfl, by decide, by decide +kernel, by decide⟩
theorem test_asks_hold : (monHead 0x17 16 (0x100000 * 2 ^ 8 + 8 * 2 ^ 48) []).fab.live = true ∧ (monHead 0x17 16 0 []).fab.fwUp = true ∧
    rqOp (rq 0x17 16 0) = 0x17 ∧ (monHead 0x17 16 0 []).fab.accepted 0 12 = true ∧ rqBits (rq 0x17 16 0) 0 8 = 0 ∧
    (monHead 0x17 16 0 []).fab.boundTo 0 0 = true := by decide +kernel
theorem test_mon_refusals : monForm 0x10 (rq 0x10 2 0) = false ∧ monForm 0x14 (rq 0x14 7 (191 * 2 ^ 8 + 1 * 2 ^ 48)) = true ∧
    (monHead 0x14 7 (191 * 2 ^ 8 + 1 * 2 ^ 48) []).fab.monReach (some 0) 191 = false ∧
    (monHead 0x14 7 (1 * 2 ^ 48) []).fab.monReach (some 0) 0 = true ∧
    bec (.monStatus (.mailbox 0)) (monHead 0x10 2 0 []) ((monHead 0x10 2 0 []).fab.monDone (.mailbox 0) 0x10 (rq 0x10 2 0) 1 []) = true ∧
    bec (.monRdreg (.mailbox 0)) (monHead 0x14 7 (191 * 2 ^ 8 + 1 * 2 ^ 48) [])
      ((monHead 0x14 7 (191 * 2 ^ 8 + 1 * 2 ^ 48) []).fab.monDone (.mailbox 0) 0x14 (rq 0x14 7 (191 * 2 ^ 8 + 1 * 2 ^ 48)) 1 []) = true := by decide +kernel
/-- Engine 0 runs. -/
def monRun (f : Fab) : Fab := f.updEng 0 (fun e => { e with phase := .running })
theorem test_mon_running : ((mon0 [] monRun).fab.engine 0).openToArea = false ∧
    (let c := Instr.monRdreg (.uart 5 [0, 0, 0, 0, 0, 0, 1])
     ans c (mon0 [] monRun) (fun g => g.out == [.uart (uartFrame (toBytes (0x14 + 5 * 2 ^ 8 + 0xA * 2 ^ 16) 8))]) &&
     ans c (mon0 [(Reg.DBG_STAT_OPEN, 0)] monRun) (fun g => g.out == [.uart (uartFrame (toBytes (0x14 + 5 * 2 ^ 8 + 9 * 2 ^ 16) 8))])) = true := by decide +kernel
theorem test_mon_status : monForm 0x10 (rq 0x10 1 0) = true ∧
    ans (.monStatus (.mailbox 0)) (monHead 0x10 1 0 []) (fun g => Store.get 0 g.mbx.rsp 0 == w64 (0x10 + 5 * 2 ^ 8 + 48 * 2 ^ 32) && Store.get 0 g.mbx.rsp 1 == 0 &&
      Store.get 0 g.mbx.rsp 4 == 1) = true := by decide +kernel
theorem test_mon_engines : monForm 0x11 (rq 0x11 25 (5 * 2 ^ 8)) = true ∧
    ans (.monHalt (.mailbox 0)) (monHead 0x11 25 (5 * 2 ^ 8) []) (fun g => (g.engine 0).halted && !(g.engine 2).halted && Store.get 0 g.mbx.rsp 0 == w64 (0x11 + 5 * 2 ^ 8)) = true ∧
    ans (.monResume (.uart 0 (0 :: 1 :: List.replicate 23 0)) 7) (mon0 [] (fun f => f.updEng 0 (fun e => { e with halted := true }))) (fun g => !(g.engine 0).halted) = true ∧
    ans (.monStep (.uart 0 (0 :: 1 :: List.replicate 23 0)) 7) (mon0 [] (fun f => f.updEng 0 (fun e => { e with halted := true, phase := .running }))) (fun g =>
      !(g.engine 0).halted && (g.engine 0).stepReq) = true := by decide +kernel
theorem test_mon_registers : ((mon0 [] id).fab.engine 191).openToArea = true ∧
    (mon0 [] id).fab.refusal dbgPort (monRegAddr (rq 0x14 7 (191 * 2 ^ 8 + 0x8008 * 2 ^ 16 + 1 * 2 ^ 48)) 0) false = none ∧
    ans (.monRdreg (.uart 5 [0, 191, 0x08, 0x80, 0, 0, 1])) (mon0 [] (fun f => f.setEng 191 ((f.engine 191).setWindow 0x8008 77))) (fun g =>
      g.out == [.uart (uartFrame (toBytes (0x14 + 5 * 2 ^ 8 + 8 * 2 ^ 32) 8 ++ [77, 0, 0, 0, 0, 0, 0, 0]))]) = true ∧
    ans (.monWrreg (.uart 5 [0, 191, 0x08, 0x80, 0, 0, 1, 77, 1, 0, 0, 0, 0, 0, 0])) (mon0 [] id) (fun g => (g.engine 191).rA 1 == 333) = true := by decide +kernel
theorem test_mon_memory :
    (let r := rq 0x16 9 (0x40008 * 2 ^ 8 + 8 * 2 ^ 48)
     let w := rq 0x17 16 (0x40008 * 2 ^ 8 + 8 * 2 ^ 48 + 0x1122 * 2 ^ 64)
     monForm 0x16 r && monForm 0x17 w && (((mon0 [] id).fab.monReads none 0x40008 false 1).isSome) && (((mon0 [] id).fab.monWrites none 0x40008 3 [0x1122]).isSome) &&
     ans (.monRdmem (.uart 5 [0, 8, 0, 4, 0, 0, 8, 0, 0])) (mon0 [] (fun f => { f with mem := [⟨0x40008, 9⟩] })) (fun g =>
       g.out == [.uart (uartFrame (toBytes (0x16 + 5 * 2 ^ 8 + 8 * 2 ^ 32) 8 ++ [9, 0, 0, 0, 0, 0, 0, 0]))]) &&
     ans (.monWrmem (.uart 5 [0, 8, 0, 4, 0, 0, 8, 0, 0x22, 0x11, 0, 0, 0, 0, 0, 0]) 3) (mon0 [] id) (fun g => readN g.mem 0x40008 8 == 0x1122)) = true := by
  decide +kernel
theorem test_tap : (S (fun f => { f with pwr := { f.pwr with porst := true } })).fab.pwr.porst = true ∧ State.reset.fab.pwr.porst = false ∧ (5#4).toNat = 5 ∧
    ans (.extest 9 4 6) (S (fun f => { f with pwr := { f.pwr with porst := true } })) (fun g => g.out == [.tdo 9] && g.tap.ir == 0 && g.tap.drive == 1 && g.tap.boundary == 6) = true ∧
    ans (.highz 3 7) (S (fun f => { f with pwr := { f.pwr with porst := true } })) (fun g => g.out == [.tdo 6] && g.tap.ir == 4 && g.tap.drive == 2) = true ∧
    ans (.clamp 3 7) State.reset (fun g => g.out == [.tdo 6] && g.tap.ir == 3 && g.tap.drive == 0) = true ∧
    ans (.tapBypass 15 3 7) State.reset (fun g => g.out == [.tdo 6] && g.tap.ir == 15) = true ∧
    ans (.samplePreload 9 6) State.reset (fun g => g.out == [.tdo 9] && g.tap.ir == 1 && g.tap.boundary == 6) = true ∧
    ans .idcode State.reset (fun g => g.out == [.tdo 0x2019256B] && g.tap.ir == 2) = true := by decide +kernel

/-! ### Ciphers and the digest: the examples of FIPS 197 (C.3), IEEE 1619 (vector 10, first block) and FIPS 180-4 -/

/-- A number of which the bytes are written first to last. -/
def bytes (n v : Nat) : Nat := aesNum (aesBytes n v).reverse
theorem test_cipher : aesEnc (bytes 32 0x000102030405060708090a0b0c0d0e0f101112131415161718191a1b1c1d1e1f) (bytes 16 0x00112233445566778899aabbccddeeff) =
      bytes 16 0x8ea2b7ca516745bfeafc49904b496089 ∧
    aesDec (bytes 32 0x000102030405060708090a0b0c0d0e0f101112131415161718191a1b1c1d1e1f) (bytes 16 0x8ea2b7ca516745bfeafc49904b496089) =
      bytes 16 0x00112233445566778899aabbccddeeff := by decide +kernel
theorem test_xts : xtsEnc (bytes 32 0x2718281828459045235360287471352662497757247093699959574966967627 +
      bytes 32 0x3141592653589793238462643383279502884197169399375105820974944592 * 2 ^ 256) (0xFF * 16) (bytes 16 0x000102030405060708090a0b0c0d0e0f) =
    bytes 16 0x1c3b3a102f770386e4836c99e370cf9b := by decide +kernel
theorem test_digest : sha [0x61, 0x62, 0x63] = (aesBytes 64 0xddaf35a193617abacc417349ae20413112e6fa4e89a97ea20a9eeee64b55d39a2192992a274fc1a836ba3c23a3feebbd454d4423643ce80e2a9ac94fa54ca49f).reverse := by
  decide +kernel
/-- Granule 0 is of partition 0, whose working key is pair 5; the management key is pair 0. -/
def keyed0 : Fab := { part0 dark0 with keys := [(0, 5)], pairs := [(5, 2 ^ 256 + 7)] }
theorem test_encrypted_word : isDdr ddrBase = true ∧ keyed0.lost = [] ∧
    ((keyed0.putWord (ddrBase / 16) 0x77).decodeWord (ddrBase / 16)).data = 0x77 ∧
    (({ keyed0.putWord (ddrBase / 16) 0x77 with keys := [] } : Fab).keyTag ddrBase) ≠ keyed0.keyTag ddrBase ∧
    (({ keyed0.putWord (ddrBase / 16) 0x77 with keys := [] } : Fab).decodeWord (ddrBase / 16)).data ≠ 0x77 := by decide +kernel

/-! ### Run control and debug accesses -/

/-- Debug access is open and engine 191 is as given. -/
def dbg0 (g : Engine → Engine) (l : List (Fld × Nat)) : State := st ((part0 ([(Reg.DBG_STAT_OPEN, 1)] ++ l)).updEng 191 g)
theorem test_ehalt : (dbg0 id []).fab.get Reg.DBG_STAT_OPEN = 1 ∧ (dbg0 id []).fab.lockHeld 191 = false ∧ ((dbg0 id []).fab.engine 191).idle = true ∧
    ((dbg0 (fun e => { e with phase := .running }) []).fab.engine 191).idle = false ∧
    bec (.ehalt 1 191) (dbg0 (fun e => { e with halted := true }) []) (dbg0 (fun e => { e with halted := true }) []).fab = true ∧
    ans (.ehalt 1 191) (dbg0 (fun e => { e with phase := .running }) []) (fun g => (g.engine 191).haltReq == some 0 && !(g.engine 191).halted) = true ∧
    ans (.ehalt 0 191) (dbg0 id []) (fun g => (g.engine 191).halted && (g.engine 191).get Ecs.DBGSTAT_HALTED == 1 && (g.reg (Reg.DBG_EHALTED 2)).getLsbD 63 &&
      (g.engine 191).get Ecs.DBGSTAT_CAUSE == 0) = true := by decide +kernel
/-- Engine 0 runs at 0x1FFFC and a breakpoint asks it to halt. -/
def brk0 : State := st ((part0 []).updEng 0 (fun e => { e with phase := .running, pc := 0x1FFFC, haltReq := some 13 }))
theorem test_engine_halt : brk0.fab.engOn 0 = true ∧ (brk0.fab.engine 0).trap = none ∧ (brk0.fab.engine 0).halted = false ∧ brk0.fab.lockHeld 0 = false ∧
    ans (.engineHalt 0) brk0 (fun g => (g.engine 0).halted && (g.engine 0).haltReq == none && (g.engine 0).get Ecs.DBGSTAT_CAUSE == 1 &&
      (g.engine 0).get Ecs.DBGSTAT_BRK == 3 && (g.engine 0).get Ecs.DPC_PC == 0x7FFF && (g.reg (Reg.DBG_EHALTED 0)).getLsbD 0) = true := by decide +kernel
/-- Engine 191 is halted at DPC 5, its last bundle at 7. -/
def halted0 : State := dbg0 (fun e => { (e.set Ecs.DPC_PC 5).set Ecs.DBGSTAT_HALTED 1 with halted := true, phase := .running, lastT := 7 }) [(⟨Reg.DBG_EHALTED 2, 63, 1⟩, 1)]
theorem test_restart : (halted0.fab.engine 191).halted = true ∧ halted0.fab.lockHeld 191 = false ∧ (halted0.fab.engine 191).idle = false ∧ halted0.fab.engPart 191 = none ∧
    [true, false].all (fun b => ans (if b then .estep 1 191 9 else .eresume 1 191 9) halted0 (fun g => !(g.engine 191).halted && (g.engine 191).stepReq == b &&
      (g.engine 191).pc == 20 && (g.engine 191).issueAt == 9 && g.reg (Reg.DBG_EHALTED 2) == 0)) = true ∧
    bec (.estep 0 191 9) (dbg0 id []) (dbg0 id []).fab = true := by decide +kernel
/-- Engine 0 halted in a running share in timed lock-step. -/
def lock0 : State := st ((part0 [(Reg.SQ_STAT_STATE 0, 2)]).updEng 0 (fun e => { e with halted := true, phase := .running }))
theorem test_lock_held : lock0.fab.lockHeld 0 = true ∧ bec (.estep 0 0 9) lock0 lock0.fab = true := by decide +kernel

theorem test_register_write : isRegAddr 0x200060000 = true ∧ regHole 0x200060000 = true ∧ isRegAddr Reg.ISC_CTL = true ∧ regHole Reg.DBG_STAT = false ∧
    regReach (State.reset.fab.master 2) Reg.DBG_MADDR = false ∧ regReach (State.reset.fab.master 0) Reg.DBG_MADDR = true ∧
    bec (.registerWrite 0 0x200060000 8 1 2) State.reset (State.reset.fab.errLog damson 0x200060000 0 0) = true ∧
    bec (.registerWrite 2 Reg.DBG_MADDR 8 1 2) State.reset (State.reset.fab.errLog (State.reset.fab.host 0) Reg.DBG_MADDR 0 0) = true ∧
    bec (.registerWrite 0 (Reg.ISC_CTL + 1) 8 0 2) State.reset State.reset.fab = true ∧
    ans (.registerWrite 0 Reg.ISC_CTL 4 0 2) State.reset (fun g => g.get Reg.ISC_CTL_MAINT == 0) = true ∧
    ans (.registerWrite 0 (191 * 0x100000 + 0xF8008) 8 77 2) State.reset (fun g => (g.engine 191).rA 1 == 77) = true ∧
    State.reset.fab.refusal damson (191 * 0x100000 + 0xF8008) true = none ∧ ((State.reset.fab.engine 191).window 0x8008).isSome = true := by decide +kernel
theorem test_access_codes : ((famAt Reg.ISC_CTL).map (fun x => (w64 x.rw).getLsbD 0)) = some true ∧
    ((famAt Reg.ISC_STAT).map (fun x => (w64 x.rw).getLsbD 2 || (w64 x.lock).getLsbD 2 || (w64 x.once).getLsbD 2)) = some false ∧
    (State.reset.fab.genWrite ⟨Reg.ISC_CTL, 0, w64 (2 ^ 64 - 1)⟩).reg Reg.ISC_CTL = 0 ∧
    (((part0 [(Reg.ISC_STAT_MODEERR, 1)]).genWrite ⟨Reg.ISC_STAT, 4, w64 (2 ^ 64 - 1)⟩).reg Reg.ISC_STAT).getLsbD 2 = false := by decide +kernel
theorem test_mdata : (part0 [(Reg.DBG_MADDR_ADDR, 0x8001)]).active = true ∧ ((part0 [(Reg.DBG_MADDR_ADDR, 0x8001)]).dbgRead 0x40008 false 2).wait = false ∧
    (part0 []).refusal dbgPort 0x40008 false = none ∧ (part0 []).refusal dbgPort 0x40008 true = none ∧ (part0 []).fencedBy 0x40008 true = none ∧
    (part0 []).fencedBy 0x40008 false = none ∧
    ans (.mdataAccess 0 none 9) (st { part0 [(Reg.DBG_MADDR_ADDR, 0x8001)] with mem := [⟨0x4000F, 1⟩] }) (fun g => g.out == [.answer 0 (2 ^ 56) 8 false]) = true ∧
    ans (.mdataAccess 0 (some 0x22) 9) (st (part0 [(Reg.DBG_MADDR_ADDR, 0x8001)])) (fun g => readN g.mem 0x40008 8 == 0x22) = true ∧
    bec (.mdataAccess 1 (some 0x22) 9) (st (part0 [(Reg.DBG_MADDR_ADDR, 0x8001)])) (part0 [(Reg.DBG_MADDR_ADDR, 0x8001)]) = true ∧
    ans (.mdataAccess 2 none 9) (st (part0 [])) (fun g => g.mem == [] && same [Reg.MEM_ERRLOG] (part0 []) g) = true := by decide +kernel

/-- The debug wire with its registers as given; debug access open or not. -/
def wire0 (b : Nat) (x : Dxw) : State := st { part0 [(Reg.DBG_STAT_OPEN, b)] with dxw := x }
theorem test_packets : (wire0 1 Dxw.reset).fab.pwr.st ≠ 0 ∧ (wire0 1 Dxw.reset).fab.mgmt.lc ≠ 5 ∧ Dxw.reset.inProgress = false ∧
    bec .wdataRead (wire0 1 { Dxw.reset with acc := some ⟨0, none, none⟩ }) ((wire0 1 { Dxw.reset with acc := some ⟨0, none, none⟩ }).fab.emit (.dxw 3 0)) = true ∧
    ans (.wdataWrite 1 true) (wire0 0 Dxw.reset) (fun g => g.out == [.dxw 12 0] && g.dxw.err == 4 && g.dxw.errV) = true ∧
    ans .wchalRead (wire0 0 { Dxw.reset with crcErr := true }) (fun g => g.out == [.dxw 12 0]) = true ∧
    ans .wdataRead (wire0 1 { Dxw.reset with acc := some ⟨8, none, some 5⟩, inc := true, waddr := 8 }) (fun g => g.out == [.dxw 6 5] && g.dxw.acc == none && g.dxw.waddr == 16) = true ∧
    ans .wdataRead (wire0 1 { Dxw.reset with waddr := 8 }) (fun g => g.out == [.dxw 3 0] && g.dxw.acc == some ⟨8, none, none⟩) = true := by decide +kernel
theorem test_wire_writes :
    ans (.wdataWrite 7 true) (wire0 1 { Dxw.reset with waddr := 0xFFFFFFFFF8, inc := true }) (fun g => g.out == [.dxw 6 0] && g.dxw.acc == some ⟨0xFFFFFFFFF8, some 7, none⟩ &&
      g.dxw.waddr == 0) = true ∧
    ans .wchalRead (wire0 0 { Dxw.reset with chal := 5, chalIdx := 3 }) (fun g => g.dxw.chalIdx == 0 && g.out == [.dxw 6 0]) = true ∧
    ans (.wunlockWrite 0x0102 true) (wire0 0 Dxw.reset) (fun g => g.dxw.buf == [2, 1, 0, 0, 0, 0, 0, 0]) = true ∧
    ans (.wunlockWrite 0x0102 false) (wire0 0 Dxw.reset) (fun g => g.dxw.buf == [] && g.dxw.crcErr) = true ∧
    bec .dxwResync (wire0 0 Dxw.reset) (wire0 0 Dxw.reset).fab = true := by decide +kernel
/-- An access that waits. -/
def waits0 (a : Nat) (v : Option Word) : State := wire0 1 { Dxw.reset with acc := some ⟨a, v, none⟩ }
theorem test_access_done : ((waits0 0x40000 none).fab.dbgRead 0x40000 false 2).wait = false ∧ (waits0 0x40000 none).fab.live = true ∧ (waits0 0x40000 none).fab.dxw.inProgress = true ∧
    bec (.debugAccessDone true 4) (wire0 1 Dxw.reset) (wire0 1 Dxw.reset).fab = true ∧
    ans (.debugAccessDone false 4) (waits0 0x40000 none) (fun g => g.dxw.acc == some ⟨0x40000, none, some 0⟩ && !g.dxw.inProgress && !g.dxw.errV) = true ∧
    ans (.debugAccessDone false 4) (waits0 0x200060000 none) (fun g => g.dxw.err == 1 && g.dxw.errV) = true ∧
    ans (.debugAccessDone false 4) (waits0 0x40000 (some 6)) (fun g => g.dxw.acc == none && readN g.mem 0x40000 8 == 6) = true ∧
    ans (.debugAccessDone true 4) (waits0 0x40000 none) (fun g => g.dxw.err == 3 && g.dxw.errV && g.dxw.acc == some ⟨0x40000, none, some (BitVec.allOnes 64)⟩) = true ∧
    ans (.debugAccessDone false 4) (st { (waits0 0x40000 none).fab with pwr := { State.reset.fab.pwr with st := 0 } }) (fun g => g.dxw.err == 3 && g.dxw.errV &&
      !g.dxw.inProgress) = true := by decide +kernel
theorem test_unlock : ((0 : Word).getLsbD 12 || (0 : Word).getLsbD 9 || (0 : Word).getLsbD 8) = false ∧
    ans (.unlkPw 0 true) (wire0 0 { Dxw.reset with buf := [1] }) (fun g => g.dxw.check == 1 && g.dxw.held == [1] && g.dxw.buf == [] && g.out == [.dxw 6 0]) = true ∧
    ans (.unlkTok 2 true) (wire0 0 { Dxw.reset with buf := [1], lockout := 1 }) (fun g => g.dxw.check == 0 && g.dxw.buf == [1] && g.dxw.inc) = true ∧
    bec .unlockCheckDone (wire0 0 Dxw.reset) (wire0 0 Dxw.reset).fab = true ∧ (wire0 0 { Dxw.reset with check := 1 }).fab.mgmt.passOk [] = false ∧
    ans .unlockCheckDone (wire0 0 { Dxw.reset with check := 1, fails := 10 }) (fun g => g.dxw.check == 0 && g.dxw.fail && g.dxw.fails == 11 && g.dxw.lockout == 1024) = true := by
  decide +kernel
/-- OTP that holds the digest of sixteen zero bytes and the part's UID as the debug password. -/
def pass0 : Mgmt := { Mgmt.reset with otp := (List.range 8).map (fun i =>
  (128 + i, ofBytes (((sha (List.replicate 16 0 ++ toBytes Mgmt.reset.uid 16)).drop (8 * i)).take 8))) }
theorem test_password : pass0.uid = Mgmt.reset.uid ∧ pass0.passOk (List.replicate 16 0) = true := by decide +kernel

/-! ### The Damson core -/

/-- The Damson core runs at PC 0x100 with G1 = 0xFFFFFFFF and G2 = 2, and further fields. -/
def dam0 (g : Dam → Dam) (l : List (Fld × Nat)) : State := st { part0 ([(Reg.DBG_DPC_PC, 0x100), (Reg.DBG_DREG_G 1, 0xFFFFFFFF), (Reg.DBG_DREG_G 2, 2)] ++ l) with
  dam := g { Dam.reset with started := true, dvec := 0x40, lbuf := some ⟨0x18000008, 0, 0⟩ } }
/-- Does the line buffer hold the instruction at the PC, with no breakpoint? -/
def fetched (f : Fab) : Bool := match f.dam.lbuf with
  | some x => damCached (0x0300000000 + f.dpc) && x.line == (0x0300000000 + f.dpc) / 32 && !x.brk.getLsbD ((0x0300000000 + f.dpc) / 4 % 8)
  | none => false
theorem test_dam_fetched (f : Fab) (h : fetched f = true) : f.DamFetched := by
  unfold fetched at h
  split at h
  · simp only [Bool.and_eq_true, beq_iff_eq, Bool.not_eq_true'] at h
    exact ⟨h.1.1, _, ‹_›, h.1.2, h.2⟩
  · simp at h
/-- Each field of `DamReady` as a truth value. -/
def ready (s : State) (op : DamOp) : Bool := s.fab.live && s.fab.dam.started && s.fab.dam.ld.isNone && s.fab.dam.slot.isNone && s.fab.dam.srq.isEmpty &&
  s.fab.get Reg.DBG_DSTAT_HALTED == 0 && !s.fab.dhalt && fetched s.fab && !s.fab.damHeld op && damWf op
theorem test_dam_ready (s : State) (op : DamOp) (h : ready s op = true) : s.fab.DamReady op := by
  simp only [ready, Bool.and_eq_true, Option.isNone_iff_eq_none, List.isEmpty_iff, Bool.not_eq_true', beq_iff_eq] at h
  obtain ⟨⟨⟨⟨⟨⟨⟨⟨⟨h1, h2⟩, h3⟩, h4⟩, h5⟩, h6⟩, h7⟩, h8⟩, h9⟩, h10⟩ := h
  exact ⟨h1, h2, h3, h4, h5, h6, h7, test_dam_fetched _ h8, h9, h10⟩
theorem test_dam_alu : ready (dam0 id []) (.alu 3 0 1 2 none) = true ∧ ready (dam0 id []) (.mul true 30 31 1 2) = true ∧
    ans (.damsonInstruction (.alu 3 0 1 2 none) 7) (dam0 id []) (fun g => g.get Reg.DBG_DPC_PC == 0x104 && g.reg (Reg.DBG_DREG 0) == 0) = true ∧
    ans (.damsonInstruction (.mul true 30 31 1 2) 7) (dam0 id []) (fun g => g.gReg 30 == 0xFFFFFFFE && g.gReg 31 == 0xFFFFFFFF) = true ∧
    ans (.damsonInstruction (.mul false 30 31 1 2) 7) (dam0 id []) (fun g => g.gReg 30 == 0xFFFFFFFE && g.gReg 31 == 1 && g.get Reg.DBG_DPC_PC == 0x104) = true := by
  decide +kernel
theorem test_dam_divide : ready (dam0 id []) (.div true true 31 1 2) = true ∧
    ans (.damsonInstruction (.div true true 31 1 2) 7) (dam0 id []) (fun g => g.dam.div == some ⟨true, true, 0xFFFFFFFF, 2, 31⟩) = true ∧
    ans .damsonDivideComplete (dam0 (fun d => { d with div := some ⟨true, true, 0xFFFFFFFF, 2, 31⟩ }) []) (fun g => g.gReg 31 == 0xFFFFFFFF && g.dam.div == none) = true ∧
    ans .damsonDivideComplete (dam0 (fun d => { d with div := some ⟨false, false, 0xFFFFFFFF, 2, 31⟩ }) []) (fun g => g.gReg 31 == 0x7FFFFFFF) = true := by decide +kernel
theorem test_dam_control : ready (dam0 id []) (.getCtl 7 31) = true ∧ ready (dam0 id []) (.setCtl 0 1) = true ∧ ready (dam0 id []) (.icinv none) = true ∧ ready (dam0 id []) (.icinv (some 0x18000008)) = true ∧
    ans (.damsonInstruction (.getCtl 4 31) 7) (dam0 id []) (fun g => g.gReg 31 == 0x40) = true ∧
    ans (.damsonInstruction (.setCtl 0 1) 7) (dam0 id []) (fun g => g.dam.srq == [(3, 0xFFFFFFFF)] && g.dsr == (dam0 id []).fab.dsr && g.get Reg.DBG_DPC_PC == 0x104) = true := by
  decide +kernel
theorem test_dam_load : ready (dam0 id []) (.load 0x3001FFFFF 1 true 31) = true ∧ (dam0 id []).fab.err = [] ∧ (dam0 id []).fab.refusal damson 0x3001FFFFF false = none ∧
    ans (.damsonInstruction (.load 0x3001FFFFF 1 true 31) 7) { dam0 id [] with fab := { (dam0 id []).fab with mem := [⟨0x3001FFFFF, 0x80⟩] } } (fun g => g.gReg 31 == 0xFFFFFF80 &&
      g.get Reg.DBG_DPC_PC == 0x104) = true ∧
    ans (.damsonInstruction (.load 0x300100000 4 false 0) 7) (dam0 id []) (fun g => g.get Reg.DBG_DPC_PC == 0x104) = true := by decide +kernel
theorem test_dam_store : (dam0 id []).fab.refusal damson 0x300100000 true = none ∧ (dam0 id []).fab.refusal damson 0x300100003 true = none ∧
    ready (dam0 id []) (.store 0x300100000 4 1) = true ∧
    ans (.damsonInstruction (.store 0x300100000 4 1) 7) (dam0 id []) (fun g => readN g.mem 0x300100000 8 == 0xFFFFFFFF && g.mem.length == 4) = true := by decide +kernel
theorem test_dam_waits : ready (dam0 id []) (.lockLoad 0x300800000 4 31) = true ∧ ready (dam0 id []) (.lockStore 0x300800000 4 1 31) = true ∧
    ans (.damsonInstruction (.lockLoad 0x3009FFFFC 4 31) 7) (dam0 id []) (fun g => g.dam.ld == some ⟨0x3009FFFFC, 4, false, 31, true⟩ && g.dam.lock && g.get Reg.DBG_DPC_PC == 0x100) = true ∧
    (dam0 id []).fab.taskMode = false ∧ damDevice 0x300A00000 = true ∧ ready (dam0 id []) (.store 0x300A00000 4 1) = true := by decide +kernel
theorem test_dam_device : (dam0 id []).fab.vaultWaits 0x300A00000 = false ∧
    ans (.damsonInstruction (.store 0x300A00000 4 1) 7) (dam0 id []) (fun g => g.mem == (dam0 id []).fab.mem && g.get Reg.DBG_DPC_PC == 0x104) = true := by decide +kernel
theorem test_dam_branch : ready (dam0 id []) (.branch true true 0x200) = true ∧ ready (dam0 id []) (.branch false true 0x200) = true ∧
    ans (.damsonInstruction (.branch false true 0x200) 7) (dam0 id [(Reg.DBG_DPC_PC, 0xFFFFFFFC)]) (fun g => g.dam.slot == none && g.get Reg.DBG_DPC_PC == 4) = true ∧
    ans (.damsonInstruction (.icinv none) 7) (dam0 (fun d => { d with slot := some 0x200 }) []) (fun g => g.dam.slot == none && g.get Reg.DBG_DPC_PC == 0x200) = true := by decide +kernel
theorem test_dam_exceptions : ready (dam0 id []) .illegal = true ∧ ready (dam0 id []) .syscall = true ∧ ready (dam0 id [(Reg.DBG_DSR_SR, 1)]) (.load 0x300200000 4 false 1) = true ∧
    (dam0 id [(Reg.DBG_DSR_SR, 1)]).fab.taskMode = true ∧ damPriv 0x300200000 = true ∧
    ans (.damsonInstruction .illegal 7) (dam0 (fun d => { d with div := some ⟨true, true, 1, 2, 31⟩ }) [(Reg.DBG_DSR_SR, 7)]) (fun g => g.dam.cause == 2 && g.dam.epc == 0x100 && g.dam.esr == 7 &&
      g.dsr == 4 && g.get Reg.DBG_DPC_PC == 0x60 && g.dam.saved == ⟨true, true, 1, 2, 31⟩ && g.dam.pend && g.dam.div == none) = true ∧
    ans (.damsonInstruction (.load 0x300200000 4 false 1) 7) (dam0 id [(Reg.DBG_DSR_SR, 1)]) (fun g => g.dam.cause == 3 && g.get Reg.DBG_DPC_PC == 0x70) = true ∧
    ans (.damsonInterrupt false) (dam0 id [(Reg.DBG_DSR_SR, 2), (Reg.ISC_TSTAT_PEND 192, 1)]) (fun g => g.dam.cause == 5 && g.dam.esr == 2 && g.dsr == 0 && g.get Reg.DBG_DPC_PC == 0x90) = true ∧
    (dam0 id [(Reg.DBG_DSR_SR, 2), (Reg.ISC_TSTAT_PEND 192, 1)]).fab.damIe = true := by decide +kernel
theorem test_dam_return : ready (dam0 id []) .rfe = true ∧
    ans (.damsonInstruction .rfe 7) (dam0 (fun d => { d with esr := 7, epc := 0x300, pend := true, saved := ⟨true, true, 1, 2, 31⟩ }) []) (fun g => g.dsr == 7 && g.get Reg.DBG_DPC_PC == 0x300 &&
      !g.dam.pend && g.dam.div == some ⟨true, true, 1, 2, 31⟩) = true := by decide +kernel
/-- A load of flash or of the core's 8 MiB waits. -/
def ld0 (a : Nat) : State := dam0 (fun d => { d with ld := some ⟨a, 4, false, 31, false⟩ }) []
theorem test_dam_response : ((ld0 0x300800000).fab.damRead 0x300800000 4).wait = false ∧ ((ld0 0x300800000).fab.damRead 0x300800000 4).bad = false ∧
    (ld0 0x300C00000).fab.vaultWaits 0x300C00000 = false ∧ inFlashWin 0x300C00000 = true ∧ ((ld0 0x300C00000).fab.damRead 0x300C00000 4).wait = false ∧
    (ld0 0x300800000).fab.unswept 0x300800000 = false ∧
    ans (.damsonLoadResponse false) (ld0 0x300800000) (fun g => g.dam.ld == none && g.get Reg.DBG_DPC_PC == 0x104) = true ∧
    ans (.damsonLoadResponse true) (ld0 0x300C00000) (fun g => g.dam.cause == 1 && g.get Reg.DBG_DPC_PC == 0x50) = true ∧
    ans .damsonBusTimeout (ld0 0x300800000) (fun g => g.dam.ld == none && g.dam.cause == 1 && g.dam.epc == 0x100 && g.get Reg.DBG_DPC_PC == 0x50) = true ∧
    bec .damsonBusTimeout (dam0 id []) (dam0 id []).fab = true := by decide +kernel
/-- The Damson core at TCM address 0x100 with its line buffer and its cache as given, a patch unit 15 of a kind for that word, debug
access open. -/
def fetch0 (b : Option DamLine) (c : Option DamLine) (kind brk : Nat) : State := dam0 (fun d => { d with
  lbuf := b, icache := match c with | some x => [(2 * (0x18000008 % 256), some x)] | none => [] })
  [(Reg.DBG_STAT_OPEN, brk), (Reg.PATCH_A_KIND 15, kind), (Reg.PATCH_A_REGION 15, 0), (Reg.PATCH_A_ADDR 15, 0x40), (Reg.PATCH_V_VALUE 15, 0x1234)]
theorem test_fetch_cached : damCached 0x300000100 = true ∧ ((fetch0 none (some ⟨0x18000008, 0, 1⟩) 0 1).fab.dam.cached 0x18000008) = some ⟨0x18000008, 0, 1⟩ ∧
    (fetch0 none (some ⟨0x18000008, 0, 1⟩) 0 1).fab.damFetch.brk = true ∧ (fetch0 none none 0 1).fab.dam.cached 0x18000008 = none ∧
    ((fetch0 none none 0 1).fab.damLineOf 0x18000008).2.1 = none ∧
    ans (.damsonInstruction .illegal 7) (fetch0 none (some ⟨0x18000008, 0, 1⟩) 0 1) (fun g => g.get Reg.DBG_DSTAT_HALTED == 1 && g.get Reg.DBG_DSTAT_PBRK == 1 &&
      g.get Reg.DBG_DPC_PC == 0x100 && g.dam.cause == 0) = true ∧
    ans (.damsonInstruction .illegal 7) (fetch0 (some ⟨0x18000008, 0, 0⟩) (some ⟨0x18000008, 0, 1⟩) 0 1) (fun g => g.dam.cause == 2) = true := by decide +kernel
theorem test_fetch_patched : patchPlace (32 * 0x18000008) = some (0, 0x100) ∧ (fetch0 none none 1 0).fab.patchAt 1 0 0x100 = some 15 ∧
    (((fetch0 none none 1 0).fab.damLineOf 0x18000008).1.data.toNat) % 2 ^ 32 = 0x1234 ∧ ((fetch0 none none 1 0).fab.damLineOf 0x18000008).1.brk = 0 ∧
    ((fetch0 none none 2 0).fab.damLineOf 0x18000008).1.brk = 1 ∧ (fetch0 none none 2 0).fab.patchAt 2 0 0x100 = some 15 := by decide +kernel
theorem test_fetch_poison : (let s := st { (fetch0 none none 0 0).fab with err := [(0x30000010, poisonWord)] }
    (s.fab.damLineOf 0x18000008).2.1.isSome && s.fab.damFetch.bad && !s.fab.damFetch.brk &&
    ans (.damsonInstruction .syscall 7) s (fun g => g.dam.cause == 1 && g.dam.epc == 0x100)) = true := by decide +kernel
theorem test_fetch_flash : (let s := dam0 id [(Reg.DBG_DPC_PC, 0xC00000)]
    inFlashWin (0x0300000000 + s.fab.dpc) && (s.fab.dam.cached ((0x0300000000 + s.fab.dpc) / 32)).isNone &&
    ans (.damsonInstruction .noFetch 7) s (fun g => g.dam.cause == 1)) = true := by decide +kernel
/-- A load of an UNCORRECTABLE word waits. -/
def ldBad0 : State := st { (ld0 0x300100000).fab with err := [(0x30010000, 0xFF00FF)] }
theorem test_dam_bus_error : (ldBad0.fab.damRead 0x300100000 4).wait = false ∧ (ldBad0.fab.damRead 0x300100000 4).bad = true ∧
    ans (.damsonLoadResponse false) ldBad0 (fun g => g.dam.cause == 1 && g.dam.ld == none) = true := by decide +kernel
theorem test_dam_halts : (dam0 id [(Reg.DBG_STAT_OPEN, 1)]).fab.active = true ∧ (dam0 id [(Reg.DBG_STAT_OPEN, 1)]).fab.mbx.queue = [] ∧
    (dam0 id [(Reg.DBG_STAT_OPEN, 1)]).fab.mbx.job = none ∧
    ans (.damsonHalt 1 false) (dam0 id [(Reg.DBG_STAT_OPEN, 1)]) (fun g => g.get Reg.DBG_DSTAT_HALTED == 1 && !g.dhalt) = true ∧
    ans (.damsonHalt 1 true) (dam0 (fun d => { d with lock := true }) [(Reg.DBG_STAT_OPEN, 1)]) (fun g => g.dhalt && g.get Reg.DBG_DSTAT_HALTED == 0) = true ∧
    ans (.damsonResume 1) (dam0 id [(Reg.DBG_STAT_OPEN, 1), (Reg.DBG_DSTAT_HALTED, 1), (Reg.DBG_DSTAT_PBRK, 1), (Reg.DEV_WDOG_STAGE, 1)]) (fun g => g.get Reg.DBG_DSTAT_HALTED == 0 &&
      g.get Reg.DBG_DSTAT_PBRK == 0 && g.get Reg.DEV_WDOG_STAGE == 0 && g.get Reg.DEV_WDOG_COUNT == g.get Reg.DEV_WDOG_PERIOD) = true ∧
    ans (.damsonStep 1) (dam0 id [(Reg.DBG_STAT_OPEN, 1), (Reg.DBG_DSTAT_HALTED, 1)]) (fun g => g.dam.step && g.dam.skip) = true ∧
    bec (.damsonStep 1) (dam0 id [(Reg.DBG_STAT_OPEN, 1)]) (dam0 id [(Reg.DBG_STAT_OPEN, 1)]).fab = true ∧
    bec (.damsonHalt 0 true) (dam0 id []) (dam0 id []).fab = true := by decide +kernel

/-! ### Start-up, power and clocks -/

/-- The outcomes of a start-up in which all is well. -/
def boot0 : Boot := ⟨true, false, none, true, true, List.replicate 4 ⟨1, 0, 0, false, 0, 0, 0⟩, List.replicate 4 (5, 8)⟩
/-- A fabric whose last start-up step is `n`. -/
def step0 (n : Nat) : State := S (fun f => { sets [(Reg.DEV_BOOTSTAT_STEP, n)] f with pwr := { f.pwr with st := 0 } })
/-- OTP with two intact and differing copies of trim word 0, the third illegible; and OTP of a scrapped part. -/
def otpBad : Store Nat := [(16, 1), (32, 2), (48, 3)]
def otpGone : Store Nat := [(79, 0xFFFFFFFFFFFFFFFF), (80, 0xFFFFFFFFFFFFFFFF), (81, 0xFFFFFFFFFFFFFFFF)]
theorem test_start_up : bootWf boot0 = true ∧ (step0 5).fab.get Reg.DEV_BOOTSTAT_FAILED = 0 ∧ (step0 5).fab.get Reg.DEV_BOOTSTAT_STEP = 5 ∧ (step0 5).fab.pwr.rails = 0 ∧
    (step0 5).fab.mgmt.lc = 0 ∧ (step0 0).fab.get Reg.DEV_BOOTSTAT_STEP = 0 ∧ (step0 0).fab.pwr.st ≠ 1 ∧
    (List.range 16).all (fun k => (trimWord (step0 0).fab.mgmt.otp k).val == some 0) = true ∧ (trimWord otpBad 0).val = none ∧
    ({ Mgmt.reset with otp := otpGone } : Mgmt).lc = 5 ∧
    ans (.startUp boot0) (step0 5) (fun g => g.get Reg.DEV_BOOTSTAT_STEP == 6 && g.dam.started && g.get Reg.DBG_DPC_PC == 0) = true := by decide +kernel
theorem test_start_up_stops :
    ans (.startUp { boot0 with hot := true }) (step0 0) (fun g => g.pwr.trip && g.pwr.thermN && g.get Reg.DEV_BOOTSTAT_STEP == 2) = true ∧
    ans (.startUp { boot0 with rails := false }) (step0 0) (fun g => g.pwr.st == 0 && g.pwr.rails == 1 && g.get Reg.DBG_STAT_OPEN == 1) = true ∧
    ans (.startUp boot0) (st { (step0 0).fab with mgmt := { Mgmt.reset with otp := otpBad } }) (fun g => g.get Reg.DEV_BOOTSTAT_FAILED == 1 && g.get Reg.DEV_BOOTSTAT_ERR == 6 &&
      g.get Reg.DEV_BOOTSTAT_STEP == 2 && g.pwr.alertN) = true := by decide +kernel
theorem test_self_test : bootWf { boot0 with selfTest := some (63, 236) } = true ∧ { boot0 with selfTest := some (63, 236) }.selfTest = some (63, 236) ∧
    boot0.selfTest = none ∧ bootWf { boot0 with fill := false } = true ∧ boot0.fill = true := by decide +kernel
/-- A part in a later life-cycle state whose flash is blank, at step 5. -/
def made0 : State := st { (step0 5).fab with mgmt := { Mgmt.reset with otp := [(67, 0x0F0F0F0F0F0F0F0F), (68, 0x0F0F0F0F0F0F0F0F), (69, 0x0F0F0F0F0F0F0F0F)] } }
theorem test_no_image : made0.fab.mgmt.lc ≠ 0 ∧ made0.fab.mgmt.lc ≠ 5 ∧ made0.fab.mgmt.candidates mgmtImg (slotOff 0) (slotOff 1) = [] ∧
    ans (.startUp { boot0 with flash := false }) made0 (fun g => g.get Reg.DEV_BOOTSTAT_ERR == 5 && g.get Reg.DEV_BOOTSTAT_RECOVERY == 1) = true ∧
    ans (.startUp boot0) made0 (fun g => g.get Reg.DEV_BOOTSTAT_FAILED == 1 && g.get Reg.DEV_BOOTSTAT_ERR == 3 && g.get Reg.DEV_BOOTSTAT_RECOVERY == 1) = true := by decide +kernel
theorem test_scrapped : bec (.chalnew 0 true) (st { part0 [] with mgmt := { Mgmt.reset with otp := otpGone } }) (Fab.emit { part0 [] with mgmt := { Mgmt.reset with otp := otpGone } } (.dxw 12 0)) = true := by
  decide +kernel
/-- A power state. -/
def pwr0 (g : Pwr → Pwr) (l : List (Fld × Nat)) : State := S (fun f => { sets l f with pwr := g f.pwr, mem := [⟨0x40000, 7⟩], mgmt := { f.mgmt with flash := [⟨5, 6⟩] } })
theorem test_rails : bec (.railsInRange boot0) (pwr0 id []) (pwr0 id []).fab = true ∧ bec .dormantExitTimeout (pwr0 id []) (pwr0 id []).fab = true ∧
    (pwr0 (fun p => { p with rails := 2 }) []).fab.pwr.rails = 2 ∧ (pwr0 (fun p => { p with rails := 1, st := 0 }) []).fab.pwr.rails = 1 ∧
    ans .dormantExitTimeout (pwr0 (fun p => { p with rails := 2, st := 1 }) [(Reg.PWR_ETIME_COUNT, 9)]) (fun g => g.get Reg.DEV_BOOTSTAT_FAILED == 1 && g.get Reg.DEV_BOOTSTAT_ERR == 7 &&
      g.get Reg.PWR_RSTCAUSE_DORMANT == 1 && g.get Reg.PWR_ETIME_COUNT == 9 && g.mem == [] && g.mgmt.flash == [⟨5, 6⟩]) = true := by decide +kernel
theorem test_power_loss : (pwr0 id []).fab.pwr.porst = false ∧ (pwr0 id []).fab.pwr.st = 3 ∧
    bec .porstNAssert (pwr0 (fun p => { p with porst := true }) []) (pwr0 (fun p => { p with porst := true }) []).fab = true ∧
    bec (.brownOut 5) (pwr0 (fun p => { p with st := 1 }) []) (pwr0 (fun p => { p with st := 1 }) []).fab = true ∧
    ans .porstNAssert (pwr0 id [(Reg.PWR_ETIME_COUNT, 9), (Reg.ISC_CTL_MAINT, 0)]) (fun g => g.pwr.st == 0 && g.mem == [] && g.get Reg.PWR_ETIME_COUNT == 9 && g.pwr.porst &&
      g.get Reg.PWR_RSTCAUSE_PORST == 1 && g.get Reg.ISC_CTL_MAINT == 1 && g.mgmt.flash == [⟨5, 6⟩]) = true ∧
    ans (.brownOut 5) (pwr0 id []) (fun g => g.pwr.rails == 1 && !g.pwr.porst && g.get Reg.PWR_RSTCAUSE_BROWNOUT == 1 && g.get Reg.PWR_RSTCAUSE_RAIL == 5) = true ∧
    ans .aonLoss (pwr0 id [(Reg.PWR_ETIME_COUNT, 9)]) (fun g => g.pwr.porst && g.get Reg.PWR_RSTCAUSE_AONLOSS == 1 && g.get Reg.PWR_ETIME_COUNT == 0 && g.mem == []) = true ∧
    ans .thermtrip (pwr0 id []) (fun g => g.pwr.trip && g.pwr.thermN && !g.live && g.mem == [⟨0x40000, 7⟩]) = true := by decide +kernel
theorem test_sleep_request : (pwr0 id [(Reg.PWR_WAKE_EN_ISC, 1)]).fab.sleepRefused 1 = none ∧ (4 + 1 : Word).getLsbD 2 = true ∧ (pwr0 id []).fab.sleepRefused 1 = some 5 ∧
    (pwr0 id []).fab.sleepRefused 3 = some 4 ∧ bec (.sleepRequest 1 5) (pwr0 id []) (pwr0 id []).fab = true ∧
    ans (.sleepRequest 0 5) (pwr0 id [(Reg.PWR_WAKE_EN_ISC, 1)]) (fun g => g.pwr.req == some 1) = true ∧
    ans (.sleepRequest 0 5) (pwr0 id []) (fun g => g.get Reg.PWR_SLEEP_STATUS_STATUS == 5 && g.inbox == [(16, true, true)]) = true ∧
    ans (.sleepRequest 0 7) (pwr0 id [(Reg.PWR_SLEEP_STATUS_STATUS, 4)]) (fun g => g.get Reg.PWR_SLEEP_STATUS_STATUS == 4 && g.inbox == []) = true := by decide +kernel
theorem test_sleep_commit : bec .sleepCommit (pwr0 id []) (pwr0 id []).fab = true ∧
    ans .sleepCommit (pwr0 (fun p => { p with req := some 1 }) [(Reg.PWR_WAKE_EN_ISC, 1), (Reg.PWR_WAKE_STAT_ISC, 1)]) (fun g => g.pwr.req == none && g.pwr.st == 3 &&
      g.get Reg.PWR_SLEEP_STATUS_STATUS == 3 && g.inbox.contains (14, true, true)) = true := by decide +kernel
theorem test_dormant : (pwr0 (fun p => { p with req := some 1 }) [(Reg.MEM_OWNER_OWN 23, 0)]).fab.unitPart 23 = some 0 ∧
    (List.range 16).any (pwr0 id []).fab.portActive = false ∧
    (pwr0 (fun p => { p with req := some 2 }) []).fab.pwr.req = some 2 ∧
    (pwr0 id []).fab.reg Reg.PWR_WAKE_STAT &&& (pwr0 id []).fab.reg Reg.PWR_WAKE_EN = 0 := by decide +kernel
theorem test_wake : wakeBit 5 0 = some 29 ∧ wakeBit 2 15 = some 23 ∧ (honoured 2).testBit 29 = false ∧ (honoured 2).testBit 28 = true ∧ wakeBit 4 0 = some 28 ∧
    bec (.wakeEvent 2 15) (pwr0 id []) (pwr0 id []).fab = true ∧
    bec (.wakeEvent 5 0) (pwr0 (fun p => { p with st := 1 }) [(Reg.PWR_WAKE_EN_ISC, 1), (Reg.ISC_WAKECTL_PEND, 1)])
      (pwr0 (fun p => { p with st := 1 }) [(Reg.PWR_WAKE_EN_ISC, 1), (Reg.ISC_WAKECTL_PEND, 1)]).fab = true ∧
    bec (.wakeEvent 5 0) (pwr0 id [(Reg.PWR_WAKE_EN_ISC, 1)]) (pwr0 id [(Reg.PWR_WAKE_EN_ISC, 1)]).fab = true ∧
    ans (.wakeEvent 5 0) (pwr0 (fun p => { p with st := 2 }) [(Reg.PWR_WAKE_EN_ISC, 1), (Reg.ISC_WAKECTL_PEND, 1)]) (fun g => g.get Reg.PWR_WAKE_STAT_ISC == 1 && g.pwr.st == 3) = true ∧
    ans (.wakeEvent 3 2) (pwr0 id [(⟨Reg.PWR_GPIOWAKE, 2, 1⟩, 1)]) (fun g => g.get ⟨Reg.PWR_GPIOWAKE, 6, 1⟩ == 1 && g.reg Reg.PWR_WAKE_STAT == 0) = true ∧
    ans (.wakeEvent 0 3) (pwr0 id [(⟨Reg.PWR_WAKE_EN, 3, 1⟩, 1)]) (fun g => g.reg Reg.PWR_WAKE_STAT == 8 && g.pwr.st == 3) = true ∧
    ans (.wakeEvent 2 15) (pwr0 (fun p => { p with st := 2 }) [(⟨Reg.PWR_WAKE_EN, 23, 1⟩, 1), (Reg.LINK_CTL_WAKEEN 15, 1), (Reg.PWR_BLOCK_REQ 23, 3)]) (fun g => g.pwr.st == 3 &&
      g.get Reg.PWR_STAT_DSTATE == 3 && g.get (Reg.PWR_BLOCK_STATE 23) == 3 && g.get Reg.PWR_SLEEP_STATUS_STATUS == 2 && g.inbox.contains (14, true, true)) = true ∧
    ans (.wakeEvent 4 0) (pwr0 (fun p => { p with st := 1, slpN := true }) [(⟨Reg.PWR_WAKE_EN, 28, 1⟩, 1)]) (fun g => g.pwr.rails == 2 && !g.pwr.slpN && g.pwr.st == 1) = true := by decide +kernel
theorem test_clocks : (pwr0 id [(Reg.MEM_OWNER_OWN 0, 0), (Reg.SQ_STAT_STATE 0, 2)]).fab.unitPart 0 = some 0 ∧ eclkGroup 0 = 0 ∧
    (pwr0 id [(Reg.MEM_OWNER_OWN 0, 0), (Reg.SQ_STAT_STATE 0, 2)]).fab.st 0 = 2 ∧ (pwr0 id []).fab.pwr.pll.contains 5 = false ∧
    ans (.eclkFreqWrite 0 0 60) (pwr0 id [(Reg.MEM_OWNER_OWN 0, 0), (Reg.SQ_STAT_STATE 0, 2)]) (fun g => g.get Reg.PWR_STAT_REQERR == 1) = true ∧
    ans (.eclkFreqWrite 0 5 3) (pwr0 id []) (fun g => g.get (Reg.PWR_ECLK_FREQ 5) == 40 && g.get (Reg.PWR_ECLK_LOCKED 5) == 0 && g.pwr.pll == [5]) = true ∧
    ans (.eclkFreqWrite 0 5 255) (pwr0 id [(Reg.PWR_ECLK_FREQ 5, 40)]) (fun g => g.get (Reg.PWR_ECLK_FREQ 5) == 160) = true ∧
    ans (.eclkPllLock 5) (pwr0 (fun p => { p with pll := [5] }) []) (fun g => g.pwr.pll == [] && (g.get (Reg.PWR_ECLK_LOCKED 5) == b2n (g.groupRuns 5))) = true ∧
    bec (.eclkPllLock 4) (pwr0 (fun p => { p with pll := [5] }) []) (pwr0 (fun p => { p with pll := [5] }) []).fab = true ∧
    bec (.eclkFreqWrite 1 5 60) (pwr0 id []) (pwr0 id []).fab = true := by decide +kernel
theorem test_clock_ports : (let f := (pwr0 id [(Reg.MEM_OWNER_OWN 23, 0), (Reg.MEM_OWNER_OWN 24, 0), (Reg.LINK_STAT_STATE 0, 6), (Reg.LINK_TBCTL_PARENT, 0x1F), (Reg.PWR_ECLK_FREQ 5, 60)])
    f.fab.portPart 0 == some 0 && f.fab.unitPart 23 == some 0 && eclkGroup 23 == 5 && f.fab.portActive 0 && bec (.eclkFreqWrite 0 5 60) f f.fab &&
    ans (.eclkFreqWrite 0 5 80) f (fun g => g.lst 0 == 5 && g.get (Reg.PWR_ECLK_FREQ 5) == 80)) = true := by decide +kernel
theorem test_idle_block : (let f := pwr0 id [(Reg.MEM_OWNER_OWN 23, 0), (Reg.SQ_STAT_STATE 0, 2)]
    (List.range 8).all (fun j => !f.fab.activeIn 0 (8 * 23 + j)) && ans (.blockReqWrite 0 23 2) f (fun g => g.get (Reg.PWR_BLOCK_REQ 23) == 2) &&
    (let f := pwr0 id [(Reg.MEM_OWNER_OWN 23, 0), (Reg.SQ_STAT_STATE 0, 2), (⟨Reg.HP_PACTIVE 0 2, 63, 1⟩, 1)]
     f.fab.activeIn 0 191 && ans (.blockReqWrite 0 23 2) f (fun g => g.get Reg.PWR_STAT_REQERR == 1))) = true := by decide +kernel
theorem test_blocks : (pwr0 id [(Reg.MEM_OWNER_OWN 23, 0), (Reg.SQ_STAT_STATE 0, 2)]).fab.runs 0 = true ∧ (pwr0 id []).fab.unitPart 23 = none ∧
    ans (.blockReqWrite 0 23 1) (pwr0 id [(Reg.MEM_OWNER_OWN 23, 0), (Reg.SQ_STAT_STATE 0, 2)]) (fun g => g.get Reg.PWR_STAT_REQERR == 1) = true ∧
    ans (.blockReqWrite 0 23 2) (pwr0 id []) (fun g => g.get (Reg.PWR_BLOCK_REQ 23) == 2 && g.get (Reg.PWR_BLOCK_BUSY 23) == b2n (g.get (Reg.PWR_BLOCK_STATE 23) ≠ 2)) = true ∧
    ans (.blockTransitionComplete 23) (pwr0 id [(Reg.PWR_BLOCK_BUSY 23, 1), (Reg.PWR_BLOCK_REQ 23, 3), (Reg.PWR_BLOCK_STATE 23, 2), (Reg.PWR_STAT_STIRQ, 1)]) (fun g =>
      g.get (Reg.PWR_BLOCK_BUSY 23) == 0 && g.get (Reg.PWR_BLOCK_STATE 23) == 3 && g.inbox == [(16, true, true)] && g.mem == [⟨0x40000, 7⟩]) = true ∧
    bec (.blockTransitionComplete 23) (pwr0 id []) (pwr0 id []).fab = true ∧
    ans (.linkwake 0 0x8000) (pwr0 id []) (fun g => g.out == [.linkWake 15]) = true ∧
    ans (.linkwake 0 0x8000) (pwr0 id [(Reg.LINK_STAT_STATE 15, 6)]) (fun g => g.out == [.flit 15 (rsEncode 0x3E)]) = true := by decide +kernel
/-- Sensor 55 reads 0x7F8, monitor 31 reads 0xFFF, the others 0. -/
def hotT : List (BitVec 12) := List.replicate 55 0 ++ [0x7F8]
def hotV : List (BitVec 12) := List.replicate 31 0 ++ [0xFFF]
theorem test_sensors : hotT.length = 56 ∧ hotV.length = 32 ∧
    ans (.sensorSample hotT hotV) (pwr0 id [(Reg.PWR_THERM_HOLDEN, 1), (Reg.SQ_STAT_STATE 7, 2)]) (fun g => g.get (Reg.MGMT_TEMP_VALUE 55) == 0x7F8 &&
      g.get (Reg.MGMT_TEMP_WARN 55) == 1 && g.get (Reg.MGMT_TEMP_CRIT 55) == 1 && g.get (Reg.MGMT_TEMP_WARN 0) == 0 && g.get (Reg.MGMT_VMON_MV 31) == 0xFFF &&
      g.get Reg.PWR_THERM_HOLDING == 1 && g.get (Reg.SQ_CTL_HOLDREQ 7) == 1 && g.inbox.contains (15, true, true)) = true := by decide +kernel
theorem test_heat : bec (.thermalRelease 5) (pwr0 id []) (pwr0 id []).fab = true ∧
    ans (.thermalRelease 5) (pwr0 (fun p => { p with below := 10 }) [(Reg.PWR_THERM_HOLDING, 1), (Reg.SQ_CTL_HOLDREQ 7, 1)]) (fun g => g.get Reg.PWR_THERM_HOLDING == 0 &&
      g.get (Reg.SQ_CTL_HOLDREQ 7) == 0 && g.inbox.contains (15, true, true)) = true ∧
    ans (.droopEvent 23 false) (pwr0 id [(Reg.PWR_DROOPCTL_STRETCH, 1), (Reg.MGMT_DROOP_COUNT 23, 0xFFFF)]) (fun g => g.get (Reg.MGMT_DROOP_COUNT 23) == 0xFFFF &&
      g.get Reg.PWR_DROOPCTL_STRETCHES == (if g.lockMode 0 then 0 else 1)) = true ∧
    ans (.droopEvent 23 false) (pwr0 id [(Reg.PWR_DROOPCTL_STRETCH, 0)]) (fun g => g.get Reg.PWR_AVS_RAISE == 1) = true ∧
    ((List.range 8).any (pwr0 id []).fab.lockMode) = false := by decide +kernel
theorem test_watchdog : (pwr0 id []).fab.live = true ∧ bec (.wdogKick 1 0xA5) (pwr0 id []) (pwr0 id []).fab = true ∧
    ans (.wdogKick 0 0xA5) (pwr0 id [(Reg.DEV_WDOG_STAGE, 1), (Reg.DEV_WDOG_COUNT, 3)]) (fun g => g.get Reg.DEV_WDOG_COUNT == g.get Reg.DEV_WDOG_PERIOD && g.get Reg.DEV_WDOG_STAGE == 0) = true ∧
    bec .wdogExpiry (pwr0 id [(Reg.DEV_WDOG_EN, 1), (Reg.DEV_WDOG_COUNT, 1)]) (pwr0 id [(Reg.DEV_WDOG_EN, 1), (Reg.DEV_WDOG_COUNT, 1)]).fab = true ∧
    ans .wdogExpiry (pwr0 id [(Reg.DEV_WDOG_EN, 1), (Reg.DEV_WDOG_COUNT, 0)]) (fun g => g.get Reg.DEV_WDOG_STAGE == 1 && g.get Reg.DEV_WDOG_COUNT == g.get Reg.DEV_WDOG_PERIOD &&
      g.inbox == [(10, true, true)]) = true ∧
    ans .wdogExpiry (pwr0 id [(Reg.DEV_WDOG_EN, 1), (Reg.DEV_WDOG_COUNT, 0), (Reg.DEV_WDOG_STAGE, 1), (Reg.MGMT_MBX_STAT_BUSY 3, 1)]) (fun g => g.dam.started &&
      g.get (Reg.MGMT_MBX_STAT_BUSY 3) == 0 && g.get Reg.DEV_BOOTSTAT_MRESETS == 1 && g.mbx.queue == []) = true := by decide +kernel
theorem test_tamper : (pwr0 id []).fab.regs.all (fun c => !(Reg.MEM_DOWNER 0 ≤ c.1 && c.1 < Reg.MEM_DOWNER 2048 && fget c.2 0 4 < 8)) = true ∧
    bec .vaultWipeComplete (pwr0 id []) (pwr0 id []).fab = true ∧
    ans .vaultWipeComplete (pwr0 id [(Reg.MEM_VAULT_WIPING, 1)]) (fun g => g.get Reg.MEM_VAULT_WIPING == 0 && g.mem == [⟨0x40000, 7⟩]) = true := by decide +kernel
theorem test_tamper_trip_wipes : ans .tamperTrip (pwr0 id []) (fun g => g.get Reg.MEM_VAULT_WIPING == 1 && g.get Reg.MEM_VAULT_CAUSE == 1) = true := by decide +kernel
theorem test_tamper_trip_seals : ans .tamperTrip (pwr0 id []) (fun g => g.mgmt.tamper && g.keys.isEmpty && g.pwr.owed) = true := by decide +kernel
theorem test_tamper_trip : (pwr0 (fun p => { p with st := 1 }) []).fab.pwr.st = 1 ∧
    ans .tamperTrip (pwr0 (fun p => { p with st := 1 }) []) (fun g => g.pwr.owed && g.latched == [(11, true)] && g.mem == [⟨0x40000, 7⟩]) = true ∧
    ans .vaultWipeComplete (pwr0 id [(Reg.MEM_VAULT_WIPING, 1), (Reg.MEM_VAULT_CAUSE, 1)]) (fun g => g.inbox == [(11, true, true)]) = true := by decide +kernel

/-! ### The board controller -/

/-- Management firmware runs, with a flash as given. -/
def bmc0 (g : Mgmt → Mgmt) (l : List (Fld × Nat)) : State := S (fun f => { sets l f with mgmt := g { f.mgmt with running := true } })
theorem test_bmc_serving : (bmc0 id []).fab.live = true ∧ (bmc0 id []).fab.mgmt.running = true ∧ (bmc0 id []).fab.get Reg.DBG_DSTAT_HALTED = 0 ∧
    (S (fun f => { f with pwr := { f.pwr with st := 0 } })).fab.live = false ∧ (bmc0 id [(Reg.HP_PCFG_VALID 7, 1)]).fab.anyPart = true ∧ (bmc0 id []).fab.anyPart = false ∧
    State.reset.fab.mgmt.running = false ∧ State.reset.fab.get Reg.DEV_BOOTSTAT_RECOVERY = 0 ∧
    bec .cert (S (fun f => { f with pwr := { f.pwr with st := 0 } })) (S (fun f => { f with pwr := { f.pwr with st := 0 } })).fab = true ∧
    bec .imgErase State.reset State.reset.fab = true ∧
    ans .confirm (bmc0 id [(Reg.DBG_DSTAT_HALTED, 1)]) (fun g => g.inbox == [(13, true, true)] && g.out == [.i3c 3 []]) = true ∧
    ans .svnCommit (bmc0 id [(Reg.HP_PCFG_VALID 7, 1)]) (fun g => g.inbox == [(13, true, true)] && g.out == [.i3c 2 []]) = true ∧
    ans (.imgWrite 0 [1]) (bmc0 (fun m => { m with busy := true }) []) (fun g => g.out == [.i3c 3 []]) = true := by decide +kernel
theorem test_bmc_reads : sensorReg 111 = some (Reg.MGMT_DROOP 23) ∧ sensorReg 112 = none ∧ (112 : BitVec 8).toNat = 112 ∧
    ans (.sensors 111) (bmc0 id [(Reg.MGMT_DROOP_COUNT 23, 5)]) (fun g => g.out == [.i3c 0 [5, 0, 0, 0, 0, 0, 0, 0]]) = true ∧
    ans (.sensors 112) (bmc0 id []) (fun g => g.out == [.i3c 1 []]) = true ∧
    ans .status (bmc0 id []) (fun g => g.out == [.i3c 0 (toBytes (g.reg Reg.DEV_ID).toNat 8 ++ toBytes (g.reg Reg.DEV_BOOTSTAT).toNat 8 ++ [0, 0])]) = true ∧
    ans (.attest [1]) (bmc0 id []) (fun g => g.out == [.i3c 1 []]) = true ∧
    ans (.logRead 1) (bmc0 id []) (fun g => g.out == [.i3c 0 []]) = true := by decide +kernel
theorem test_img_write : slotOff (1 - (bmc0 id []).fab.get Reg.DEV_BOOTSTAT_SLOT) = 0x800000 ∧ (bmc0 id []).fab.mgmt.busy = false ∧
    ans (.imgWrite 0x7FFFFE [0x0F, 0x33]) (bmc0 id []) (fun g => g.mgmt.busy && g.out == [.i3c 0 []] && g.mgmt.flashByte 0xFFFFFE == 0x0F && g.mgmt.flashByte 0xFFFFFF == 0x33) = true ∧
    ans (.imgWrite 0x7FFFFF [0x0F, 0x33]) (bmc0 id []) (fun g => !g.mgmt.busy && g.out == [.i3c 1 []]) = true ∧
    ans (.imgWrite 0 []) (bmc0 id []) (fun g => g.out == [.i3c 1 []]) = true := by decide +kernel
theorem test_img_activate : (bmc0 (fun m => { m with flash := [⟨0x800000, 2⟩] }) []).fab.mgmt.slotOk 0x800000 = false ∧
    ans .imgActivate (bmc0 (fun m => { m with flash := [⟨0x800000, 2⟩] }) []) (fun g => g.out == [.i3c 4 []]) = true ∧
    ans .imgErase (bmc0 (fun m => { m with flash := [⟨0x800000, 2⟩, ⟨0x7FFFFF, 3⟩] }) []) (fun g => g.mgmt.flashByte 0x800000 == 0xFF && g.mgmt.flashByte 0x7FFFFF == 3 && g.mgmt.busy &&
      g.out == [.i3c 0 []]) = true ∧
    ans .flashDone (bmc0 (fun m => { m with busy := true }) []) (fun g => !g.mgmt.busy && g.inbox == [(12, true, true)]) = true ∧
    bec .flashDone (bmc0 id []) (bmc0 id []).fab = true := by decide +kernel
theorem test_confirm : (bmc0 id []).fab.runSlot = 0 ∧ (bmc0 id []).fab.mgmt.actState mgmtImg 0 = 0xFF ∧
    (bmc0 (fun m => { m with flash := [⟨0x7F0008, 0x7F⟩] }) []).fab.mgmt.actState mgmtImg 0 = 0x7F ∧
    ans .confirm (bmc0 (fun m => { m with flash := [⟨0x7F0008, 0x7F⟩] }) []) (fun g => g.out == [.i3c 0 []]) = true ∧
    ans .svnCommit (bmc0 (fun m => { m with flash := [⟨0x7F0008, 0x7F⟩] }) []) (fun g => g.out == [.i3c 2 []]) = true ∧
    ans .svnCommit (bmc0 (fun m => { m with hdr := [0, 0, 0, 0, 5] }) []) (fun g => g.out == [.i3c 0 []] && 5 ≤ g.mgmt.svn) = true := by decide +kernel
/-- A token of a blank part that asks for SCRAPPED; its last premise, that it verifies, is about the signature check, which the
spec leaves to the standards (Config). -/
def tok0 (n : Nat) : List (BitVec 8) := List.replicate 17 0 ++ BitVec.ofNat 8 n :: List.replicate (64 + sigLen - 18) 0
theorem test_lc_request : ((tok0 5).map BitVec.toNat).length = 64 + sigLen ∧ tokFrom ((tok0 5).map BitVec.toNat) = (bmc0 id []).fab.mgmt.lc ∧
    lcAllowed (bmc0 id []).fab.mgmt.lc (tokTo ((tok0 5).map BitVec.toNat)) = true ∧ tokUid ((tok0 5).map BitVec.toNat) = (bmc0 id []).fab.mgmt.uid ∧
    (bmc0 id []).fab.get Reg.DEV_BOOTSTAT_DEGRADED = 0 ∧
    ans (.lcRequest []) (bmc0 id []) (fun g => g.out == [.i3c 1 []]) = true ∧
    ans (.lcRequest (tok0 4)) (bmc0 id []) (fun g => g.out == [.i3c 2 []]) = true := by decide +kernel
theorem test_opt_full : optGen (burnGen [] 3 []) = some 3 ∧ 4 ≤ 3 + 1 ∧
    ans (.optBurn (List.replicate (256 + sigLen + 128) 0)) (bmc0 (fun m => { m with otp := burnGen [] 3 [] }) []) (fun g => g.out == [.i3c 2 []]) = true := by decide +kernel
theorem test_opt_burn : optGen (bmc0 id []).fab.mgmt.otp = none ∧ (List.replicate (256 + sigLen + 128) (0 : BitVec 8)).length = 256 + sigLen + 128 ∧
    ((bmc0 id []).fab.mgmt.optSigned (List.replicate (256 + sigLen + 128) 0)) = false ∧
    ans (.optBurn []) (bmc0 id []) (fun g => g.out == [.i3c 1 []]) = true ∧
    ans (.optBurn (List.replicate (256 + sigLen + 128) 0)) (bmc0 id []) (fun g => g.out == [.i3c 4 []]) = true := by decide +kernel

/-! ### The Umhater meter -/

/-- The enclave in a state. -/
def umx0 (g : Umx → Umx) (l : List (Fld × Nat)) : State := S (fun f => { sets l f with umx := g f.umx })
theorem test_sample : (umx0 id []).fab.live = true ∧
    ans (.umxSample 8000000 1000 125000000 1000000) (umx0 (fun u => { u with acc1 := 2 ^ 96 - 1 }) []) (fun g => g.umx.acc0 == 2 ^ 32 && g.umx.acc1 == 2 ^ 96 - 1 + 125000000000000 * 2 ^ 32 / 8000000000 &&
      g.get Reg.UMX_ECORE_ENERGY == 1 && g.get Reg.UMX_ETOTAL_ENERGY == 2 ^ 64 - 1 && g.get Reg.UMX_STAT_SAT == 1) = true ∧
    ans (.umxSample 8000000 1000 0 0) (umx0 id []) (fun g => g.umx.acc0 == 2 ^ 32 && g.get Reg.UMX_ECORE_ENERGY == 1 && g.get Reg.UMX_ETOTAL_ENERGY == 1 && g.umx.smp == 1 &&
      !g.umx.clip0 && !g.umx.clip1) = true ∧
    ans (.umxSample (-5) (-1) 125000001 0) (umx0 id []) (fun g => g.umx.acc0 == 0 && g.umx.clip0 && g.umx.clip1) = true ∧
    ans (.timebaseCheck 99997999) (umx0 id []) (fun g => g.get Reg.UMX_STAT_TBERR == 1) = true ∧
    ans (.timebaseCheck 100002000) (umx0 id [(Reg.UMX_STAT_TBERR, 1)]) (fun g => g.get Reg.UMX_STAT_TBERR == 0) = true := by decide +kernel
theorem test_shares : ((umx0 id []).fab.shares 1000 7500 []).length = 9 ∧ (umx0 id []).fab.unitPart 23 = none ∧
    ((part0 []).shares 1000 7500 (List.replicate 24 (0, 0, 0))).getD 1 (0, 0) = (0, 0) := by decide +kernel
theorem test_millisecond : (List.replicate 24 ((0, 0, 0) : Activity)).length = 24 ∧ (umx0 id []).fab.get Reg.UMX_CFG_INTERVAL ≠ 0 ∧
    ans (.umxMillisecond (List.replicate 24 (0, 0, 0))) (umx0 (fun u => { u with ms := 999, smp := 3 }) []) (fun g => g.umx.ms == 1000 && g.umx.smp == 0 && g.get Reg.UMX_TIME_TIME == 32768) = true := by
  decide +kernel
theorem test_records : (umx0 id []).fab.umx.due = [] ∧ bec .usageRecord (umx0 id []) (umx0 id []).fab = true ∧
    (umx0 (fun u => { u with due := [[1]] }) [(Reg.UMX_RSEQ_RSEQ, 5)]).fab.umx.due = [[1]] ∧
    (umx0 (fun u => { u with due := [[1]] }) [(Reg.UMX_RSEQ_RSEQ, 5)]).fab.get Reg.UMX_RSEQ_RSEQ + 1 = 6 ∧ (umx0 id []).fab.umx.chkPos % 1024 = 0 := by decide +kernel
theorem test_record_confirms : (let s := umx0 (fun u => { u with due := [[1]], confirm := true }) [(Reg.UMX_RSEQ_RSEQ, 5)]
    s.fab.umx.confirm && s.fab.umx.due == [[1]] && s.fab.get Reg.UMX_FWVER_SLOT == 0) = true := by decide +kernel
theorem test_seal : (umx0 id []).fab.umx.high ≠ 3 ∧
    ans (.sealSample true) (umx0 (fun u => { u with high := 5, low := 7 }) []) (fun g => g.umx.high == 5 && g.umx.low == 0) = true ∧
    ans (.sealSample false) (umx0 (fun u => { u with high := 2 }) []) (fun g => g.umx.high == 0 && g.umx.low == 1) = true ∧
    ans (.sealSample false) (umx0 (fun u => { u with low := 1023 }) [(Reg.UMX_STAT_SEALOPEN, 1)]) (fun g => g.umx.high == 0 && g.umx.low == 1024 && g.get Reg.UMX_STAT_SEALOPEN == 0) = true := by
  decide +kernel
theorem test_seal_breaks : (umx0 (fun u => { u with high := 3 }) []).fab.umx.high = 3 ∧ (umx0 (fun u => { u with low := 1024 }) []).fab.umx.low ≤ 1024 ∧
    ans (.sealSample true) (umx0 (fun u => { u with high := 3 }) []) (fun g => g.get Reg.UMX_STAT_SEALOPEN == 1 && g.umx.high == 4 && g.umx.logSeq == 1 && g.get Reg.UMX_SEALCNT_COUNT == 1) = true ∧
    ans (.sealSample true) (S (fun f => { f with umx := { f.umx with high := 3 }, pwr := { f.pwr with st := 1 } })) (fun g => g.get Reg.UMX_STAT_SEALOPEN == 1 && g.umx.brk == 1 &&
      g.umx.logSeq == 0) = true ∧
    ans (.sealSample false) (umx0 (fun u => { u with low := 1023, upd := some 0x2810000, reqBusy := true }) [(Reg.UMX_STAT_SEALOPEN, 1), (Reg.UMX_RSP_OP, 2)]) (fun g =>
      g.umx.upd == none && !g.umx.reqBusy && g.get Reg.UMX_RSP_STATUS == 5 && g.get Reg.UMX_RSP_DONE == 1) = true := by decide +kernel
theorem test_interval : (umx0 id []).fab.umx.reqBusy = false ∧ bec (.setInterval 1 5) (umx0 id []) (umx0 id []).fab = true ∧
    bec (.update 0 5) (umx0 (fun u => { u with reqBusy := true }) []) (umx0 (fun u => { u with reqBusy := true }) []).fab = true ∧
    bec .enclaveRestart (umx0 id []) (umx0 id []).fab = true := by decide +kernel
theorem test_interval_effect : bec (.setInterval 0 5) (umx0 id [(Reg.UMX_STAT_STATE, 3)]) (umx0 id [(Reg.UMX_STAT_STATE, 3)]).fab = true ∧ (umx0 id []).fab.get Reg.UMX_STAT_STATE ≠ 3 ∧
    ans (.setInterval 0 3600) (umx0 id []) (fun g => g.get Reg.UMX_RSP_OP == 1 && g.get Reg.UMX_RSP_DONE == 1 && g.get Reg.UMX_RSP_STATUS == 0 && g.get Reg.UMX_CFG_NEXT == 3600) = true ∧
    ans (.setInterval 0 3601) (umx0 id []) (fun g => g.get Reg.UMX_RSP_STATUS == 1 && g.reg Reg.UMX_CFG == regReset Reg.UMX_CFG) = true ∧
    ans (.update 0 0x280FFFF) (umx0 id []) (fun g => g.get Reg.UMX_RSP_STATUS == 1 && g.get Reg.UMX_RSP_DONE == 1) = true ∧
    ans (.update 0 0x2810000) (umx0 id []) (fun g => g.get Reg.UMX_RSP_STATUS == 2 && g.get Reg.UMX_RSP_OP == 2) = true := by decide +kernel
theorem test_update : (0x2810000 : BitVec 32).toNat + 0x100000 ≤ flashSize ∧ (umx0 (fun u => { u with upd := some 0x2810000, reqBusy := true }) []).fab.umx.upd = some 0x2810000 ∧
    ((umx0 id [(Reg.UMX_STAT_SEALOPEN, 1)]).fab.get Reg.UMX_STAT_SEALOPEN = 1) ∧ flashSize < (0xFFFFFFFF : BitVec 32).toNat + 0x100000 := by decide +kernel

/-! ### Commands that are not well formed, one for each check -/

/-- A master, a unit, an operand out of range for each check of `Instr.wf`. -/
def ill : List Instr := [.bundleIssue 192, .perfCounterWrap 191 4 8, .perfCounterWrap 191 3 9, .stimulusWrite 8, .report 16 0 0, .committedViewRead 6 7 0 1,
  .committedViewRead 5 7 0 0, .committedViewRead 5 7 0 4097, .committedViewWrite 5 7 0xFFFFFFFF 2 0, .memOwnerWrite 7 false 0 0, .memOwnerWrite 6 false 48 0,
  .memOwnerWrite 6 true 2048 0, .wipeComplete true 2048, .memBstateWrite false 24 8 0, .memBstateWrite false 23 9 0, .bankTransitionComplete 0x30000,
  .bankTransitionComplete 0x0100180000, .bankTransitionComplete 0x0300A00000, .repairWriteback 0x10000000000, .testerChunk true ⟨64, 0, 0⟩ 0, .testerChunk true ⟨63, 20, 0⟩ 0,
  .testerChunk true ⟨63, 19, 6⟩ 0, .scrubInject 6 0, .hostMemoryRead 4 0 0 1, .hostMemoryRead 3 6 4096 1, .hostMemoryRead 3 0 0x2000000 1, .hostMemoryRead 3 1 0 1,
  .hostMemoryWrite 3 0 0 [] true 0, .hostMemoryWrite 3 6 4095 [1, 2] true 0, .perstN 3 true 6 8, .perstN 3 true 5 3, .monStatus (.mailbox 4),
  .monHalt (.uart 0 (List.replicate 1017 0)), .dmaStart 5 32, .iscClaim 197 1, .iscClaim 193 255, .iscComplete 0 256, .iscEoi 193, .coalescingTimer 0, .iscSmaskWrite 5 254 4 0,
  .iscSraise 0 true 256 true, .ddrRetrain 0 [], .startUp { boot0 with dimms := [] }, .startUp { boot0 with links := [] },
  .startUp { boot0 with links := List.replicate 4 (6, 8) }, .startUp { boot0 with selfTest := some (64, 0) }, .startUp { boot0 with selfTest := some (63, 237) },
  .damsonInstruction (.alu 0 32 0 0 none) 0, .damsonInstruction (.load 0 3 true 0) 0, .damsonInstruction (.store 0xFFFFFFFFFD 4 0) 0, .sensorSample [] [],
  .umxMillisecond [], .tapBypass 4 0 0, .wakeEvent 0 4, .wakeEvent 5 1, .wakeEvent 6 0, .eclkFreqWrite 0 6 0, .blockReqWrite 0 24 0, .brownOut 6,
  .registerWrite 6 0x200000000 8 0 0, .registerWrite 7 16 8 0 0, .registerWrite 0 0x40000 8 0 0, .registerWrite 0 0x200000000 9 0 0, .ringPtrWrite 7 4 0 0]
theorem test_ill_formed_refused : ill.all (fun c => !c.wf &&
    (match exec c State.reset with | .refused .noSuchUnit => true | _ => false)) = true := by decide +kernel

/-! ### The symbol code -/

/-- The code word of a datum with errors of value `x` in some symbols. -/
def hit (d : Nat) (l : List (Nat × Nat)) : Flit := l.foldl (fun w e => w ^^^ BitVec.ofNat 160 (e.2 * 2 ^ (8 * e.1))) (rsEncode d)
theorem test_code : (0x0123456789ABCDEFFEDCBA9876543210 : Nat) < 2 ^ 128 ∧
    (rsDecode true (hit 0x0123456789ABCDEFFEDCBA9876543210 [(19, 255)])).out = .corrected ∧ (rsDecode true (hit 0x0123456789ABCDEFFEDCBA9876543210 [(19, 255)])).sym = 19 ∧
    (rsDecode false (hit 5 [(0, 1), (19, 255)])).out = .uncorrectable ∧ (rsDecode true (hit 5 [(0, 1), (1, 7), (19, 255)])).out = .uncorrectable ∧
    (rsDecode true (poisonWord ^^^ BitVec.ofNat 160 1)).out = .uncorrectable := by decide +kernel

end Sys2Proof.Tests
end

section
/-! ### Predicate P0 (R42): a read of it is 1, a write of it is discarded -/

namespace Sys2Proof.Machine

@[simp] theorem Engine.rP_zero (e : Engine) : e.rP 0 = true := rfl

@[simp] theorem Engine.wP_zero (e : Engine) (v : Bool) : e.wP 0 v = e := if_pos rfl

/-- A result bound for a predicate writes its lowest bit. -/
@[simp] theorem Engine.wDst_p (e : Engine) (i : Nat) (v : NetWord) :
    e.wDst (.p i) v = e.wP i (v.getLsbD 0) := rfl

theorem Engine.wDst_p_zero (e : Engine) (v : NetWord) : e.wDst (.p 0) v = e :=
  (e.wDst_p 0 v).trans (e.wP_zero _)

/-- Settles O11: the read and the write of a predicate each test for P0 first, and the write of a result goes through the
write of its predicate. -/
theorem predicateZero : Obligations.PredicateZero :=
  ⟨Engine.rP_zero, Engine.wP_zero, Engine.wDst_p_zero⟩

end Sys2Proof.Machine
end

section
/-! ### Net-word logic (R92, R93): TLOG and TLX as sums of minterms

Both fold an OR over the eight rows of the truth table. Row `tableRow p q r` is the one of the inputs `p`, `q` and `r`; at a
bit position TLOG meets the row of its three bits, and TLX the row of every completion of them. -/

namespace Sys2Proof.Machine

/-! #### The words of TLOG and TLX -/

/-- A field by its highest bit and the field below it. -/
theorem natBits_succ (n lo w : Nat) :
    natBits n lo (w + 1) = natBits n lo w + 2 ^ w * (n.testBit (lo + w)).toNat := by
  rw [natBits, Nat.mod_pow_succ, ← Nat.toNat_testBit, Nat.testBit_shiftRight, natBits]

/-- An opcode by its two highest bits and the six below them. -/
theorem swOp_eq (w : Nat) :
    swOp w = natBits w 24 6 + 64 * (w.testBit 30).toNat + 128 * (w.testBit 31).toNat :=
  calc swOp w = natBits w 24 7 + 128 * (w.testBit 31).toNat := natBits_succ w 24 7
    _ = _ := congrArg (· + 128 * (w.testBit 31).toNat) (natBits_succ w 24 6)

theorem natBits_one (n lo : Nat) : natBits n lo 1 = (n.testBit lo).toNat := by
  rw [natBits_eq, Nat.pow_one, Nat.toNat_testBit]

/-- The decoder's value of the S bit. -/
theorem decodeN_b2_swS (w : Nat) : decodeN.b2 (swS w) = natBits w 0 1 := by
  rw [natBits_one, swS, decodeN.b2, Bool.toNat, Bool.cond_eq_ite]

/-- Opcode[31] set: TT[7:1] from opcode[30:24], TT[0] from S (R92). -/
theorem decodeN_tlog (n0 : Bool) (w : Nat) (h : w.testBit 31 = true) :
    decodeN n0 w = some (.tlog (natBits w 24 7 * 2 + natBits w 0 1) (natBits w 13 6) (natBits w 7 6) (natBits w 1 6)) := by
  have op : swOp w = 0x80 + natBits w 24 7 := by simp [swOp, natBits_succ, h, Nat.add_comm]
  simp [decodeN, op, decodeN_b2_swS, swDst, swS1, swS2, Nat.mul_comm]

/-- Opcode[31:30] = 0b01 with even sources: TT[7:2] from opcode[29:24], TT[1] from bit [13], TT[0] from S (R93). -/
theorem decodeN_tlx (n0 : Bool) (w : Nat) (h31 : w.testBit 31 = false) (h30 : w.testBit 30 = true)
    (h7 : w.testBit 7 = false) (h1 : w.testBit 1 = false) :
    decodeN n0 w = some (.tlx (4 * natBits w 24 6 + 2 * natBits w 13 1 + natBits w 0 1)
      (natBits w 13 6 / 2 * 2) (natBits w 7 6) (natBits w 1 6)) := by
  have op : swOp w = 0x40 + natBits w 24 6 := by simp [swOp_eq, h31, h30, Nat.add_comm]
  have small : natBits w 24 6 < 64 := natBits_lt w 24 6
  have notTlog : ¬ 0x80 ≤ 0x40 + natBits w 24 6 := by omega
  have even7 : natBits w 7 1 = 0 := by rw [natBits_one, h7]; rfl
  have even1 : natBits w 1 1 = 0 := by rw [natBits_one, h1]; rfl
  simp [decodeN, need, op, notTlog, even7, even1, decodeN_b2_swS, swDst, swS1, swS2]

/-! #### What the two operations read and write -/

theorem execN_tlog (r : Run) (c : Ctx) (slot tt d a b : Nat) :
    r.execN c slot (.tlog tt d a b) = r.put c slot 1 (.n d) (tlog tt (c.e0.rN a) (c.e0.rN b) (c.e0.rN d)) := rfl

theorem execN_tlx (r : Run) (c : Ctx) (slot tt d a b : Nat) (v : Four)
    (h : v = tlx tt ⟨c.e0.rN a, c.e0.rN (a + 1)⟩ ⟨c.e0.rN b, c.e0.rN (b + 1)⟩ ⟨c.e0.rN d, c.e0.rN (d + 1)⟩) :
    r.execN c slot (.tlx tt d a b) = (r.put c slot 2 (.n d) v.v).put c slot 2 (.n (d + 1)) v.u := by
  rw [h]; rfl

/-! #### The rows of a truth table -/

/-- The row of a truth table for three input bits (R92). -/
def tableRow (p q r : Bool) : Nat := 4 * p.toNat + 2 * q.toNat + r.toNat

theorem tableRow_lt (p q r : Bool) : tableRow p q r < 8 := by
  revert p q r; decide

/-- The input bits of a row, by their place in its number. -/
theorem testBit_tableRow (p q r : Bool) :
    (tableRow p q r).testBit 2 = p ∧ (tableRow p q r).testBit 1 = q ∧ (tableRow p q r).testBit 0 = r := by
  revert p q r; decide

/-- Each of the eight rows is the row of its own bits. -/
theorem tableRow_testBit {k : Nat} (h : k < 8) : tableRow (k.testBit 2) (k.testBit 1) (k.testBit 0) = k := by
  revert k; decide

/-- To range over the eight rows is to range over three input bits. -/
theorem exists_row_iff {P : Nat → Bool → Bool → Bool → Prop} :
    (∃ k < 8, P k (k.testBit 2) (k.testBit 1) (k.testBit 0)) ↔ ∃ p q r, P (tableRow p q r) p q r := by
  constructor
  · rintro ⟨k, hk, h⟩
    exact ⟨_, _, _, by rwa [tableRow_testBit hk]⟩
  · rintro ⟨p, q, r, h⟩
    obtain ⟨hp, hq, hr⟩ := testBit_tableRow p q r
    exact ⟨_, tableRow_lt p q r, by rwa [hp, hq, hr]⟩

/-- A bit of an OR over the chosen members of a list. -/
theorem getLsbD_foldl_or {α : Type} (chosen : α → Bool) (f : α → NetWord) (l : List α) (acc : NetWord) (i : Nat) :
    (l.foldl (fun r k => if chosen k then r ||| f k else r) acc).getLsbD i = true ↔
      acc.getLsbD i = true ∨ ∃ k ∈ l, (f k).getLsbD i = true ∧ chosen k = true := by
  induction l generalizing acc with
  | nil => simp
  | cons k l ih =>
    rw [List.foldl_cons, ih]
    by_cases hk : chosen k = true <;> simp [hk, or_assoc]

/-- A bit of the OR of the minterms of the chosen rows, each the AND of a word for every input. -/
theorem getLsbD_minterms (chosen : Nat → Bool) (f g h : Bool → NetWord) (i : Nat) :
    ((List.range 8).foldl (fun r k =>
      if chosen k then r ||| (f (k.testBit 2) &&& g (k.testBit 1) &&& h (k.testBit 0)) else r) 0).getLsbD i = true ↔
      ∃ p q r, (f p).getLsbD i = true ∧ (g q).getLsbD i = true ∧ (h r).getLsbD i = true ∧
        chosen (tableRow p q r) = true := by
  rw [getLsbD_foldl_or, ← exists_row_iff (P := fun k p q r =>
    (f p).getLsbD i = true ∧ (g q).getLsbD i = true ∧ (h r).getLsbD i = true ∧ chosen k = true)]
  simp [and_assoc]

/-! #### TLOG -/

/-- A literal holds where the word has the bit that it asks for. -/
theorem getLsbD_lit (p : Bool) (x : NetWord) {i : Nat} (hi : i < 256) :
    (lit p x).getLsbD i = (x.getLsbD i == p) := by
  cases p <;> simp [lit, hi]

/-- The one row whose three literals hold is the row of the three bits (R92). -/
theorem getLsbD_tlog (tt : Nat) (a b c : NetWord) {i : Nat} (hi : i < 256) :
    (tlog tt a b c).getLsbD i = tt.testBit (tableRow (a.getLsbD i) (b.getLsbD i) (c.getLsbD i)) := by
  rw [Bool.eq_iff_iff, tlog, getLsbD_minterms tt.testBit (lit · a) (lit · b) (lit · c)]
  simp only [getLsbD_lit _ _ hi, beq_iff_eq]
  constructor
  · rintro ⟨_, _, _, rfl, rfl, rfl, h⟩
    exact h
  · exact fun h => ⟨_, _, _, rfl, rfl, rfl, h⟩

/-- Settles O9: opcode[31] alone decides the decoding, and at each bit position the minterm of exactly one row holds. -/
theorem tlogTruthTable : Obligations.TlogTruthTable :=
  ⟨fun n0 w _ h => decodeN_tlog n0 w h, fun _ _ _ _ => rfl, execN_tlog, fun tt a b c _ hi => getLsbD_tlog tt a b c hi⟩

/-! #### TLX -/

/-- A completion may give the bit `i` of the word the value `p`: the bit is X or Z, or it is known to be `p` (R93). -/
def Four.agrees (x : Four) (i : Nat) (p : Bool) : Bool := x.u.getLsbD i || x.v.getLsbD i == p

theorem Four.agrees_v (x : Four) (i : Nat) : x.agrees i (x.v.getLsbD i) = true := by simp [Four.agrees]

theorem Four.getLsbD_can (x : Four) (p : Bool) {i : Nat} (hi : i < 256) :
    (x.can p).getLsbD i = x.agrees i p := by
  rw [Four.can, BitVec.getLsbD_or, getLsbD_lit _ _ hi, Bool.or_comm, Four.agrees]

/-- Every completion of the bits `i` gives the value `v` (R93). -/
def EveryCompletion (tt : Nat) (a b c : Four) (i : Nat) (v : Bool) : Prop :=
  ∀ p q r, a.agrees i p = true → b.agrees i q = true → c.agrees i r = true → tt.testBit (tableRow p q r) = v

/-- The value planes are themselves a completion, so not both values come from all of them. -/
theorem EveryCompletion.not_both {tt : Nat} {a b c : Four} {i : Nat} (h1 : EveryCompletion tt a b c i true)
    (h0 : EveryCompletion tt a b c i false) : False :=
  Bool.noConfusion ((h1 _ _ _ (a.agrees_v i) (b.agrees_v i) (c.agrees_v i)).symm.trans
    (h0 _ _ _ (a.agrees_v i) (b.agrees_v i) (c.agrees_v i)))

/-- A value is seen unless every completion gives the other one. -/
theorem getLsbD_tlxSeen (v : Bool) (tt : Nat) (a b c : Four) {i : Nat} (hi : i < 256) :
    (tlxSeen v tt a b c).getLsbD i = true ↔ ¬ EveryCompletion tt a b c i (!v) := by
  rw [tlxSeen, getLsbD_minterms (fun k => tt.testBit k == v) (a.can ·) (b.can ·) (c.can ·)]
  simp only [Four.getLsbD_can _ _ hi, EveryCompletion, Classical.not_forall, beq_iff_eq, Bool.not_eq_not, exists_prop]

theorem getLsbD_tlx_v (tt : Nat) (a b c : Four) {i : Nat} (hi : i < 256) :
    (tlx tt a b c).v.getLsbD i = ((tlxSeen true tt a b c).getLsbD i && !(tlxSeen false tt a b c).getLsbD i) := by
  simp [tlx, hi]

theorem getLsbD_tlx_u (tt : Nat) (a b c : Four) (i : Nat) :
    (tlx tt a b c).u.getLsbD i = ((tlxSeen true tt a b c).getLsbD i && (tlxSeen false tt a b c).getLsbD i) := by
  simp [tlx]

/-- Where every completion gives one value, that value is seen and the other is not. -/
theorem EveryCompletion.seen {tt : Nat} {a b c : Four} {i : Nat} {v : Bool} (hi : i < 256)
    (h : EveryCompletion tt a b c i v) :
    (tlxSeen v tt a b c).getLsbD i = true ∧ (tlxSeen (!v) tt a b c).getLsbD i = false := by
  constructor
  · rw [getLsbD_tlxSeen _ _ _ _ _ hi]
    cases v with
    | true => exact h.not_both
    | false => exact fun h' => h'.not_both h
  · rw [← Bool.not_eq_true, getLsbD_tlxSeen _ _ _ _ _ hi, Bool.not_not]
    exact not_not_intro h

theorem getLsbD_tlx_of_every {tt : Nat} {a b c : Four} {i : Nat} {v : Bool} (hi : i < 256)
    (h : EveryCompletion tt a b c i v) :
    (tlx tt a b c).v.getLsbD i = v ∧ (tlx tt a b c).u.getLsbD i = false := by
  obtain ⟨seen, unseen⟩ := h.seen hi
  rw [getLsbD_tlx_v _ _ _ _ hi, getLsbD_tlx_u]
  cases v <;> simp_all

theorem getLsbD_tlx_of_mixed {tt : Nat} {a b c : Four} {i : Nat} (hi : i < 256)
    (h1 : ¬ EveryCompletion tt a b c i true) (h0 : ¬ EveryCompletion tt a b c i false) :
    (tlx tt a b c).v.getLsbD i = false ∧ (tlx tt a b c).u.getLsbD i = true := by
  have seen1 := (getLsbD_tlxSeen true tt a b c hi).mpr h0
  have seen0 := (getLsbD_tlxSeen false tt a b c hi).mpr h1
  simp [getLsbD_tlx_v _ _ _ _ hi, getLsbD_tlx_u, seen1, seen0]

/-- Settles O10: at each bit position TLX sees a value exactly where not every completion gives the other one. -/
theorem tlxCompletions : Obligations.TlxCompletions := by
  refine ⟨fun n0 w _ h31 h30 h7 h1 => ⟨_, _, _, _, ?_, decodeN_tlx n0 w h31 h30 h7 h1⟩, fun _ _ _ _ => rfl,
    execN_tlx, fun tt a b c i hi => ⟨getLsbD_tlx_of_every hi, getLsbD_tlx_of_every hi, getLsbD_tlx_of_mixed hi⟩⟩
  have top : natBits w 24 6 < 64 := natBits_lt w 24 6
  have mid : natBits w 13 1 < 2 := natBits_lt w 13 1
  have low : natBits w 0 1 < 2 := natBits_lt w 0 1
  omega

end Sys2Proof.Machine
end

section
/-! ### The symbol code (R267 to R271): its syndromes are power sums, and few wrong symbols show in them

A byte is an element of GF(2⁸), its sum is `^^^`, and `timesAlpha` multiplies it by α. The syndrome S[k] of a word is the power
sum Σ α^(kj)·v[j] of its symbols (`symSum`). The argument for R271 is that a pattern of at most `n` wrong symbols with `n`
consecutive power sums 0 has no wrong symbol (`WrongWithin.eq_zero`), and that S[k+1] + α^j·S[k] is S[k] of the pattern
`without` its symbol j, so that `n` quotients α^j in a row leave no wrong symbol but j (`WrongWithin.of_ratio`). -/

namespace Sys2Proof.Machine

/-! #### The product by α and its power sums -/

/-- The product of a byte by α (R267). -/
def timesAlpha (a : Byte) : Byte := a <<< 1 ^^^ (if a.msb then 0x1D#8 else 0#8)

theorem toNat_timesAlpha (a : Byte) : (timesAlpha a).toNat = gfX a.toNat := by
  revert a; decide +kernel

theorem timesAlpha_xor (a b : Byte) : timesAlpha (a ^^^ b) = timesAlpha a ^^^ timesAlpha b := by
  have top : (if (a ^^^ b).msb then 0x1D#8 else 0#8) = (if a.msb then 0x1D#8 else 0#8) ^^^ (if b.msb then 0x1D#8 else 0#8) := by
    rw [BitVec.msb_xor]
    cases a.msb <;> cases b.msb <;> rfl
  rw [timesAlpha, top, BitVec.shiftLeft_xor_distrib]
  unfold timesAlpha
  ac_rfl

/-- The product of a byte by α^n. -/
def timesPow : Nat → Byte → Byte
  | 0, a => a
  | n + 1, a => timesAlpha (timesPow n a)

theorem toNat_timesPow (n : Nat) (a : Byte) : (timesPow n a).toNat = Nat.repeat gfX n a.toNat := by
  induction n with
  | zero => rfl
  | succ n ih => rw [timesPow, toNat_timesAlpha, ih, Nat.repeat]

theorem timesPow_zero_left (a : Byte) : timesPow 0 a = a := rfl

theorem timesPow_add (m n : Nat) (a : Byte) : timesPow (m + n) a = timesPow m (timesPow n a) := by
  induction m with
  | zero => rw [Nat.zero_add, timesPow]
  | succ m ih => rw [Nat.succ_add, timesPow, ih, timesPow]

theorem timesPow_succ_mul (k j : Nat) (a : Byte) : timesPow ((k + 1) * j) a = timesPow j (timesPow (k * j) a) := by
  rw [← timesPow_add, Nat.succ_mul, Nat.add_comm]

/-- The power sum Σ α^(kj)·v[j] of the first `n` values. -/
def symSum (v : Nat → Byte) (k : Nat) : Nat → Byte
  | 0 => 0#8
  | n + 1 => symSum v k n ^^^ timesPow (k * n) (v n)

theorem symSum_congr {v w : Nat → Byte} (k : Nat) {n : Nat} (h : ∀ i < n, v i = w i) : symSum v k n = symSum w k n := by
  induction n with
  | zero => rfl
  | succ n ih => rw [symSum, symSum, ih fun i hi => h i (by omega), h n (by omega)]

/-- A sum and a product by α go through the map: it is the product by some field element. -/
structure FieldLinear (f : Byte → Byte) : Prop where
  xor : ∀ a b, f (a ^^^ b) = f a ^^^ f b
  alpha : ∀ a, f (timesAlpha a) = timesAlpha (f a)

namespace FieldLinear

variable {f g : Byte → Byte}

theorem zero (hf : FieldLinear f) : f 0#8 = 0#8 := by
  have h := hf.xor 0#8 0#8
  rwa [BitVec.xor_self, BitVec.xor_self] at h

theorem map_timesPow (hf : FieldLinear f) (n : Nat) (a : Byte) : f (timesPow n a) = timesPow n (f a) := by
  induction n with
  | zero => rfl
  | succ n ih => rw [timesPow, hf.alpha, ih, timesPow]

theorem map_symSum (hf : FieldLinear f) (v : Nat → Byte) (k n : Nat) :
    f (symSum v k n) = symSum (fun i => f (v i)) k n := by
  induction n with
  | zero => exact hf.zero
  | succ n ih => rw [symSum, hf.xor, ih, hf.map_timesPow, symSum]

theorem byAlpha : FieldLinear timesAlpha := ⟨timesAlpha_xor, fun _ => rfl⟩

theorem comp (hf : FieldLinear f) (hg : FieldLinear g) : FieldLinear fun a => f (g a) where
  xor a b := by rw [hg.xor, hf.xor]
  alpha a := by rw [hg.alpha, hf.alpha]

theorem byPow (n : Nat) : FieldLinear (timesPow n) := by
  induction n with
  | zero => exact ⟨fun _ _ => rfl, fun _ => rfl⟩
  | succ n ih => exact byAlpha.comp ih

theorem add (hf : FieldLinear f) (hg : FieldLinear g) : FieldLinear fun a => f a ^^^ g a where
  xor a b := by rw [hf.xor, hg.xor]; ac_rfl
  alpha a := by rw [hf.alpha, hg.alpha, timesAlpha_xor]

end FieldLinear

theorem timesPow_zero (n : Nat) : timesPow n 0#8 = 0#8 := (FieldLinear.byPow n).zero

theorem timesPow_xor (n : Nat) (a b : Byte) :
    timesPow n (a ^^^ b) = timesPow n a ^^^ timesPow n b :=
  (FieldLinear.byPow n).xor a b

theorem symSum_xor (v w : Nat → Byte) (k n : Nat) :
    symSum (fun i => v i ^^^ w i) k n = symSum v k n ^^^ symSum w k n := by
  induction n with
  | zero => exact BitVec.xor_self.symm
  | succ n ih =>
    simp only [symSum, ih, timesPow_xor]
    ac_rfl

/-! #### Horner's rule, and the product of the model -/

/-- Horner's rule from the highest value down gives the power sum (R269). -/
theorem foldl_horner (v : Nat → Byte) (k n : Nat) (a : Byte) :
    (List.range n).foldl (fun acc i => timesPow k acc ^^^ v (n - 1 - i)) a = timesPow (k * n) a ^^^ symSum v k n := by
  induction n generalizing a with
  | zero => exact BitVec.xor_zero.symm
  | succ n ih =>
    have tail : (fun (acc : Byte) i => timesPow k acc ^^^ v (n + 1 - 1 - (i + 1))) =
        fun acc i => timesPow k acc ^^^ v (n - 1 - i) := by
      funext acc i
      rw [show n + 1 - 1 - (i + 1) = n - 1 - i by omega]
    rw [List.range_succ_eq_map, List.foldl_cons, List.foldl_map, tail, ih, timesPow_xor,
      ← timesPow_add, symSum, Nat.mul_succ]
    simp only [Nat.add_sub_cancel, Nat.sub_zero]
    ac_rfl

theorem foldl_horner_zero (v : Nat → Byte) (k n : Nat) :
    (List.range n).foldl (fun acc i => timesPow k acc ^^^ v (n - 1 - i)) 0#8 = symSum v k n := by
  rw [foldl_horner, timesPow_zero, BitVec.zero_xor]

/-- The product of a byte by the field element with the bits of `b`. -/
def fieldMul (b : Nat) (a : Byte) : Byte := symSum (fun i => if b.testBit i then a else 0#8) 1 8

/-- A product is Horner's rule for α itself, on the bits of the second factor. -/
theorem gfMul_eq (a : Byte) (b : Nat) : gfMul a.toNat b = (fieldMul b a).toNat := by
  rw [fieldMul, ← foldl_horner_zero, ← List.foldl_hom BitVec.toNat
    (g₂ := fun acc i => if b.testBit (7 - i) then gfX acc ^^^ a.toNat else gfX acc)]
  · rfl
  · intro acc i
    rw [BitVec.toNat_xor, timesPow, timesPow, toNat_timesAlpha]
    by_cases h : b.testBit (7 - i) = true
    · rw [if_pos h, if_pos h]
    · rw [if_neg h, if_neg h, BitVec.toNat_zero, Nat.xor_zero]

/-- Bit `i` of a byte is the coefficient of x^i (R267). -/
theorem fieldMul_one (a : Byte) : fieldMul a.toNat 1#8 = a := by
  have one : ∀ b < 256, gfMul 1 b = b := by decide +kernel
  exact BitVec.eq_of_toNat_eq ((gfMul_eq 1#8 a.toNat).symm.trans (one _ a.isLt))

/-- A map that is linear over the field is known from its value at 1. -/
theorem FieldLinear.ext {f g : Byte → Byte} (hf : FieldLinear f) (hg : FieldLinear g) (h : f 1#8 = g 1#8) (a : Byte) :
    f a = g a := by
  rw [← fieldMul_one a, fieldMul, hf.map_symSum, hg.map_symSum]
  simp only [apply_ite f, apply_ite g, h, hf.zero, hg.zero]

theorem FieldLinear.product (b : Nat) : FieldLinear (fieldMul b) where
  xor a c := by
    rw [fieldMul, fieldMul, fieldMul, ← symSum_xor]
    refine symSum_congr 1 fun i _ => ?_
    split
    · rfl
    · exact BitVec.xor_self.symm
  alpha a := by
    rw [fieldMul, fieldMul, FieldLinear.byAlpha.map_symSum]
    refine symSum_congr 1 fun i _ => ?_
    split <;> rfl

theorem gfPow_eq (k : Nat) : gfPow k = (timesPow k 1#8).toNat := by
  induction k with
  | zero => rfl
  | succ k ih => rw [gfPow, ih, ← toNat_timesAlpha, timesPow]

/-- The product by a power of α is the repeated product by α. -/
theorem gfMul_gfPow (a : Byte) (k : Nat) : gfMul a.toNat (gfPow k) = (timesPow k a).toNat := by
  rw [gfMul_eq, gfPow_eq]
  exact congrArg _ ((FieldLinear.product _).ext (.byPow k) (fieldMul_one _) a)

/-! #### The order of α -/

theorem timesPow_255 (a : Byte) : timesPow 255 a = a :=
  (FieldLinear.byPow 255).ext (.byPow 0) (by decide +kernel) a

theorem eq_zero_of_timesAlpha_eq_zero {a : Byte} (h : timesAlpha a = 0#8) : a = 0#8 := by
  have back : timesPow (254 + 1) a = timesPow 254 (timesAlpha a) := timesPow_add 254 1 a
  rw [timesPow_255, h, timesPow_zero] at back
  exact back

theorem timesPow_eq_zero {n : Nat} {a : Byte} : timesPow n a = 0#8 ↔ a = 0#8 := by
  induction n with
  | zero => exact Iff.rfl
  | succ n ih =>
    rw [← ih]
    exact ⟨eq_zero_of_timesAlpha_eq_zero, congrArg timesAlpha⟩

theorem timesPow_inj {n : Nat} {a b : Byte} : timesPow n a = timesPow n b ↔ a = b := by
  rw [← BitVec.xor_eq_zero_iff, ← timesPow_xor, timesPow_eq_zero, BitVec.xor_eq_zero_iff]

/-- Where α^m acts as 1, so do its powers. -/
theorem timesPow_mul_eq_self {m : Nat} {a : Byte} (h : timesPow m a = a) (q : Nat) : timesPow (m * q) a = a := by
  induction q with
  | zero => rfl
  | succ q ih => rw [Nat.mul_succ, timesPow_add, h, ih]

theorem timesPow_mod_255 (n : Nat) (a : Byte) : timesPow (n % 255) a = timesPow n a := by
  have parts : timesPow n a = timesPow (n % 255 + 255 * (n / 255)) a := by rw [Nat.mod_add_div]
  rw [parts, timesPow_add, timesPow_mul_eq_self (timesPow_255 a)]

/-- α¹⁵ ≠ 1 and α¹⁷ ≠ 1. -/
theorem eq_zero_of_timesPow_15_17 {a : Byte} (h : timesPow 15 a = a ∨ timesPow 17 a = a) : a = 0#8 := by
  have fixed : ∀ b < 256, Nat.repeat gfX 15 b = b ∨ Nat.repeat gfX 17 b = b → b = 0 := by decide +kernel
  apply BitVec.eq_of_toNat_eq
  rw [← BitVec.toNat_inj, ← BitVec.toNat_inj, toNat_timesPow, toNat_timesPow] at h
  exact fixed _ a.isLt h

/-- A number below 20 has a multiple that is 15 or 17 modulo the order 255 of α, so α^m ≠ 1 for 0 < m < 20. -/
theorem eq_zero_of_timesPow_eq_self {m : Nat} (h0 : 0 < m) (h : m < 20) {a : Byte} (ha : timesPow m a = a) : a = 0#8 := by
  have multiple : ∀ m < 20, 0 < m → ∃ q ∈ List.range 255, m * q % 255 = 15 ∨ m * q % 255 = 17 := by decide +kernel
  obtain ⟨q, -, hq⟩ := multiple m h h0
  have one (n : Nat) (hn : m * q % 255 = n) : timesPow n a = a := by
    rw [← hn, timesPow_mod_255, timesPow_mul_eq_self ha]
  exact eq_zero_of_timesPow_15_17 (hq.imp (one 15) (one 17))

theorem eq_zero_of_timesPow_eq_of_lt {i j : Nat} (hlt : i < j) (hj : j < 20) {a : Byte}
    (h : timesPow i a = timesPow j a) : a = 0#8 := by
  have later : timesPow j a = timesPow i (timesPow (j - i) a) := by
    rw [← timesPow_add, Nat.add_sub_cancel' (Nat.le_of_lt hlt)]
  exact eq_zero_of_timesPow_eq_self (by omega) (by omega) (timesPow_inj.mp (h.trans later)).symm

/-- The 20 symbols have 20 different powers of α (R267). -/
theorem symbol_eq_of_timesPow_eq {i j : Nat} (hi : i < 20) (hj : j < 20) {a : Byte} (ha : a ≠ 0#8)
    (h : timesPow i a = timesPow j a) : i = j := by
  rcases Nat.lt_trichotomy i j with hlt | heq | hgt
  · exact absurd (eq_zero_of_timesPow_eq_of_lt hlt hj h) ha
  · exact heq
  · exact absurd (eq_zero_of_timesPow_eq_of_lt hgt hi h.symm) ha

/-! #### The symbols of a word and its syndromes -/

/-- Symbol `j` of a word, bits [8j + 7:8j] (R268). -/
def symbol (n j : Nat) : Byte := BitVec.ofNat 8 (n >>> (8 * j))

theorem toNat_symbol (n j : Nat) : (symbol n j).toNat = natBits n (8 * j) 8 := rfl

theorem symbol_xor (a b j : Nat) : symbol (a ^^^ b) j = symbol a j ^^^ symbol b j := by
  apply BitVec.eq_of_toNat_eq
  simp only [symbol, BitVec.toNat_xor, BitVec.toNat_ofNat, Nat.shiftRight_xor_distrib, Nat.xor_mod_two_pow]

theorem symbol_mod {j k : Nat} (n : Nat) (h : 8 * j + 8 ≤ k) : symbol (n % 2 ^ k) j = symbol n j :=
  BitVec.eq_of_toNat_eq (natBits_mod n (8 * j) 8 k h)

/-- The syndrome S[k] of a word (R269). -/
def syndrome (w : Flit) (k : Nat) : Byte := symSum (symbol w.toNat) k 20

theorem rsSyn_eq (w : Flit) (k : Nat) : rsSyn w.toNat k = (syndrome w k).toNat := by
  rw [syndrome, ← foldl_horner_zero, ← List.foldl_hom BitVec.toNat
    (g₂ := fun acc i => gfMul acc (gfPow k) ^^^ natBits w.toNat (8 * (19 - i)) 8)]
  · rfl
  · intro acc i
    rw [BitVec.toNat_xor, gfMul_gfPow, toNat_symbol]

theorem syndrome_xor (w e : Flit) (k : Nat) : syndrome (w ^^^ e) k = syndrome w k ^^^ syndrome e k := by
  rw [syndrome, BitVec.toNat_xor, syndrome, syndrome, ← symSum_xor]
  exact symSum_congr k fun i _ => symbol_xor ..

/-! #### The encoder: a code word has the syndromes 0 (R268) -/

/-- The division of D(x)·x⁴ by g(x), one data byte further. -/
def checkStep (d c i : Nat) : Nat :=
  let fb := natBits d (8 * (15 - i)) 8 ^^^ natBits c 24 8
  gfMul fb 0x40 + (natBits c 0 8 ^^^ gfMul fb 0x78) * 2 ^ 8 + (natBits c 8 8 ^^^ gfMul fb 0x36) * 2 ^ 16 +
    (natBits c 16 8 ^^^ gfMul fb 0x0F) * 2 ^ 24

theorem rsCheck_eq (d : Nat) : rsCheck d = (List.range 16).foldl (checkStep d) 0 := rfl

/-- Four check symbols side by side. -/
def checkWord (v : Nat → Byte) : Nat := (v 0).toNat + (v 1).toNat * 2 ^ 8 + (v 2).toNat * 2 ^ 16 + (v 3).toNat * 2 ^ 24

theorem checkWord_lt (v : Nat → Byte) : checkWord v < 2 ^ 32 := by
  unfold checkWord; omega

theorem symbol_checkWord (v : Nat → Byte) : ∀ j < 4, symbol (checkWord v) j = v j := by
  intro j hj
  apply BitVec.eq_of_toNat_eq
  rw [toNat_symbol, natBits_eq, checkWord]
  obtain rfl | rfl | rfl | rfl : j = 0 ∨ j = 1 ∨ j = 2 ∨ j = 3 := by omega
  all_goals omega

/-- The check symbols after one more data byte: the feedback `fb` times the coefficients of g(x), on the symbols shifted up. -/
def nextCheck (c : Nat) (fb : Byte) : Nat → Byte
  | 0 => fieldMul 0x40 fb
  | 1 => symbol c 0 ^^^ fieldMul 0x78 fb
  | 2 => symbol c 1 ^^^ fieldMul 0x36 fb
  | _ => symbol c 2 ^^^ fieldMul 0x0F fb

theorem checkStep_eq (d c i : Nat) :
    checkStep d c i = checkWord (nextCheck c (symbol d (15 - i) ^^^ symbol c 3)) := by
  simp only [checkWord, nextCheck, BitVec.toNat_xor, ← gfMul_eq, toNat_symbol]
  rfl

theorem rsCheck_lt (d : Nat) : rsCheck d < 2 ^ 32 := by
  rw [rsCheck_eq, List.range_succ, List.foldl_append, List.foldl_cons, List.foldl_nil, checkStep_eq]
  exact checkWord_lt _

/-- 1, α, α² and α³ are the roots of g(x) (R267). -/
theorem generator_root {k : Nat} (hk : k < 4) (a : Byte) :
    fieldMul 0x40 a ^^^ timesPow k (fieldMul 0x78 a) ^^^ timesPow (k * 2) (fieldMul 0x36 a) ^^^
      timesPow (k * 3) (fieldMul 0x0F a) = timesPow (k * 4) a := by
  have coeff (n b : Nat) : FieldLinear fun a => timesPow n (fieldMul b a) := (FieldLinear.byPow n).comp (.product b)
  refine ((((FieldLinear.product 0x40).add (coeff k 0x78)).add (coeff (k * 2) 0x36)).add (coeff (k * 3) 0x0F)).ext
    (.byPow (k * 4)) ?_ a
  revert k; decide +kernel

/-- A root of g(x) sees the check symbols shifted up, and the feedback in the place of x⁴. -/
theorem symSum_nextCheck {k : Nat} (hk : k < 4) (c : Nat) (fb : Byte) :
    symSum (nextCheck c fb) k 4 = timesPow k (symSum (symbol c) k 3) ^^^ timesPow (k * 4) fb := by
  have square (a : Byte) : timesPow k (timesPow k a) = timesPow (k * 2) a := by
    rw [← timesPow_add, Nat.mul_two]
  have cube (a : Byte) : timesPow k (timesPow (k * 2) a) = timesPow (k * 3) a := by
    rw [← timesPow_add, Nat.mul_succ k 2, Nat.add_comm]
  rw [← generator_root hk]
  simp only [symSum, nextCheck, timesPow_xor, Nat.mul_zero, Nat.mul_one, timesPow_zero_left,
    BitVec.zero_xor, square, cube]
  ac_rfl

/-- One step of the division is one step of Horner's rule for a root of g(x). -/
theorem symSum_checkStep {k : Nat} (hk : k < 4) (d c i : Nat) :
    symSum (symbol (checkStep d c i)) k 4 =
      timesPow k (symSum (symbol c) k 4) ^^^ timesPow (k * 4) (symbol d (15 - i)) := by
  have top : symSum (symbol c) k 4 = symSum (symbol c) k 3 ^^^ timesPow (k * 3) (symbol c 3) := rfl
  rw [checkStep_eq, symSum_congr k (symbol_checkWord _), symSum_nextCheck hk, top, timesPow_xor,
    timesPow_xor, ← timesPow_add, Nat.mul_succ k 3, Nat.add_comm k]
  ac_rfl

/-- The values from `m` on come with the factor α^(km). -/
theorem symSum_add (v : Nat → Byte) (k m n : Nat) :
    symSum v k (m + n) = symSum v k m ^^^ timesPow (k * m) (symSum (fun i => v (m + i)) k n) := by
  induction n with
  | zero => rw [Nat.add_zero, symSum, timesPow_zero, BitVec.xor_zero]
  | succ n ih =>
    rw [← Nat.add_assoc, symSum, ih, symSum, timesPow_xor, ← timesPow_add, ← Nat.mul_add,
      BitVec.xor_assoc]

theorem symSum_rsCheck {k : Nat} (hk : k < 4) (d : Nat) :
    symSum (symbol (rsCheck d)) k 4 = timesPow (k * 4) (symSum (symbol d) k 16) := by
  have start : symSum (symbol 0) k 4 = 0#8 := by
    simp only [symSum, symbol, Nat.zero_shiftRight, timesPow_zero, BitVec.xor_self]
  calc symSum (symbol (rsCheck d)) k 4
    _ = (List.range 16).foldl (fun acc i => timesPow k acc ^^^ timesPow (k * 4) (symbol d (15 - i)))
          (symSum (symbol 0) k 4) :=
        (List.foldl_hom (fun c => symSum (symbol c) k 4) fun c i => (symSum_checkStep hk d c i).symm).symm
    _ = symSum (fun i => timesPow (k * 4) (symbol d i)) k 16 := by rw [start, ← foldl_horner_zero]
    _ = timesPow (k * 4) (symSum (symbol d) k 16) := ((FieldLinear.byPow (k * 4)).map_symSum ..).symm

theorem toNat_rsEncode {d : Nat} (hd : d < 2 ^ 128) : (rsEncode d).toNat = d * 2 ^ 32 + rsCheck d := by
  have := rsCheck_lt d
  rw [rsEncode, BitVec.toNat_ofNat, Nat.mod_eq_of_lt hd, Nat.mod_eq_of_lt (by omega)]

theorem symbol_rsEncode_check {d : Nat} (hd : d < 2 ^ 128) : ∀ j < 4, symbol (rsEncode d).toNat j = symbol (rsCheck d) j := by
  intro j hj
  rw [toNat_rsEncode hd, ← symbol_mod (k := 32) _ (by omega), Nat.mul_add_mod_of_lt (rsCheck_lt d)]

theorem symbol_rsEncode_data {d : Nat} (hd : d < 2 ^ 128) (i : Nat) : symbol (rsEncode d).toNat (4 + i) = symbol d i := by
  have shift : (d * 2 ^ 32 + rsCheck d) >>> 32 = d := by
    have := rsCheck_lt d
    rw [Nat.shiftRight_eq_div_pow]; omega
  rw [toNat_rsEncode hd, symbol, Nat.mul_add, Nat.shiftRight_add, shift, symbol]

/-- A code word is a multiple of g(x) (R268). -/
theorem syndrome_rsEncode {d k : Nat} (hd : d < 2 ^ 128) (hk : k < 4) : syndrome (rsEncode d) k = 0#8 := by
  rw [syndrome, show (20 : Nat) = 4 + 16 from rfl, symSum_add, symSum_congr k (symbol_rsEncode_check hd),
    symSum_congr k fun i _ => symbol_rsEncode_data hd i, symSum_rsCheck hk, BitVec.xor_self]

/-! #### Few wrong symbols show in few power sums -/

/-- The symbols of a pattern of errors that are not 0 stand in a list. -/
def WrongWithin (e : Nat → Byte) (l : List Nat) : Prop := ∀ j < 20, e j ≠ 0#8 → j ∈ l

/-- The pattern whose symbol j is that of `e` times α^j + α^i: its symbol `i` is 0. -/
def without (i : Nat) (e : Nat → Byte) (j : Nat) : Byte := timesPow j (e j) ^^^ timesPow i (e j)

theorem symSum_without (i : Nat) (e : Nat → Byte) (k n : Nat) :
    symSum (without i e) k n = symSum e (k + 1) n ^^^ timesPow i (symSum e k n) := by
  rw [(FieldLinear.byPow i).map_symSum]
  induction n with
  | zero => exact BitVec.xor_self.symm
  | succ n ih =>
    have place : timesPow (k * n) (timesPow n (e n)) = timesPow ((k + 1) * n) (e n) := by rw [← timesPow_add, Nat.succ_mul]
    simp only [symSum, ih, without, timesPow_xor, place]
    ac_rfl

theorem without_of_eq_zero (i : Nat) {e : Nat → Byte} {j : Nat} (h : e j = 0#8) : without i e j = 0#8 := by
  rw [without, h, timesPow_zero, timesPow_zero, BitVec.xor_self]

theorem WrongWithin.without {e : Nat → Byte} {l : List Nat} (h : WrongWithin e l) (i : Nat) :
    WrongWithin (without i e) l :=
  fun j hj hne => h j hj (mt (without_of_eq_zero i) hne)

theorem WrongWithin.without_head {e : Nat → Byte} {i : Nat} {l : List Nat} (h : WrongWithin e (i :: l)) :
    WrongWithin (Machine.without i e) l := by
  intro j hj hne
  obtain rfl | hmem := List.mem_cons.mp (h.without i j hj hne)
  · exact absurd BitVec.xor_self hne
  · exact hmem

theorem WrongWithin.of_without {i : Nat} (hi : i < 20) {e : Nat → Byte} (h : WrongWithin (Machine.without i e) []) :
    WrongWithin e [i] := by
  intro j hj hne
  have zero : Machine.without i e j = 0#8 := Decidable.byContradiction fun hw => List.not_mem_nil (h j hj hw)
  exact List.mem_singleton.mpr (symbol_eq_of_timesPow_eq hj hi hne (BitVec.xor_eq_zero_iff.mp zero))

theorem symSum_single {v : Nat → Byte} {i n : Nat} (h : ∀ j < n, j ≠ i → v j = 0#8) (k : Nat) :
    symSum v k n = if i < n then timesPow (k * i) (v i) else 0#8 := by
  induction n with
  | zero => rfl
  | succ n ih =>
    rw [symSum, ih fun j hj => h j (by omega)]
    rcases Nat.lt_trichotomy i n with hlt | rfl | hgt
    · rw [if_pos hlt, if_pos (by omega), h n (by omega) (by omega), timesPow_zero, BitVec.xor_zero]
    · rw [if_neg (by omega), if_pos (by omega), BitVec.zero_xor]
    · rw [if_neg (by omega), if_neg (by omega), h n (by omega) (by omega), timesPow_zero, BitVec.xor_zero]

/-- A pattern with at most one wrong symbol shows it in every power sum. -/
theorem WrongWithin.symSum_eq {e : Nat → Byte} {i : Nat} (h : WrongWithin e [i]) (hi : i < 20) (k : Nat) :
    symSum e k 20 = timesPow (k * i) (e i) :=
  (symSum_single (fun j hj hne => Decidable.byContradiction fun he => hne (List.mem_singleton.mp (h j hj he))) k).trans
    (if_pos hi)

/-- Vandermonde: a pattern of at most `n` wrong symbols with `n` consecutive power sums 0 has none. -/
theorem WrongWithin.eq_zero {l : List Nat} {e : Nat → Byte} (he : WrongWithin e l) (c : Nat)
    (h : ∀ k < l.length, symSum e (c + k) 20 = 0#8) : WrongWithin e [] := by
  induction l generalizing e with
  | nil => exact he
  | cons i l ih =>
    by_cases hi : i < 20
    · have rest : WrongWithin (Machine.without i e) [] := by
        refine ih he.without_head fun k hk => ?_
        rw [symSum_without, Nat.add_assoc, h (k + 1) (Nat.succ_lt_succ hk), h k (Nat.lt_succ_of_lt hk), timesPow_zero,
          BitVec.xor_self]
      have only : WrongWithin e [i] := rest.of_without hi
      have zero : e i = 0#8 := timesPow_eq_zero.mp ((only.symSum_eq hi c).symm.trans (h 0 (Nat.zero_lt_succ _)))
      intro j hj hne
      obtain rfl := List.mem_singleton.mp (only j hj hne)
      exact absurd zero hne
    · refine ih (fun j hj hne => ?_) fun k hk => h k (Nat.lt_succ_of_lt hk)
      obtain rfl | hmem := List.mem_cons.mp (he j hj hne)
      · exact absurd hj hi
      · exact hmem

/-- Where `n` consecutive power sums have the ratio α^j, a pattern of at most `n` wrong symbols has none but symbol `j`. -/
theorem WrongWithin.of_ratio {l : List Nat} {e : Nat → Byte} (he : WrongWithin e l) (c : Nat) {j : Nat} (hj : j < 20)
    (h : ∀ k < l.length, symSum e (c + k + 1) 20 = timesPow j (symSum e (c + k) 20)) : WrongWithin e [j] :=
  ((he.without j).eq_zero c fun k hk => by rw [symSum_without, h k hk, BitVec.xor_self]).of_without hj

/-! #### The decoder by its syndromes (R269) -/

/-- What the syndromes of the outcomes CLEAN, POISON and ZERO have in common. -/
def LooksStored (w : Flit) : Prop :=
  syndrome w 1 = 0#8 ∧ syndrome w 2 = 0#8 ∧ (syndrome w 0 = 0#8 ∨ syndrome w 3 = 0#8)

/-- The syndromes tell an error in symbol `j` alone: the three quotients are α^j. -/
def Locates (w : Flit) (j : Nat) : Prop :=
  syndrome w 0 ≠ 0#8 ∧ ∀ k < 3, syndrome w (k + 1) = timesPow j (syndrome w k)

theorem forall_lt_two {p : Nat → Prop} (h0 : p 0) (h1 : p 1) : ∀ k < 2, p k := by
  intro k hk
  obtain rfl | rfl : k = 0 ∨ k = 1 := by omega
  · exact h0
  · exact h1

theorem forall_lt_three {p : Nat → Prop} (h0 : p 0) (h1 : p 1) (h2 : p 2) : ∀ k < 3, p k := by
  intro k hk
  obtain rfl | hlt : k = 2 ∨ k < 2 := by omega
  · exact h2
  · exact forall_lt_two h0 h1 k hlt

theorem locates_iff {w : Flit} {j : Nat} : Locates w j ↔ syndrome w 0 ≠ 0#8 ∧ syndrome w 1 = timesPow j (syndrome w 0) ∧
    syndrome w 2 = timesPow j (syndrome w 1) ∧ syndrome w 3 = timesPow j (syndrome w 2) := by
  constructor
  · rintro ⟨h0, h⟩
    exact ⟨h0, h 0 (by omega), h 1 (by omega), h 2 (by omega)⟩
  · rintro ⟨h0, h1, h2, h3⟩
    exact ⟨h0, forall_lt_three h1 h2 h3⟩

/-- Past those outcomes the decoder corrects the symbol that the syndromes tell, or there is none. -/
theorem rsDecode_cases (ddr : Bool) {w : Flit} (h : ¬ LooksStored w) :
    (∃ j < 20, Locates w j ∧ (rsDecode ddr w).out = .corrected ∧
      (rsDecode ddr w).word = w ^^^ BitVec.ofNat 160 ((syndrome w 0).toNat * 2 ^ (8 * j))) ∨
    ((∀ j < 20, ¬ Locates w j) ∧ (rsDecode ddr w).out = .uncorrectable) := by
  simp only [LooksStored, ← BitVec.toNat_inj, BitVec.toNat_zero] at h
  simp only [rsDecode, rsSyn_eq, gfMul_gfPow]
  rw [if_neg (by omega), if_neg (by omega), if_neg (by simp only [Bool.and_eq_true, decide_eq_true_eq]; omega)]
  split
  case h_1 j hj =>
    refine .inl ⟨j, List.mem_range.mp (List.mem_of_find?_eq_some hj), ?_, rfl, rfl⟩
    have found := List.find?_some hj
    simp only [Bool.and_eq_true, decide_eq_true_eq, beq_iff_eq, BitVec.toNat_inj, and_assoc] at found
    obtain ⟨h0, ratios⟩ := found
    exact locates_iff.mpr ⟨fun zero => h0 (congrArg BitVec.toNat zero), ratios⟩
  case h_2 hj =>
    refine .inr ⟨fun j hlt hloc => ?_, rfl⟩
    have missed := List.find?_eq_none.mp hj j (List.mem_range.mpr hlt)
    obtain ⟨h0, ratios⟩ := locates_iff.mp hloc
    refine missed ?_
    simp only [Bool.and_eq_true, decide_eq_true_eq, beq_iff_eq, BitVec.toNat_inj, and_assoc]
    exact ⟨fun zero => h0 (BitVec.eq_of_toNat_eq zero), ratios⟩

/-! #### The guarantees (R271) -/

/-- An error of value `x` in symbol `j`, as a word. -/
def symbolError (j x : Nat) : Flit := BitVec.ofNat 160 (x * 2 ^ (8 * j))

theorem symbol_symbolError {j x i : Nat} (hx : x < 256) (hi : i < 20) :
    symbol (symbolError j x).toNat i = if i = j then BitVec.ofNat 8 x else 0#8 := by
  rw [symbolError, BitVec.toNat_ofNat, symbol_mod _ (by omega)]
  refine BitVec.eq_of_getLsbD_eq fun b hb => ?_
  have bit : (symbol (x * 2 ^ (8 * j)) i).getLsbD b = (decide (8 * j ≤ 8 * i + b) && x.testBit (8 * i + b - 8 * j)) := by
    rw [symbol, BitVec.getLsbD_ofNat, Nat.testBit_shiftRight, Nat.testBit_mul_two_pow, decide_eq_true hb, Bool.true_and]
  rw [bit]
  rcases Nat.lt_trichotomy i j with hlt | rfl | hgt
  · rw [if_neg (by omega), decide_eq_false (by omega), Bool.false_and, BitVec.getLsbD_zero]
  · rw [if_pos rfl, BitVec.getLsbD_ofNat, decide_eq_true (by omega), decide_eq_true hb, Nat.add_sub_cancel_left]
  · have high : x < 2 ^ (8 * i + b - 8 * j) :=
      Nat.lt_of_lt_of_le hx (Nat.pow_le_pow_right (show 0 < 2 by omega) (show 8 ≤ _ by omega))
    rw [if_neg (by omega), Nat.testBit_lt_two_pow high, Bool.and_false, BitVec.getLsbD_zero]

theorem syndrome_symbolError {j x : Nat} (hj : j < 20) (hx : x < 256) (k : Nat) :
    syndrome (symbolError j x) k = timesPow (k * j) (BitVec.ofNat 8 x) := by
  rw [syndrome, symSum_single (i := j), if_pos hj, symbol_symbolError hx hj, if_pos rfl]
  intro i hi hne
  rw [symbol_symbolError hx hi, if_neg hne]

theorem ofNat_ne_zero_of_pos {x : Nat} (h1 : 1 ≤ x) (hx : x < 256) : BitVec.ofNat 8 x ≠ 0#8 := by
  rw [ne_eq, ← BitVec.toNat_inj, BitVec.toNat_ofNat, Nat.mod_eq_of_lt hx]
  exact Nat.ne_of_gt h1

theorem rsDecode_of_one_error (ddr : Bool) {c : Flit} {j x : Nat} (hc : ∀ k < 4, syndrome c k = 0#8) (hj : j < 20)
    (h1 : 1 ≤ x) (hx : x < 256) :
    (rsDecode ddr (c ^^^ symbolError j x)).out = .corrected ∧ (rsDecode ddr (c ^^^ symbolError j x)).word = c := by
  have hv := ofNat_ne_zero_of_pos h1 hx
  have syn (k : Nat) (hk : k < 4) : syndrome (c ^^^ symbolError j x) k = timesPow (k * j) (BitVec.ofNat 8 x) := by
    rw [syndrome_xor, hc k hk, BitVec.zero_xor, syndrome_symbolError hj hx]
  have syn0 := syn 0 (by omega)
  have syn1 := syn 1 (by omega)
  rw [Nat.zero_mul, timesPow] at syn0
  rw [Nat.one_mul] at syn1
  have fresh : ¬ LooksStored (c ^^^ symbolError j x) := by
    rintro ⟨h, -⟩
    exact hv (timesPow_eq_zero.mp (syn1.symm.trans h))
  obtain ⟨i, hi, ⟨-, ratio⟩, hout, hword⟩ | ⟨none, -⟩ := rsDecode_cases ddr fresh
  · have ratio0 := ratio 0 (by omega)
    rw [syn0, syn1] at ratio0
    obtain rfl := symbol_eq_of_timesPow_eq hj hi hv ratio0
    refine ⟨hout, hword.trans ?_⟩
    rw [syn0, BitVec.toNat_ofNat, Nat.mod_eq_of_lt hx, BitVec.xor_assoc, symbolError, BitVec.xor_self, BitVec.xor_zero]
  · refine absurd ⟨syn0 ▸ hv, fun k hk => ?_⟩ (none j hj)
    rw [syn _ (by omega), syn _ (by omega), timesPow_succ_mul]

theorem rsDecode_uncorrectable (ddr : Bool) {w : Flit} (fresh : ¬ LooksStored w) (h : ∀ j < 20, ¬ Locates w j) :
    (rsDecode ddr w).out = .uncorrectable := by
  obtain ⟨j, hj, hloc, -⟩ | ⟨-, hout⟩ := rsDecode_cases ddr fresh
  · exact absurd hloc (h j hj)
  · exact hout

/-- An error in two or three symbols of a code word (R271). -/
theorem rsDecode_of_two_or_three_errors (ddr : Bool) {c e : Flit} (hc : ∀ k < 4, syndrome c k = 0#8) {l : List Nat}
    (he : WrongWithin (symbol e.toNat) l) (h3 : l.length ≤ 3) {i1 i2 : Nat} (hne : i1 ≠ i2) (h1 : i1 < 20) (h2 : i2 < 20)
    (wrong1 : symbol e.toNat i1 ≠ 0#8) (wrong2 : symbol e.toNat i2 ≠ 0#8) :
    (rsDecode ddr (c ^^^ e)).out = .uncorrectable := by
  have syn (k : Nat) (hk : k < 4) : syndrome (c ^^^ e) k = syndrome e k := by
    rw [syndrome_xor, hc k hk, BitVec.zero_xor]
  have not_zeros (b : Nat) (zeros : ∀ k < 3, syndrome e (b + k) = 0#8) : False :=
    List.not_mem_nil (he.eq_zero b (fun k hk => zeros k (Nat.lt_of_lt_of_le hk h3)) i1 h1 wrong1)
  apply rsDecode_uncorrectable
  · rintro ⟨s1, s2, s0 | s3⟩
    · rw [syn _ (by omega)] at s0 s1 s2
      exact not_zeros 0 (forall_lt_three s0 s1 s2)
    · rw [syn _ (by omega)] at s1 s2 s3
      exact not_zeros 1 (forall_lt_three s1 s2 s3)
  · rintro j hj ⟨-, ratio⟩
    have one : WrongWithin (symbol e.toNat) [j] := he.of_ratio 0 hj fun k hk => by
      rw [Nat.zero_add, ← syndrome, ← syndrome, ← syn _ (by omega), ← syn _ (by omega), ratio k (by omega)]
    exact hne ((List.mem_singleton.mp (one i1 h1 wrong1)).trans (List.mem_singleton.mp (one i2 h2 wrong2)).symm)

/-- A reserved word has one syndrome that is not 0, the first or the last (R270). -/
structure Reserved (r : Flit) : Prop where
  syndrome_one : syndrome r 1 = 0#8
  syndrome_two : syndrome r 2 = 0#8
  first_or_last : syndrome r 0 = 0#8 ∧ syndrome r 3 ≠ 0#8 ∨ syndrome r 0 ≠ 0#8 ∧ syndrome r 3 = 0#8

theorem reserved_poisonWord : Reserved poisonWord := by
  constructor <;> decide +kernel

theorem reserved_zeroMarker : Reserved zeroMarker := by
  constructor <;> decide +kernel

/-- An error in one or two symbols of a reserved word (R271): its two syndromes that agree with those of the error alone show
that the error is in the symbol located, and then the syndrome that does not agree has the wrong ratio. -/
theorem rsDecode_of_reserved_error (ddr : Bool) {r e : Flit} (hr : Reserved r) {l : List Nat}
    (he : WrongWithin (symbol e.toNat) l) (h2 : l.length ≤ 2) {i : Nat} (hi : i < 20) (wrong : symbol e.toNat i ≠ 0#8) :
    (rsDecode ddr (r ^^^ e)).out = .uncorrectable := by
  have syn {k : Nat} (h : syndrome r k = 0#8) : syndrome (r ^^^ e) k = syndrome e k := by
    rw [syndrome_xor, h, BitVec.zero_xor]
  have syn1 := syn hr.syndrome_one
  have syn2 := syn hr.syndrome_two
  apply rsDecode_uncorrectable
  · rintro ⟨s1, s2, -⟩
    rw [syn1] at s1
    rw [syn2] at s2
    have zeros : ∀ k < 2, syndrome e (1 + k) = 0#8 := forall_lt_two s1 s2
    exact List.not_mem_nil (he.eq_zero 1 (fun k hk => zeros k (Nat.lt_of_lt_of_le hk h2)) i hi wrong)
  · intro j hj hloc
    obtain ⟨-, ratio0, ratio1, ratio2⟩ := locates_iff.mp hloc
    have single (b : Nat) (first : syndrome e (b + 1) = timesPow j (syndrome e b))
        (second : syndrome e (b + 2) = timesPow j (syndrome e (b + 1))) (k : Nat) :
        syndrome e (k + 1) = timesPow j (syndrome e k) := by
      have ratios : ∀ k < 2, syndrome e (b + k + 1) = timesPow j (syndrome e (b + k)) := forall_lt_two first second
      have one : WrongWithin (symbol e.toNat) [j] := he.of_ratio b hj fun k hk => ratios k (Nat.lt_of_lt_of_le hk h2)
      rw [syndrome, syndrome, one.symSum_eq hj, one.symSum_eq hj, timesPow_succ_mul]
    obtain ⟨zero0, last⟩ | ⟨first, zero3⟩ := hr.first_or_last
    · rw [syn zero0, syn1] at ratio0
      rw [syn1, syn2] at ratio1
      rw [syndrome_xor, syn2, single 0 ratio0 ratio1 2] at ratio2
      exact last ((BitVec.xor_left_inj _).mp (ratio2.trans BitVec.zero_xor.symm))
    · rw [syn1, syn2] at ratio1
      rw [syn2, syn zero3] at ratio2
      rw [syn1, syndrome_xor, timesPow_xor, single 1 ratio1 ratio2 0] at ratio0
      exact first (timesPow_eq_zero.mp ((BitVec.xor_left_inj _).mp (ratio0.symm.trans BitVec.zero_xor.symm)))

/-! #### Which symbols the errors of the statement change -/

theorem WrongWithin.xor {a b : Flit} {l m : List Nat} (ha : WrongWithin (symbol a.toNat) l)
    (hb : WrongWithin (symbol b.toNat) m) : WrongWithin (symbol (a ^^^ b).toNat) (l ++ m) := by
  intro i hi hne
  rw [BitVec.toNat_xor, symbol_xor] at hne
  by_cases h : symbol a.toNat i = 0#8
  · rw [h, BitVec.zero_xor] at hne
    exact List.mem_append_right l (hb i hi hne)
  · exact List.mem_append_left m (ha i hi h)

theorem wrongWithin_symbolError {j x : Nat} (hx : x < 256) : WrongWithin (symbol (symbolError j x).toNat) [j] := by
  intro i hi hne
  rw [symbol_symbolError hx hi] at hne
  exact List.mem_singleton.mpr (Decidable.byContradiction fun h => hne (if_neg h))

theorem symbol_xor_ne_zero {a b : Flit} {i : Nat} (hb : symbol b.toNat i = 0#8) (ha : symbol a.toNat i ≠ 0#8) :
    symbol (a ^^^ b).toNat i ≠ 0#8 := by
  rwa [BitVec.toNat_xor, symbol_xor, hb, BitVec.xor_zero]

theorem symbol_symbolError_other {i j x : Nat} (hi : i < 20) (hne : i ≠ j) (hx : x < 256) :
    symbol (symbolError j x).toNat i = 0#8 := (symbol_symbolError hx hi).trans (if_neg hne)

theorem symbol_symbolError_ne_zero {j x : Nat} (hj : j < 20) (h1 : 1 ≤ x) (hx : x < 256) :
    symbol (symbolError j x).toNat j ≠ 0#8 := by
  rw [symbol_symbolError hx hj, if_pos rfl]
  exact ofNat_ne_zero_of_pos h1 hx

/-- Settles O60: all syndromes of a code word are 0 and three of a reserved word's four, so there the decoder sees those of the
error alone, and they tell how few symbols it changes. -/
theorem symbolGuarantees : Obligations.SymbolGuarantees := by
  intro ddr d j1 j2 j3 x1 x2 x3 hd hj1 hj2 _ h12 h13 h23 h1 hx1 hx2 hx3
  have hc (k : Nat) (hk : k < 4) : syndrome (rsEncode d) k = 0#8 := syndrome_rsEncode hd hk
  have e1 := wrongWithin_symbolError (j := j1) hx1
  have e2 := wrongWithin_symbolError (j := j2) hx2
  have e3 := wrongWithin_symbolError (j := j3) hx3
  have wrong1 : symbol (symbolError j1 x1 ^^^ symbolError j2 x2).toNat j1 ≠ 0#8 :=
    symbol_xor_ne_zero (symbol_symbolError_other hj1 h12 hx2) (symbol_symbolError_ne_zero hj1 h1 hx1)
  refine ⟨rsDecode_of_one_error ddr hc hj1 h1 hx1, fun h2 => ?_, fun w hw => ?_⟩
  · have wrong2 : symbol (symbolError j1 x1 ^^^ symbolError j2 x2).toNat j2 ≠ 0#8 := by
      rw [BitVec.xor_comm]
      exact symbol_xor_ne_zero (symbol_symbolError_other hj2 h12.symm hx1) (symbol_symbolError_ne_zero hj2 h2 hx2)
    rw [BitVec.xor_assoc (rsEncode d), BitVec.xor_assoc (rsEncode d)]
    exact rsDecode_of_two_or_three_errors ddr hc ((e1.xor e2).xor e3) (Nat.le_refl 3) h12 hj1 hj2
      (symbol_xor_ne_zero (symbol_symbolError_other hj1 h13 hx3) wrong1)
      (symbol_xor_ne_zero (symbol_symbolError_other hj2 h23 hx3) wrong2)
  · have hr : Reserved w := hw.elim (· ▸ reserved_poisonWord) (· ▸ reserved_zeroMarker)
    rw [BitVec.xor_assoc]
    exact rsDecode_of_reserved_error ddr hr (e1.xor e2) (Nat.le_refl 2) hj1 wrong1

end Sys2Proof.Machine
end
